-- ==== Sys2Proof/Word.lean ====
section
/-! DEFINITION. The words of the DXR9640 (spec/00_scope.md R5-R7, spec/03_host_interface.md R68, R72) and the
sparse map that holds numbered things. -/

namespace Sys2Proof

/-- A byte. -/
abbrev Byte := BitVec 8

/-- A register of BAR0 (R87). -/
abbrev W32 := BitVec 32

/-- A 64-byte descriptor (R59, R68): byte `k` of the descriptor is bits `8k+7` to `8k`. -/
abbrev Desc := BitVec 512

/-- A sparse map from numbers: keys strictly rise and no entry holds its key's default value. The operations
stand in `Sys2Proof/Machine/SMap.lean`. -/
abbrev SMap (α : Type) := List (Nat × α)

end Sys2Proof
end

