-- ==== Sys2Proof/Syntax.lean ====
section
/-! DEFINITION. The commands of the DXR9640, one constructor for each row of spec/opcode_table.json, and the operands
they carry. An operand is what the world outside gives with the command: a written value, a descriptor, a received
frame, the instant of an outside event, or what an outside standard computes. Times are DT counts of 2^-16 ns. -/

namespace Sys2Proof

/-- Who makes a BAR0 access: the PF driver through BAR0 (R89), Ndelia firmware or a standing order it carries out
(R83), or the driver of a VF through its own VF BAR0 (R51), at that BAR's offsets. -/
inductive Writer where
  | pf
  | firmware
  | vf (fn : Nat)
  deriving DecidableEq, Repr

/-- Bytes that software has stored in host memory and that are visible to the device when the command reads
(R65, R76): address and bytes, in order. -/
abbrev Stores := List (Nat × List Byte)

/-- A command taken from a ring: the ring, its descriptor, the further descriptors of its chain (R69), and host
stores visible with it. -/
structure RingOp where
  ring : Nat
  desc : Desc
  tail : List Desc
  st : Stores
  deriving DecidableEq, Repr

/-- Kinds of PTP message that the slave-only clock uses (R33). -/
inductive PtpKind where
  | sync | syncTwoStep | followUp | delayResp
  deriving DecidableEq, Repr

/-- A PTP message: the port that received it, its transport (0 IEEE 802.3, 1 UDP/IPv4, 2 UDP/IPv6), its domain, the
receive timestamp in DT and the source's timestamp, which includes its correction field. -/
structure PtpMsg where
  port : Nat
  kind : PtpKind
  transport : Nat
  domain : Nat
  rx : Nat
  origin : Nat
  deriving DecidableEq, Repr

/-- A configuration request (R49, R50, R54, R452): a read of a register, or a write of one of the fields that the
device's chapters use. -/
inductive CfgAccess where
  | read (reg : Nat)
  | busMaster (on : Bool)
  | d3hot (on : Bool)
  | fnMask (on : Bool)
  | vecMask (vec : Nat) (on : Bool)
  | relaxedOrdering (on : Bool)
  | maxPayload (code : Nat)
  | maxReadReq (code : Nat)
  | msixEnable (on : Bool)
  | aspmL1 (on : Bool)
  | aer (reg : Nat) (v : W32)
  | clearPme
  | numVfs (n : Nat)
  | other (reg : Nat) (v : W32)
  deriving DecidableEq, Repr

/-- Levels of the reset inputs (R534, R535); true is high. -/
structure ReleasePins where
  por : Bool
  sysReset : Bool
  perst : Bool
  deriving DecidableEq, Repr

/-- Outcome of start-up (R481, R482, R485): the cause code of MGMT_BOOT, 0 where no step fails by itself, and what the
header and the embedded patch of an image placed at manufacture say. -/
structure BootInfo where
  cause : Nat
  t : Nat
  fwVersion : Nat
  minPatchSv : Nat
  patch : List Byte
  /-- the controller whose known-answer test failed, with cause 2 (R403) -/
  kat : Nat
  /-- the domains that run (GLB_CLOCKS) -/
  clocks : Nat
  deriving DecidableEq, Repr

/-- A block row that a region has finished (R120, R183, R237, R265): the bits that the Pixel Engine's decision stage estimated
for it, and the reference RSUs that it read, as 2^20 × picture + RSU, in order. -/
structure RowDone where
  ctx : Nat
  region : Nat
  est : Nat
  reads : List Nat
  /-- 0, or the CAUSE of R109 that an access of the row met: 1, 2, 4, 5 or 8 -/
  fault : Nat
  t : Nat
  deriving DecidableEq, Repr

/-- Samples of a decoded frame or field inside its cropping window, in raster order, at the stream's own depth (R252). -/
structure DecPlanes where
  width : Nat
  height : Nat
  luma : List Nat
  cb : List Nat
  cr : List Nat
  deriving DecidableEq, Repr

/-- A decoded picture as its codec's standard gives it (R250, R252), with what its sequence says. -/
structure DecPic where
  profile : Nat
  depth : Nat
  /-- 0 4:2:0, 1 4:2:2; a monochrome stream has no chroma samples -/
  chroma : Nat
  mono : Bool
  /-- the sequence's largest DPB size -/
  dpb : Nat
  /-- a frame, or the only field decoded -/
  planes : DecPlanes
  /-- the complementary field -/
  other : Option DecPlanes
  /-- 0 a frame; 1 `planes` is a top field, 2 it is a bottom field -/
  parity : Nat
  /-- AV1: the frame with its film grain -/
  grain : Option DecPlanes
  /-- codes of ITU-T H.273, and the chroma sample location type -/
  primaries : Nat
  transfer : Nat
  matrix : Nat
  full : Bool
  chromaLoc : Nat
  /-- mastering display bytes 48 to 71 and light level bytes 72 to 75 of R137, where the stream carries them -/
  mdcv : Option (List Byte)
  cll : Option (List Byte)
  deriving DecidableEq, Repr

/-- What a unit type makes of a decoded picture (R248). -/
inductive PicKind where
  | idr
  | cra
  | bla
  /-- VVC: with the output order of its recovery point -/
  | gdr (recovery : Nat)
  /-- AV1 key frame, shown or not -/
  | keyFrame (shown : Bool)
  | rasl
  | other
  deriving DecidableEq, Repr

/-- A finished picture (R120, R132, R253). Of an encoded one only the context counts; of a decoded one, what its bitstream
says. -/
structure PicDone where
  ctx : Nat
  /-- none where nothing of it is decoded -/
  pic : Option DecPic
  kind : PicKind
  /-- it belongs to the base layer or operating point 0, and to no scalable or multiview extension (R248) -/
  base : Bool
  /-- position in the codec's output order -/
  order : Nat
  /-- blocks of the picture, and those of them that were concealed (R253, R260) -/
  blocks : Nat
  concealed : Nat
  /-- orders of the pictures that it names as references, list 0 index 0 first (R261, R262) -/
  uses : List Nat
  /-- pictures that the codec's output process releases after this one, and the orders of those it still needs as
  references -/
  release : Nat
  refs : List Nat
  /-- bytes of the stream that the picture has used -/
  used : Nat
  /-- parameter sets received in these bytes, and whether each passed its range check (R250); those that its headers name -/
  sets : List (Nat × Bool)
  names : List Nat
  /-- errors of these bytes that no bit read finds, first to last: byte position and reason code of R264 -/
  reasons : List (Nat × Nat)
  t : Nat
  deriving DecidableEq, Repr

/-- The source of an analysis: a ladder group, or an analyse context (R122, R142). -/
inductive SrcRef where
  | group (g : Nat)
  | ctx (c : Nat)
  deriving DecidableEq, Repr

/-- A Coupling Buffer record written for a pair (R185): the words of the record, and with the CTB record of an encode the
context-coded bins (AV1: symbols) and bypass bins (AV1: literal bits) of its block's records (R240). -/
structure RecIn where
  tile : Nat
  pair : Nat
  words : List W32
  bins : Nat × Nat
  deriving DecidableEq, Repr

/-- A frame that a port receives (R304): destination address to FCS, whether the FCS is right, and the arrival of its
first bit after the start delimiter. -/
structure RxFrame where
  port : Nat
  data : List Byte
  fcsOk : Bool
  t : Nat
  deriving DecidableEq, Repr

/-- What Hoist releases: a flow's next packet or a frame of a TX_FRAME (R351, R360). -/
inductive ReleaseRef where
  | flow (f : Nat)
  | frame (ring : Nat)
  deriving DecidableEq, Repr

/-- The errors that a codeword shows when it is read (R385): symbol errors outside erasures and the pseudo-channels
they lie on; `command` for a repeated command or address parity error (R397). -/
structure FrameErr where
  symbols : Nat
  pchs : Nat
  command : Bool
  deriving DecidableEq, Repr

/-- A memory request of a client (R371, R386): the client's number under R519 for bandwidth. -/
structure MemIn where
  stack : Nat
  client : Nat
  write : Bool
  addr : Nat
  len : Nat
  data : List Byte
  err : FrameErr
  t : Nat
  deriving DecidableEq, Repr

/-- The response of a DMA channel's oldest transaction of a phase (R435, R439, R440): 0 source read, 1 destination write,
2 barrier read; `kind` is 0 for success or the KIND of R440, with the address of the transaction that failed, and host
stores that a read returns. -/
structure BurstResp where
  ch : Nat
  kind : Nat
  phase : Nat
  addr : Nat
  st : Stores
  t : Nat
  deriving DecidableEq, Repr

/-- Sensor readings (R498): none for a sensor without a valid reading. Temperatures are in 1/16 °C, voltages in mV,
rails give power in 0.1 W and current in 10 mA, stacks their own temperature in °C. -/
structure Sensors where
  temps : List (Option Int)
  volts : List (Option Nat)
  rails : List (Option (Nat × Nat))
  stackTemps : List Int
  t : Nat
  deriving DecidableEq, Repr

/-- The device read that receives no completion (R439, R75): a read of a DMA channel's burst, of its ring record or
descriptors, or of an operation of a ring. -/
inductive TimeoutRef where
  | dmaBurst (ch : Nat) (addr : Nat)
  | dmaFetch (ch : Nat) (addr : Nat)
  | op (ring : Nat)
  deriving DecidableEq, Repr

/-- A command of the DXR9640. -/
inductive Instr where
    /-- TB_ENABLE_SET (R35): Setting TB_CTRL.ENABLE to 1 lets the Time Base discipline DT, and it enters ACQUIRING
  once a selected source is valid. -/
  | tbEnableSet (w : Writer) (v : W32)
    /-- TB_ENABLE_CLEAR (R35): Clearing TB_CTRL.ENABLE puts the Time Base in FREERUN with the nominal increment. -/
  | tbEnableClear (w : Writer) (v : W32)
    /-- PPS_OUT_ENABLE (R38): Setting PPS_OUT_EN starts the TIME_PPS_OUT series at the next DT whole second. -/
  | ppsOutEnable (w : Writer) (v : W32)
    /-- TIME_PPS_OUT_EDGE (R38): At each DT whole second TIME_PPS_OUT goes high for 100 ms. -/
  | timePpsOutEdge
    /-- TIME_PPS_IN_EDGE (R34): A rising TIME_PPS_IN edge gives an offset measurement, applying the SECONDS of an
  accepted SET_TOD. -/
  | timePpsInEdge (t : Nat)
    /-- PTP_MESSAGE (R33): A PTP message on PTP_PORT is handed to the Time Base and gives a PTP offset measurement. -/
  | ptpMessage (m : PtpMsg)
    /-- PPS_SOURCE_LOSS (R32): No TIME_PPS_IN edge for 1.5 s, or TIME_REF10M outside 50 ppm, declares the PPS source
  lost. -/
  | ppsSourceLoss (t : Nat)
    /-- PTP_SOURCE_LOSS (R32): No valid Sync message for 3 s declares the PTP source lost. -/
  | ptpSourceLoss (t : Nat)
    /-- SNAP (R39): Writing 1 to TB_SNAP_CMD.SNAP latches all 96 bits of DT into the snapshot registers. -/
  | snap (w : Writer) (v : W32)
    /-- DT_STEP (R41): The admin DT_STEP command steps DT atomically and re-evaluates every pending scheduled event.
  -/
  | dtStep (o : RingOp)
    /-- SET_TOD (R34): The admin SET_TOD command names the SECONDS value of the next TIME_PPS_IN edge. -/
  | setTod (o : RingOp)
    /-- CONFIG_REQUEST (R54): A PCIe configuration request is answered with Request Retry Status until the device is
  ready, and served after that. -/
  | configRequest (fn : Nat) (c : CfgAccess)
    /-- LINK_TRAINED (R48): The PCIe link settles at a rate and width, and LINK_DEGRADED is set below 16.0 GT/s or
  below x4. -/
  | linkTrained (rate : Nat) (width : Nat)
    /-- VF_FLR (R55): A Function Level Reset of a VF stops its rings and destroys them, and releases the resources it
  owns. -/
  | vfFlr (fn : Nat)
    /-- VF_FLR_COMPLETE (R55): The VF's FLR completes within 100 ms, and READY reads 1 again. -/
  | vfFlrComplete (fn : Nat)
    /-- PF_FLR (R56): An FLR of the PF applies the VF FLR to every function and spares firmware, the Fault Collector,
  the Time Base and standing orders. -/
  | pfFlr
    /-- VF_DISABLE (R543): Lowering NumVFs or clearing VF Enable applies an FLR to each VF above the new count. -/
  | vfDisable (n : Nat)
    /-- BAR2_WRITE (R53): A posted host write through BAR2 reaches the function's memory window, or is discarded and
  counted when it falls outside the window. -/
  | bar2Write (fn : Nat) (off : Nat) (data : List Byte)
    /-- BAR2_READ (R52): A host read through BAR2 returns window data, all ones outside the window, or EP on a
  poisoned page. -/
  | bar2Read (fn : Nat) (off : Nat) (len : Nat)
    /-- FN_ENABLE_SET (R57): Setting FN_CTRL.ENABLE starts the function's Admin ring after the alignment checks. -/
  | fnEnableSet (fn : Nat) (v : W32)
    /-- FN_ENABLE_CLEAR (R58): Clearing FN_CTRL.ENABLE stops fetching from the Admin ring. -/
  | fnEnableClear (fn : Nat) (v : W32)
    /-- ADMIN_QUIESCE_DONE (R58): Once every fetched admin command has completed, ADMIN_QUIESCED sets. -/
  | adminQuiesceDone (fn : Nat)
    /-- CLR_REJECTED (R58): Writing 1 to FN_CTRL.CLR_REJECTED clears FN_STATUS.CFG_REJECTED. -/
  | clrRejected (fn : Nat) (v : W32)
    /-- RING_POLL (R63): Each POLL_US the device reads an active ring record and fetches descriptors from CI up to PI.
  -/
  | ringPoll (ring : Nat) (st : Stores)
    /-- RING_IDLE_TIMEOUT (R63): No PI change for IDLE_US makes the device write NEEDS_WAKE=1 and reread the ring
  record. -/
  | ringIdleTimeout (ring : Nat)
    /-- SLEEP_RECHECK (R63): The reread of the ring record returns, and the ring either stays active with NEEDS_WAKE=0
  or sleeps. -/
  | sleepRecheck (ring : Nat) (st : Stores)
    /-- WAKE_WRITE (R64): A wake page write makes the named ring active, clears NEEDS_WAKE and polls it at once. -/
  | wakeWrite (fn : Nat) (off : Nat) (v : W32) (st : Stores)
    /-- CQ_HEAD_READ (R67): The device reads a full completion queue's head record to learn of freed slots, then
  resumes held completions and fetching. -/
  | cqHeadRead (cq : Nat) (st : Stores)
    /-- NOP (R70): Opcode 0x00 moves nothing and completes with OK, after earlier writes when BARRIER=1. -/
  | nop (o : RingOp)
    /-- NEGOTIATE (R82): The admin NEGOTIATE command selects the function's interface level. -/
  | negotiate (o : RingOp)
    /-- CREATE_CQ (R80): The admin CREATE_CQ command creates a completion queue in the function's range. -/
  | createCq (o : RingOp)
    /-- CREATE_RING (R80): The admin CREATE_RING command creates a typed ring bound to a completion queue. -/
  | createRing (o : RingOp)
    /-- DESTROY_RING (R79): The admin DESTROY_RING command stops fetching from the ring. -/
  | destroyRing (o : RingOp)
    /-- DESTROY_RING_DONE (R79): DESTROY_RING completes once every fetched operation of the ring has completed. -/
  | destroyRingDone (ring : Nat)
    /-- DESTROY_CQ (R80): The admin DESTROY_CQ command destroys a completion queue that has no bound ring. -/
  | destroyCq (o : RingOp)
    /-- SET_PROTECTION (R84): The admin SET_PROTECTION command changes a function's window or ranges and bumps the
  protection epoch. -/
  | setProtection (o : RingOp)
    /-- EPOCH_DRAIN (R85): The admin EPOCH_DRAIN command waits for operations fetched under epochs earlier than N. -/
  | epochDrain (o : RingOp)
    /-- EPOCH_DRAIN_DONE (R85): EPOCH_DRAIN completes when no operation fetched under an earlier epoch remains. -/
  | epochDrainDone (fn : Nat)
    /-- FLUSH (R79): The admin FLUSH command waits for the function's earlier BAR2 writes. -/
  | flush (o : RingOp)
    /-- FLUSH_DONE (R53): FLUSH completes when all earlier BAR2 writes are visible to device engines. -/
  | flushDone (fn : Nat)
    /-- REGISTER_WRITE (R90): A BAR0 write to a register with no row of its own takes effect according to each field's
  access type. -/
  | registerWrite (w : Writer) (a : Nat) (v : W32)
    /-- BAR0_REFUSED (R87): A misaligned, wrongly sized or unprivileged BAR0 access is refused, raises a NOTE fault
  and counts in GLB_BAR0_REFUSED. -/
  | bar0Refused (fn : Nat) (a : Nat) (size : Nat) (write : Bool)
    /-- BLOCK_ENABLE_SET (R92): Setting a block's ENABLE applies its RWL fields from the same write and starts the
  block. -/
  | blockEnableSet (w : Writer) (win : Nat) (v : W32)
    /-- BLOCK_ENABLE_CLEAR (R92): Clearing a block's ENABLE makes it finish or abandon its work and applies any
  pending LIVE set at once. -/
  | blockEnableClear (w : Writer) (win : Nat) (v : W32)
    /-- BLOCK_QUIESCED (R92): A disabled block that has finished its work-in-progress sets QUIESCED. -/
  | blockQuiesced (win : Nat)
    /-- COMMIT (R93): Writing 1 to BLK_COMMIT.COMMIT sets PENDING for the staged LIVE set. -/
  | commit (w : Writer) (win : Nat) (v : W32)
    /-- DISCARD (R95): Writing 1 to BLK_COMMIT.DISCARD while PENDING=0 restores the staged copies from the active
  values. -/
  | discard (w : Writer) (win : Nat) (v : W32)
    /-- SAFE_POINT_APPLY (R97): At the block's, port's or engine's safe point, the staged LIVE set becomes active, and
  PENDING clears once the last has applied it. -/
  | safePointApply (win : Nat) (unit : Nat)
    /-- SQC_CLEAR (R98): A write with a matching SEQ clears the masked bits of an SQC register. -/
  | sqcClear (w : Writer) (a : Nat) (v : W32)
    /-- ALIAS_WRITE (R100): A write to an alias word sets or clears one bit under its field's access type. -/
  | aliasWrite (w : Writer) (a : Nat) (v : W32)
    /-- POWER_ON_RESET (R103): POR low, or VDD_AON out of limits, returns every register to its reset value. -/
  | powerOnReset (vdd : Bool) (straps : Nat)
    /-- WARM_RESET (R103): PERST_N or SYS_RESET_N low for at least 1 µs, or an internal warm reset, resets every field
  not marked kept. -/
  | warmReset (cause : Nat)
    /-- RESET_RELEASE (R534): When the last of POR, SYS_RESET_N and PERST_N rises, the boot ROM starts the start-up
  sequence. -/
  | resetRelease (p : ReleasePins)
    /-- DEVICE_READY (R481): Ndelia firmware completes start-up, ends Request Retry Status and sets READY in every
  function. -/
  | deviceReady (b : BootInfo)
    /-- CREATE_CONTEXT (R126): The Job ring opcode 0x20 creates a decode, encode or analyse context after admission
  and placement. -/
  | createContext (o : RingOp)
    /-- DESTROY_CONTEXT (R129): The Job ring opcode 0x21 puts the context into DRAINING and discards its running
  picture. -/
  | destroyContext (o : RingOp)
    /-- CONTEXT_DRAINED (R108): A DRAINING context reaches FREE once its pending operations have completed, and
  DESTROY_CONTEXT completes. -/
  | contextDrained (ctx : Nat)
    /-- CREATE_GROUP (R128): The Job ring opcode 0x22 creates a ladder group and admits its analysis cost. -/
  | createGroup (o : RingOp)
    /-- DESTROY_GROUP (R129): The Job ring opcode 0x23 destroys a group that has no member. -/
  | destroyGroup (o : RingOp)
    /-- KEY_NOW (R147): The Job ring opcode 0x24 requests a key picture at the first source picture analysed after its
  fetch. -/
  | keyNow (o : RingOp)
    /-- SET_RATE_CONTROL (R224): The Job ring opcode 0x26 sets the rate-control parameters and makes a CREATED context
  ACTIVE. -/
  | setRateControl (o : RingOp)
    /-- PICTURE (R130): The Job ring opcode 0x30 supplies one source picture to a group, an encode context or an
  analyse context. -/
  | picture (o : RingOp)
    /-- BITSTREAM (R131): The Job ring opcode 0x31 supplies bitstream bytes to a decode context. -/
  | bitstream (o : RingOp)
    /-- GET_AU (R132): The Job ring opcode 0x32 writes the context's next access unit, decoded picture or sidecar to
  the host. -/
  | getAu (o : RingOp)
    /-- PRODUCE (R133): The Job ring opcode 0x38 encodes one stored source segment on demand from its sidecar. -/
  | produce (o : RingOp)
    /-- PICTURE_DISPATCH (R119): The Context Scheduler dispatches the ready picture with the earliest deadline to idle
  PXE–SXE pairs. -/
  | pictureDispatch (tile : Nat)
    /-- ROW_COMPLETE (R120): A region finishes a block row, and at this boundary it is checked for preemption. -/
  | rowComplete (r : RowDone)
    /-- SEAM_FILTER (R168): Once both regions have reconstructed the rows that meet a seam, the region boundary is
  filtered. -/
  | seamFilter (ctx : Nat) (seam : Nat)
    /-- PICTURE_COMPLETE (R120): A picture completes when all its regions and seams are done, and it is reported LATE
  if it passes its deadline. -/
  | pictureComplete (p : PicDone)
    /-- DVFS_CHANGE (R24): At a DT instant firmware scheduled, a tile's DVFS point changes. -/
  | dvfsChange (tile : Nat) (point : Nat) (t : Nat)
    /-- PICTURE_ANALYSIS (R142): The home tile's ANEs analyse a source picture and publish its motion, complexity,
  saliency, cut score and mean luma. -/
  | pictureAnalysis (src : SrcRef)
    /-- RUNG_SCALE (R150): An SCU builds one rung source picture by conversion, halving, polyphase filtering and depth
  reduction. -/
  | rungScale (ctx : Nat) (n : Nat)
    /-- PAIR_HANDOVER (R184): Once the Coupling Buffer is empty after a preemption, the region state is saved and the
  pair takes the new picture. -/
  | pairHandover (tile : Nat) (pair : Nat)
    /-- PAD (R186): A PAD record is skipped by the consumer. -/
  | pad (r : RecIn)
    /-- PIC_START (R187): A PIC_START record opens a picture's region with its type, key flags and base quantizer. -/
  | picStart (r : RecIn)
    /-- ROW_START (R187): A ROW_START record opens a block row. -/
  | rowStart (r : RecIn)
    /-- CTB (R187): A CTB record starts a macroblock, CTU or superblock. -/
  | ctb (r : RecIn)
    /-- CU (R189): A CU record carries one coding unit's geometry, quantizer and prediction kind. -/
  | cu (r : RecIn)
    /-- INTRA (R190): An INTRA record carries one intra prediction block. -/
  | intra (r : RecIn)
    /-- INTER (R190): An INTER record carries one inter prediction block with its vectors and references. -/
  | inter (r : RecIn)
    /-- RESIDUAL (R191): A RESIDUAL record carries the quantized levels of one transform block. -/
  | residual (r : RecIn)
    /-- ROW_END (R187): A ROW_END record closes a block row with its block count. -/
  | rowEnd (r : RecIn)
    /-- PIC_END (R187): A PIC_END record closes the picture's region. -/
  | picEnd (r : RecIn)
    /-- AVC_MB (R220): An AVC macroblock element record carries CBP and field flag. -/
  | avcMb (r : RecIn)
    /-- AVC_SUBMB (R220): An AVC sub-macroblock type record. -/
  | avcSubmb (r : RecIn)
    /-- PRED_WEIGHT (R220): A weighted prediction table record. -/
  | predWeight (r : RecIn)
    /-- SAO (R220): An SAO parameter record for HEVC or VVC. -/
  | sao (r : RecIn)
    /-- HEVC_CU_EXT (R220): An HEVC coding unit extension record with bypass, PCM and chroma QP offset. -/
  | hevcCuExt (r : RecIn)
    /-- AV1_CDEF (R220): An AV1 CDEF index record. -/
  | av1Cdef (r : RecIn)
    /-- AV1_LR (R220): An AV1 loop restoration record. -/
  | av1Lr (r : RecIn)
    /-- AV1_COMPOUND (R220): An AV1 compound prediction record. -/
  | av1Compound (r : RecIn)
    /-- AV1_MOTION (R220): An AV1 motion mode record with OBMC or warp parameters. -/
  | av1Motion (r : RecIn)
    /-- AV1_PALETTE (R220): An AV1 palette record. -/
  | av1Palette (r : RecIn)
    /-- AV1_DELTA (R220): An AV1 delta quantizer and loop filter record. -/
  | av1Delta (r : RecIn)
    /-- VVC_ALF (R220): A VVC ALF control record. -/
  | vvcAlf (r : RecIn)
    /-- VVC_AFFINE (R220): A VVC affine control point record. -/
  | vvcAffine (r : RecIn)
    /-- VVC_GPM (R220): A VVC geometric partition record. -/
  | vvcGpm (r : RecIn)
    /-- VVC_INTER_EXT (R220): A VVC inter extension record with MMVD, CIIP, BCW and SMVD. -/
  | vvcInterExt (r : RecIn)
    /-- MICROWORD (R196): An SXE issues one 144-bit microword, whose fields act in one microcycle. -/
  | microword (tile : Nat) (pair : Nat) (err : Nat)
    /-- PREEMPTION_REQUEST (R206): A preemption request abandons a routine before COMMIT, or is held after it, and
  STOP is held. -/
  | preemptionRequest (tile : Nat) (pair : Nat)
    /-- ROUTINE_WATCHDOG (R206): 2^WDOG_LOG2 microwords without COMMIT abandon and restart the routine. -/
  | routineWatchdog (tile : Nat) (pair : Nat)
    /-- BUDGET_OUT (R259): A region's decode work budget is spent, and the region ends with reason BUDGET. -/
  | budgetOut (ctx : Nat) (region : Nat)
    /-- STALL_TIMEOUT (R263): STALL_MS without further data closes the picture and conceals the uncovered blocks with
  reason STALL. -/
  | stallTimeout (ctx : Nat)
    /-- LOAD_PATCH (R216): The admin opcode 0x48 verifies and checks a microcode patch and applies it to the SXEs. -/
  | loadPatch (o : RingOp)
    /-- PATCH_TAKE (R218): An SXE takes the new patch between regions, and LOAD_PATCH completes when all 64 have taken
  it. -/
  | patchTake (tile : Nat) (pair : Nat)
    /-- STREAM_CREATE (R268): The Delivery opcode 0x50 creates a Segmenter stream. -/
  | streamCreate (o : RingOp)
    /-- STREAM_DESTROY (R282): The Delivery opcode 0x51 destroys a stream and completes its pending operations. -/
  | streamDestroy (o : RingOp)
    /-- STREAM_KEY (R282): The Delivery opcode 0x52 changes a stream's key slot and KID from a segment index onwards.
  -/
  | streamKey (o : RingOp)
    /-- AUDIO (R279): The Delivery opcode 0x58 supplies one audio sample to a stream. -/
  | audio (o : RingOp)
    /-- SEG_NEXT (R273): The Delivery opcode 0x59 waits for and reports the stream's oldest unclaimed sealed segment.
  -/
  | segNext (o : RingOp)
    /-- SEG_DROP (R276): The Delivery opcode 0x5A frees a sealed segment by its owner. -/
  | segDrop (o : RingOp)
    /-- ACCESS_UNIT_PACKAGE (R270): The Segmenter takes an access unit into the stream's open segment. -/
  | accessUnitPackage (stream : Nat)
    /-- AUDIO_WAIT_TIMEOUT (R279): AUDIO_WAIT_MS after a TS video cut, the segment seals without waiting for the
  remaining audio. -/
  | audioWaitTimeout (stream : Nat)
    /-- OPEN (R287): The Delivery opcode 0x44 loads a flow context and makes the flow OPEN. -/
  | openFlow (o : RingOp)
    /-- SEND (R288): The Delivery opcode 0x40 sends a byte range of a segment as protected TCP/TLS or QUIC packets. -/
  | send (o : RingOp) (ok : Bool)
    /-- RESEND (R292): The Delivery opcode 0x41 rebuilds and resends part of an earlier SEND. -/
  | resend (o : RingOp) (ok : Bool)
    /-- SET_RATE (R293): The Delivery opcode 0x42 changes a flow's rate and TCP ACK fields at once. -/
  | setRate (o : RingOp) (ok : Bool)
    /-- REKEY (R294): The Delivery opcode 0x45 installs a new flow key, after a KeyUpdate record in TCP_TLS if asked.
  -/
  | rekey (o : RingOp) (ok : Bool)
    /-- CLOSE (R295): The Delivery opcode 0x43 closes a flow, aborting earlier SENDs with ABORT. -/
  | closeFlow (o : RingOp) (ok : Bool)
    /-- FLOW_CLOSE_DONE (R295): Once earlier operations end, the optional final packet is sent and the flow becomes
  FREE. -/
  | flowCloseDone (flow : Nat)
    /-- FLOW_CACHE_ENTRY_FREE (R285): A flow cache entry frees and an operation waiting for an entry proceeds. -/
  | flowCacheEntryFree (flow : Nat) (ok : Bool)
    /-- RX_FRAME (R304): A port receives a frame, checks its FCS and size, timestamps it and passes it to the receive
  pipeline. -/
  | rxFrame (f : RxFrame)
    /-- PAUSE_RX (R308): A received Annex 31B PAUSE frame stops every egress queue of the port. -/
  | pauseRx (f : RxFrame)
    /-- PFC_RX (R308): A received PFC frame stops the queues of the enabled priorities. -/
  | pfcRx (f : RxFrame)
    /-- PAUSE_EXPIRE (R308): A received pause time runs out and the stopped queues resume. -/
  | pauseExpire (port : Nat) (cls : Nat)
    /-- PAUSE_REFRESH (R309): Every REFRESH quanta during a stop, the pause frame is sent again. -/
  | pauseRefresh (port : Nat)
    /-- LINK_UP (R307): A port's link comes up. -/
  | linkUp (port : Nat)
    /-- LINK_DOWN (R307): A port's link goes down, and LINK_DOWNS increments. -/
  | linkDown (port : Nat)
    /-- AN_RESOLVE (R302): Clause 73 auto-negotiation resolves technology and FEC, or fails and restarts. -/
  | anResolve (port : Nat) (ok : Bool) (tech : Nat) (fec : Nat)
    /-- LT_COMPLETE (R303): A lane completes link training. -/
  | ltComplete (lane : Nat)
    /-- LT_FAIL (R303): A lane fails to train within 500 ms, and its port restarts from negotiation. -/
  | ltFail (lane : Nat) (t : Nat)
    /-- LG_CNT_SNAP (R304): Writing 1 to LG_CNT_SNAP copies every counter of the lane group into its snapshot. -/
  | lgCntSnap (w : Writer) (lg : Nat) (v : W32)
    /-- SKEW_TIMEOUT (R313): A held packet that has waited SKEW_MS passes, and the gap is marked as a loss point. -/
  | skewTimeout (stream : Nat)
    /-- DECAP_RECIRCULATE (R328): A frame matched by a DECAP rule loses its outer headers and re-enters the pipeline
  for a second pass. -/
  | decapRecirculate
    /-- FRAGMENT_AGE_OUT (R327): A fragment table entry unused for 100 ms is removed. -/
  | fragmentAgeOut (i : Nat)
    /-- RX_BUFFER (R326): The Host Receive opcode 0x70 posts an empty buffer for frames. -/
  | rxBuffer (o : RingOp)
    /-- HOST_RX_DELIVERY (R326): A queued frame is written with its prefix into the ring's next buffer, and the buffer
  completes. -/
  | hostRxDelivery (ring : Nat)
    /-- RULES_WRITE (R330): The admin opcode 0x60 writes rule images into the drained inactive set. -/
  | rulesWrite (o : RingOp)
    /-- RULES_SWAP (R330): The admin opcode 0x61 makes the inactive set active with the next generation, lane by lane.
  -/
  | rulesSwap (o : RingOp)
    /-- RULE_SET_DRAINED (R331): No frame carries the old generation any more, DRAINED sets, and a waiting RULES_WRITE
  proceeds. -/
  | ruleSetDrained
    /-- HOIST_RELEASE (R351): Hoist releases a flow's or a timed frame's next packet into its queue once credit,
  launch time, queue, pool and enables permit. -/
  | hoistRelease (r : ReleaseRef)
    /-- EGRESS_SELECT (R352): At a frame boundary, a port picks a pause frame, a strict slot or the weighted head with
  the least tag. -/
  | egressSelect (port : Nat)
    /-- FRAME_TX_END (R359): A frame's last bit leaves the port, and a TX_FRAME completes with its timestamp. -/
  | frameTxEnd (port : Nat)
    /-- TX_FRAME (R358): The Host Transmit opcode 0x80 queues a raw frame, optionally timed and timestamped. -/
  | txFrame (o : RingOp)
    /-- GATE_ENTRY_ADVANCE (R354): A gate entry's interval ends, and the next entry's gate states take force. -/
  | gateEntryAdvance (port : Nat)
    /-- GATE_CYCLE_BOUNDARY (R356): At a cycle boundary, a staged gate list is copied to pending and its start S is
  computed. -/
  | gateCycleBoundary (port : Nat)
    /-- GATE_LIST_START (R356): At S, the pending gate list becomes the running list at entry 0. -/
  | gateListStart (port : Nat)
    /-- MEM_REQUEST (R371): A controller issues a memory request in its priority order and decodes or writes the
  frame's codeword. -/
  | memRequest (q : MemIn)
    /-- REFRESH_DUE (R372): A per-bank refresh falls due each interval, and is issued or postponed during panic. -/
  | refreshDue (stack : Nat) (sid : Nat)
    /-- STACK_TEMP_READ (R373): Every 1 ms the controller reads the stack temperature and halves or restores the
  refresh interval. -/
  | stackTempRead (stack : Nat) (temp : Int)
    /-- URGENCY_REPORT (R375): A real-time client reports its urgency, and the controller enters or leaves panic for
  the port. -/
  | urgencyReport (stack : Nat) (port : Nat) (urgency : Nat) (t : Nat)
    /-- PANIC_LONG (R376): A panic longer than PANIC_LIMIT_US sets PANIC_LONG and raises a DEGRADED fault. -/
  | panicLong (stack : Nat) (port : Nat)
    /-- POWER_DOWN_ENTRY (R377): After PD_IDLE idle cycles the controller enters precharge power-down. -/
  | powerDownEntry (stack : Nat) (t : Nat)
    /-- SELF_REFRESH_ENTRY (R377): After SR_IDLE_US idle the controller drains, precharges and enters self-refresh. -/
  | selfRefreshEntry (stack : Nat) (issued : Bool) (t : Nat)
    /-- SELF_REFRESH_EXIT (R378): After SR_MIN, and any PLL relock, the controller exits self-refresh and serves held
  requests. -/
  | selfRefreshExit (stack : Nat)
    /-- ARM (R379): Writing MC_FREQ_CMD.ARM arms a frequency change at a DT and loads the shadow timing. -/
  | arm (w : Writer) (stack : Nat) (v : W32)
    /-- CANCEL (R379): Writing MC_FREQ_CMD.CANCEL removes an armed change that has not begun. -/
  | cancel (w : Writer) (stack : Nat) (v : W32)
    /-- FREQ_CHANGE_START (R380): At the change's DT with no panic, the controller drains and enters self-refresh for
  the change. -/
  | freqChangeStart (stack : Nat)
    /-- PLL_RELOCK (R380): The HBM PLL relocks, and the shadow timing becomes active. -/
  | pllRelock (stack : Nat) (t : Nat)
    /-- PHY_TRAINING_DONE (R380): PHY training ends, held requests are served, and FREQ_DONE sets. -/
  | phyTrainingDone (stack : Nat) (t : Nat)
    /-- MAP_ENABLE (R368): Setting MAP_CTRL.ENABLE checks every tile's capacity and opens the data space. -/
  | mapEnable (w : Writer) (v : W32)
    /-- SELF_TEST (R393): With no panic, the controller pattern-tests the erroring slots and classes the error
  TRANSIENT or PERSISTENT. -/
  | selfTest (stack : Nat) (bad : Nat)
    /-- PATROL_SCRUB (R394): At each evenly spaced DT instant the patrol reads the next frame, after taking any DRT
  entry. -/
  | patrolScrub (stack : Nat) (e : FrameErr)
    /-- MIGRATION_COPY (R399): The migration copies the next frame of a failed rank to the spare at MIG_GBPS. -/
  | migrationCopy (e : FrameErr) (spareBad : Bool)
    /-- RETIRE_PAGE (R395): The admin opcode 0x68 moves a page to a reserve frame. -/
  | retirePage (o : RingOp)
    /-- RETIRE_BANK (R395): The admin opcode 0x69 retires a bank of one pseudo-channel on a rank. -/
  | retireBank (o : RingOp)
    /-- DECLARE_ERASURE (R395): The admin opcode 0x6A declares a DRAM channel erased on a rank. -/
  | declareErasure (o : RingOp)
    /-- POISON_CLEAR (R395): The admin opcode 0x6B writes zeros with valid parity and clears POISONED. -/
  | poisonClear (o : RingOp)
    /-- ALLOCATION (R412): Bunting gives the head FREE buffer of the smallest fitting pool, falling back to larger
  pools. -/
  | allocation (size : Nat) (owner : Nat)
    /-- HOLD (R416): A device operation increments a buffer's HOLDS. -/
  | hold (h : Nat) (owner : Nat)
    /-- RELEASE (R416): A holder decrements HOLDS, and the buffer returns at 0 when FREE_PENDING. -/
  | release (h : Nat) (owner : Nat)
    /-- FREE (R416): The final owner frees a buffer, which returns or becomes FREE_PENDING. -/
  | free (h : Nat) (owner : Nat) (level : Nat)
    /-- BUF_QUERY (R421): The admin opcode 0x78 reports a buffer's state, owner and holds. -/
  | bufQuery (o : RingOp)
    /-- BUNTING_ENABLE (R408): Setting BUN_CTRL.ENABLE checks the pool layout and opens the pools. -/
  | buntingEnable (w : Writer) (v : W32)
    /-- DMA_RING_POLL (R426): Each POLL_US a DMA channel reads its ring record and fetches descriptors. -/
  | dmaRingPoll (ch : Nat) (st : Stores)
    /-- COPY (R429): The DMA opcode 0x90 copies bytes between host bus and data-space addresses. -/
  | copy (ch : Nat) (d : Desc)
    /-- FILL (R429): The DMA opcode 0x91 writes a repeated 8-byte pattern. -/
  | fill (ch : Nat) (d : Desc)
    /-- DMA_BURST_GRANT (R431): A free burst slot is granted to the highest-priority eligible DMA channel, round-robin
  within a level. -/
  | dmaBurstGrant
    /-- DMA_BURST_RESPONSE (R435): A burst's transactions return, and a descriptor whose transactions have all
  returned completes. -/
  | dmaBurstResponse (r : BurstResp)
    /-- DMA_ENGINE_STOPPED (R439): Once every outstanding transaction has returned, completions are written and the
  engine enters STOPPED. -/
  | dmaEngineStopped
    /-- DMA_RESTART (R442): A successful clear of DMA_EVENTS.STOPPED restarts the engine. -/
  | dmaRestart (w : Writer) (v : W32)
    /-- DREQ_EDGE (R433): A qualified DREQ rising edge gives one request to each DMA channel that selects it. -/
  | dreqEdge (line : Nat)
    /-- DMA_TIMER_FIRE (R434): A DMA timer fires at a DT multiple of its period and gives one request. -/
  | dmaTimerFire (k : Nat)
    /-- DMA_TIMER_WRITE (R434): Writing a non-zero PERIOD_NS starts a timer series, and 0 stops it. -/
  | dmaTimerWrite (w : Writer) (k : Nat) (v : W32)
    /-- DMA_SWREQ (R432): Writing 1 to a DMA_SWREQ bit gives one request to that DMA channel. -/
  | dmaSwreq (w : Writer) (hi : Bool) (v : W32)
    /-- DMA_CHANNEL_ENABLE (R425): Setting DMA_CH_CFG.EN checks the set-up and starts the DMA channel with epoch and
  CI 0. -/
  | dmaChannelEnable (w : Writer) (ch : Nat) (v : W32)
    /-- DMA_CHANNEL_DISABLE (R427): Clearing EN stops fetching, runs fetched descriptors at full rate and zeroes REQS.
  -/
  | dmaChannelDisable (w : Writer) (ch : Nat) (v : W32)
    /-- INT_SOURCE_EVENT (R447): An edge source event sets its pending bit, and a newly deliverable source is
  announced. -/
  | intSourceEvent (src : Nat)
    /-- INT_LEVEL_CHANGE (R447): A level source's line changes, and its pending bit follows unless it is in service.
  -/
  | intLevelChange (src : Nat)
    /-- MOD_MAX_EXPIRE (R451): MOD_MAX after the last message, the notices held on the vector go in one message. -/
  | modMaxExpire (fn : Nat) (vec : Nat)
    /-- INT_HOLD_RELEASE (R452): On unmask, Bus Master Enable or return to D0, the mirror is written and held messages
  are sent. -/
  | intHoldRelease (fn : Nat)
    /-- CLAIM (R453): A write to CLAIM pushes a pending routed source onto the target's in-service stack. -/
  | claim (w : Writer) (target : Nat) (v : W32)
    /-- COMPLETE (R454): A write to COMPLETE pops a matching top entry, or sets STACK_ERR. -/
  | complete (w : Writer) (target : Nat) (v : W32)
    /-- THRESHOLD_WRITE (R448): A write to THRESHOLD changes the effective level, which may make sources deliverable.
  -/
  | thresholdWrite (w : Writer) (target : Nat) (v : W32)
    /-- MASK_SET (R457): MASK_SET sets the mask bit of a routed source. -/
  | maskSet (w : Writer) (target : Nat) (v : W32)
    /-- MASK_CLR (R457): MASK_CLR clears the mask bit of a routed source. -/
  | maskClr (w : Writer) (target : Nat) (v : W32)
    /-- PEND_SET (R457): PEND_SET sets the pending bit of a routed edge source. -/
  | pendSet (w : Writer) (target : Nat) (v : W32)
    /-- PEND_CLR (R457): PEND_CLR clears the pending bit of a routed edge source. -/
  | pendClr (w : Writer) (target : Nat) (v : W32)
    /-- CLOCK_MONITOR_TRIP (R23): A stopped clock, or one more than 5 % off for 1 µs, raises a FATAL fault naming its
  domain. -/
  | clockMonitorTrip (dom : Nat) (stopped : Bool)
    /-- HALYARD_TIMEOUT (R20): Requests to a stopped tile or stack are answered with error responses within 10 µs. -/
  | halyardTimeout (tile : Bool) (i : Nat)
    /-- CONDITION_RERAISE (R461): A condition source raises again every 1 s while its condition holds. -/
  | conditionReraise (src : Nat)
    /-- FC_MH_REARM (R466): Writing FC_MH_REARM with the current COUNT clears the Masthead. -/
  | fcMhRearm (w : Writer) (v : W32)
    /-- FC_FORCE (R472): Writing FC_FORCE raises a source with FORCED=1. -/
  | fcForce (w : Writer) (v : W32)
    /-- FAULT_EVENT_TAKE (R474): Firmware takes a fault from the event queue and writes its RAM log record. -/
  | faultEventTake
    /-- FLASH_LOG_WRITE (R474): Firmware writes a record to the flash log at most 100 per second, copying standing
  records forward. -/
  | flashLogWrite
    /-- LOG_READ (R477): The admin opcode 0x7C returns log records from FIRST_SEQ onwards. -/
  | logRead (o : RingOp)
    /-- HEARTBEAT (R480): Every 10 ms firmware writes its heartbeat to the AON domain. -/
  | heartbeat (t : Nat)
    /-- HEARTBEAT_MISSED (R480): No heartbeat for 100 ms raises source 28 MGMT_HEARTBEAT. -/
  | heartbeatMissed
    /-- MGMT_CORE_RESTART (R480): After 5 s without heartbeat the AON domain restarts the management cores alone. -/
  | mgmtCoreRestart
    /-- GET_CHALLENGE (R493): The admin opcode 0x20 writes a fresh challenge and the serial number. -/
  | getChallenge (o : RingOp)
    /-- CLAIM_ADMIN (R493): The admin opcode 0x21 grants the credential on a valid owner signature over the challenge.
  -/
  | claimAdmin (o : RingOp)
    /-- RELEASE_ADMIN (R493): The admin opcode 0x22 gives up the admin credential. -/
  | releaseAdmin (o : RingOp)
    /-- CHALLENGE_LAPSE (R493): An unused challenge lapses after 60 s. -/
  | challengeLapse
    /-- OWNER_SET (R492): The admin opcode 0x23 stores a new owner key signed by the current one. -/
  | ownerSet (o : RingOp)
    /-- WATCHDOG (R501): The admin opcode 0x2C restarts or stops the host watchdog timer. -/
  | watchdog (o : RingOp)
    /-- HOST_WATCHDOG (R501): The host watchdog expires, raises source 512 and fires the ON_WATCHDOG trigger. -/
  | hostWatchdog
    /-- HOST_WAIT_EXPIRY (R502): No NEGOTIATE within HOST_WAIT_S after READY fires the ON_START trigger. -/
  | hostWaitExpiry
    /-- SO_EGRESS_DATAGRAM (R502): Firmware sends a paced 7-packet TS datagram of a sealed segment to multicast. -/
  | soEgressDatagram (i : Nat)
    /-- FW_WRITE (R488): The admin opcode 0x30 writes a chunk of firmware image into the inactive slot. -/
  | fwWrite (o : RingOp)
    /-- FW_ACTIVATE (R488): The admin opcode 0x31 checks the slot and makes it TRIAL. -/
  | fwActivate (o : RingOp)
    /-- FW_COMMIT (R486): The admin opcode 0x32 burns fuses up to the active image's SECURITY_VERSION. -/
  | fwCommit (o : RingOp)
    /-- CONFIG_STORE (R497): The admin opcode 0x33 checks and stores a configuration record for the next warm reset.
  -/
  | configStore (o : RingOp)
    /-- SO_STORE (R500): The admin opcode 0x34 checks and stores a signed standing order. -/
  | soStore (o : RingOp)
    /-- SO_STOP (R503): SO_CONTROL ACTION=0 destroys the running order's resources and returns it to STORED. -/
  | soStop (o : RingOp)
    /-- SO_ADOPT (R503): SO_CONTROL ACTION=1 hands the order's resources to the PF and erases the order. -/
  | soAdopt (o : RingOp)
    /-- SO_CLEAR (R503): SO_CONTROL ACTION=2 erases a stored order that is not running. -/
  | soClear (o : RingOp)
    /-- KEY_LOAD (R491): The admin opcode 0x38 loads a content key slot. -/
  | keyLoad (o : RingOp)
    /-- KEY_CLEAR (R491): The admin opcode 0x39 erases a content key slot. -/
  | keyClear (o : RingOp)
    /-- ATTEST (R505): The admin opcode 0x3C writes a signed quote of the measurement registers over a nonce. -/
  | attest (o : RingOp)
    /-- GET_CERT (R506): The admin opcode 0x3D writes the DER certificate chain. -/
  | getCert (o : RingOp)
    /-- RESET (R507): The admin opcode 0x3F completes with OK and schedules a warm reset. -/
  | reset (o : RingOp)
    /-- RESET_DELAY_EXPIRE (R507): 10 ms after RESET's completion, the device performs a warm reset. -/
  | resetDelayExpire
    /-- SENSOR_REFRESH (R498): Every 10 ms firmware refreshes the sensors and raises thermal, current and sensor
  faults. -/
  | sensorRefresh (x : Sensors)
    /-- SMB_STATUS_READ (R489): SMBus command 0x10 returns boot state, version, slots, temperature and power. -/
  | smbStatusRead (port : Nat)
    /-- SMB_FW_WRITE (R489): SMBus command 0x11 writes a firmware chunk as FW_WRITE does. -/
  | smbFwWrite (port : Nat) (off : Nat) (first : Bool) (data : List Byte)
    /-- SMB_FW_ACTIVATE (R489): SMBus command 0x12 activates the slot as FW_ACTIVATE does. -/
  | smbFwActivate (port : Nat) (b : Nat)
    /-- SMB_RESET (R489): SMBus command 0x13 causes a warm reset. -/
  | smbReset (port : Nat) (b : Nat)
    /-- PM_CLEAR (R515): Writing PM_CLEAR bits zeroes the chosen counters before that cycle's events. -/
  | pmClear (w : Writer) (unit : Nat) (v : W32)
    /-- PM_COUNTER_LO_READ (R516): A read of a counter's LO word samples it and latches the upper bits for the HI
  read. -/
  | pmCounterLoRead (path : Nat) (unit : Nat) (k : Nat)
    /-- PM_OVERFLOW (R514): A counter passing 2^48 − 1 wraps, sets PM_OVF and carries into a chained counter. -/
  | pmOverflow (unit : Nat) (k : Nat) (n : Nat)
    /-- BW_WINDOW_END (R519): At a DT multiple of WINDOW_US, the accumulated bytes are copied to the bandwidth
  registers and PM_BW_SEQ increments. -/
  | bwWindowEnd
    /-- RAIL_FAULT (R535): A rail outside its limits for 10 µs raises source 27 RAIL_FAULT. -/
  | railFault (rail : Nat)
    /-- THERMAL_HOLD (R538): The AON comparator at 125 °C holds every block except AON in warm reset. -/
  | thermalHold
    /-- THERMAL_HOLD_EXIT (R538): When every sensor reads below 100 °C the device leaves THERMAL_HOLD and starts again
  with CAUSE=3. -/
  | thermalHoldExit (temps : List Int)
    /-- BYPASS (R528): The JTAG BYPASS instruction. -/
  | bypass (tdi : Nat) (n : Nat)
    /-- IDCODE (R528): The JTAG IDCODE instruction reads 0x1964_03C3. -/
  | idcode
    /-- SAMPLE_PRELOAD (R528): The JTAG SAMPLE/PRELOAD instruction on the boundary-scan cells. -/
  | samplePreload (pins : Nat) (cells : Nat)
    /-- EXTEST (R528): The JTAG EXTEST instruction. -/
  | extest (pins : Nat) (cells : Nat)
    /-- HIGHZ (R528): The JTAG HIGHZ instruction. -/
  | highz
    /-- CLAMP (R528): The JTAG CLAMP instruction. -/
  | clamp
    /-- COMPLETION_TIMEOUT (R439): A PCIe read issued by the device receives no completion within the completion
  timeout, which is a bus error that stops the DMA engine. -/
  | completionTimeout (r : TimeoutRef)
    /-- CORE_RESTART_DONE (R480): The restarted management cores finish re-verifying and restarting Ndelia firmware,
  complete the fetched admin commands with MGMT_RESTARTED, and resume standing-order egress. -/
  | coreRestartDone
    /-- DELAY_REQ (R33): Ndelia firmware sends a PTP Delay_Req on PTP_PORT of its own accord, and the transmit
  timestamp is reported to the Time Base. -/
  | delayReq (t : Nat)
  deriving DecidableEq, Repr

end Sys2Proof
end

