-- ==== Sys2Proof/Config.lean ====
section
/-! DEFINITION. What the spec leaves open or takes from outside it: free values and functions without a body. Nothing
can be proved of a value of any of them. -/

namespace Sys2Proof.Config

/-- The `n`-th free value: where the spec says a value results and does not say which (DESIGN CHOICE, log entry 1). -/
opaque freeValue : Nat → Nat

/-- Parity symbols of a frame that a bank of a pseudo-channel holds, by rank, frame, pseudo-channel and bank: internal to the
device (R384). -/
opaque parityOn : Nat × Nat × Nat × Nat → Nat

/-- SHA-512 (R490, R504): FIPS 180 defines it, the spec does not (DESIGN CHOICE, log entry 6). -/
opaque sha512 : List Byte → BitVec 512

/-- Whether a 512-byte RSASSA-PSS signature verifies (R484): key modulus or key number, message, signature. -/
opaque verify : List Byte → List Byte → List Byte → Bool

/-- The 512-byte signature that the identity key makes (R505), as a number. -/
opaque sign : List Byte → BitVec 4096

/-- The fused keys of R490, as byte strings: 0 firmware root key, 1 patch key. -/
opaque fusedKey : Nat → List Byte

/-- AES-128 or AES-256 encryption of one block: key, block (R280, R290): FIPS 197 defines it. -/
opaque aesBlock : Bool → Nat → BitVec 128 → BitVec 128

/-- AES-GCM sealing of a record or packet: AES-256, key, nonce, additional data, text (R289, R290). The result is the
text's bytes encrypted and the 16-byte tag. -/
opaque gcmSeal : Bool → Nat → Nat → List Byte → List Byte → List Byte

/-- The boot ROM's digest, the firmware image placed at manufacture, and the bytes that stand for the fuse count and the
TESTMODE strap in measurement register 6 (R504): the spec gives none of them. -/
opaque bootRomDigest : List Byte
opaque factoryImage : List Byte
opaque fuseBytes : Nat → Bool → List Byte

/-- The device certificate chain (R506), at most 16 KiB. -/
opaque certChain : List Byte

/-- The microwords of the control store by word address: the ROM, and what patch RAM holds where nothing has been loaded;
and the entries of the ROM's Signal Book by 256 × bank + opcode, as R202 lays them out (R194, R202, R203). -/
opaque rom : Nat → BitVec 144
opaque romBook : Nat → BitVec 32

/-- A ROM table of a codec bank (R195): codec, table, index. -/
opaque romTable : Nat → Nat → Nat → BitVec 32

/-- The ROM's initial value of a context memory entry (R199): codec, entry, slice QP or base_q_idx. -/
opaque initEntry : Nat → Nat → Nat → BitVec 64

/-- A stream's structure, which its codec's standard defines (R115, R247, R257, R259): codec, and the stream from where its
next picture starts. The regions that the picture offers, the luma samples of one of them, the bytes of the picture's access
unit, and whether a filter acts across the boundaries of its regions. -/
opaque picRegions : Nat → List Byte → Nat
opaque regionSamples : Nat → List Byte → Nat → Nat
opaque picLength : Nat → List Byte → Nat
opaque loopAcross : Nat → List Byte → Bool

/-- The parameter block that a Syntax Engine writes for a region (R220), in a form internal to the device: codec, the stream
up to the region's unit. -/
opaque paramBlock : Nat → List Byte → List Nat

/-- The reconstruction of an encoded picture (stages 6 and 7 of 07_pixel_engines.md), which its codec's standard defines:
codec, depth, its records by region, and the samples of its references; planes of luma, Cb and Cr. -/
opaque recon : Nat → Nat → List (List (List Nat)) → List (List Nat) → List Nat × List Nat × List Nat

/-- Whether an RSU packs, as its number of 32-byte sectors (R180); the encoding inside a slot is internal to the device. -/
opaque packSectors : List Nat → Nat

/-- What a Pixel Engine minimises in its motion search (R173), whose metric the spec leaves to the device: samples of the block,
samples of the reference around the position, and the fraction of a sample in each component, in quarters. -/
opaque searchCost : List Nat → List Nat → Nat → Nat → Nat

/-- A unit that heads an access unit: a parameter set, sequence header, SEI message or
metadata OBU (R211, R212, R229): codec, kind of unit, its values. The codec's standard defines its syntax. -/
opaque headUnit : Nat → Nat → List Nat → List Byte

/-- How the coded data of several regions join in one slice or tile group (R167): codec, the data of each. -/
opaque joinRegions : Nat → List (List Byte) → List Byte

/-- The 'moov' box of a CMAF header (R277): ISO/IEC 14496-12 and the codecs' file formats define it, with kind, codec,
size, scheme, KID, constant IV, parameter sets and the boxes of the init data block. -/
opaque cmafMoov : List Nat → List Byte → List Byte → List Byte

/-- The parameter sets or sequence header in an access unit of a codec, as its standard lays them out (R273, R277). -/
opaque paramSets : Nat → List Byte → List Byte

/-- Filler of R228 as a codec's standard lays it out: codec, bytes. -/
opaque filler : Nat → Nat → List Byte

/-- The AV1 frame header that shows an existing frame (R542), by display order. -/
opaque showExisting : Nat → List Byte

/-- Bytes of headers at the front of a NAL unit or OBU of a codec that R280 protects; none for a unit that stays wholly
clear. -/
opaque clearPart : Nat → List Byte → Option Nat

/-- The program association and program map sections (R278) of ISO/IEC 13818-1: video and audio stream types. -/
opaque tsPat : List Byte
opaque tsPmt : List Nat → List Byte

/-- A sample between samples of a half-resolution picture (R142), whose interpolation the spec leaves open: whether the
position is half-way along each axis, and the 8 × 8 samples around it. -/
opaque halfPel : Bool → Bool → List Nat → Nat

/-- An 8-bit sample brought to 10 bits for a 10-bit rung of an 8-bit source: R150 states the other direction only. -/
opaque widen : Nat → Nat

/-- Whether a fraction of a step of R152 is rounded up: step, numerator, denominator. The spec leaves the fixed-point forms of
the steps open. -/
opaque toneUp : Nat → Int → Int → Bool

/-- The BT.709 transfer characteristic (R152): linear light and result in 1/65,535; ITU-R BT.709 defines it. -/
opaque bt709 : Nat → Nat

end Sys2Proof.Config
end

