-- ==== Sys2Proof/Machine/Reg.lean ====
section
/-! DEFINITION. The BAR0 addresses of the registers by their names in the spec (R105): window base plus offset.
Indexes come in the order window instance, then the register's own indexes. Control-page names take the function:
function 0's page is in the Host interface window (R51), function f's page is held at 0x4000000 + f × 0x1000, above
BAR0, which a VF reaches at its own VF BAR0. -/

namespace Sys2Proof.Machine.Reg

/-- The base of function `f`'s control page. -/
def page (f : Nat) : Nat := if f = 0 then 0x100000 else 0x4000000 + f * 0x1000

def TB_CTRL : Nat := 0x200000
def TB_STATUS : Nat := 0x200004
def TB_OFFSET : Nat := 0x200008
def TB_EVENTS : Nat := 0x20000C
def TB_SNAP_CMD : Nat := 0x200010
def TB_SNAP0 : Nat := 0x200014
def TB_SNAP1 : Nat := 0x200018
def TB_SNAP2 : Nat := 0x20001C
def FN_STATUS (f : Nat) : Nat := page f
def FN_LOAD (f : Nat) : Nat := page f + 0x4
def PROT_EPOCH (f : Nat) : Nat := page f + 0x8
def FN_CTRL (f : Nat) : Nat := page f + 0x10
def ADM_RING_BASE_LO (f : Nat) : Nat := page f + 0x20
def ADM_RING_BASE_HI (f : Nat) : Nat := page f + 0x24
def ADM_CQ_BASE_LO (f : Nat) : Nat := page f + 0x28
def ADM_CQ_BASE_HI (f : Nat) : Nat := page f + 0x2C
def ADM_REC_LO (f : Nat) : Nat := page f + 0x30
def ADM_REC_HI (f : Nat) : Nat := page f + 0x34
def ADM_SIZES (f : Nat) : Nat := page f + 0x38
def BLK_ID (w : Nat) : Nat := w * 0x100000 + 0x7F000
def BLK_STATUS (w : Nat) : Nat := w * 0x100000 + 0x7F004
def BLK_COMMIT (w : Nat) : Nat := w * 0x100000 + 0x7F008
def BLK_STATE (w : Nat) : Nat := w * 0x100000 + 0x7F00C
def TILE_CTRL (u : Nat) : Nat := (36 + u) * 0x100000
def TILE_SCHED (u : Nat) : Nat := (36 + u) * 0x100000 + 0x4
def TILE_CAPACITY (u : Nat) : Nat := (36 + u) * 0x100000 + 0x8
def TILE_ADMITTED_LIVE (u : Nat) : Nat := (36 + u) * 0x100000 + 0xC
def TILE_ADMITTED_OD (u : Nat) : Nat := (36 + u) * 0x100000 + 0x10
def TILE_ADMITTED_ANE (u : Nat) : Nat := (36 + u) * 0x100000 + 0x14
def TILE_EVENTS (u : Nat) : Nat := (36 + u) * 0x100000 + 0x18
def ANA_CTRL (u : Nat) : Nat := (36 + u) * 0x100000 + 0x100
def ANA_EVENTS (u : Nat) : Nat := (36 + u) * 0x100000 + 0x104
def ANA_CUT_KEYS (u : Nat) : Nat := (36 + u) * 0x100000 + 0x108
def TONE_CURVE (u i : Nat) : Nat := (36 + u) * 0x100000 + 0x200 + 4 * i
def TONE_SEL (u i : Nat) : Nat := (36 + u) * 0x100000 + 0x10000 + 4 * i
def PXE_CTRL (u : Nat) : Nat := (36 + u) * 0x100000 + 0x300
def PXE_BUSY (u : Nat) : Nat := (36 + u) * 0x100000 + 0x304
def PXE_EVENTS (u : Nat) : Nat := (36 + u) * 0x100000 + 0x308
def WS_REF_HITS (u : Nat) : Nat := (36 + u) * 0x100000 + 0x30C
def WS_REF_MISSES (u : Nat) : Nat := (36 + u) * 0x100000 + 0x310
def SXE_CTRL (u : Nat) : Nat := (36 + u) * 0x100000 + 0x400
def SXE_BUSY (u : Nat) : Nat := (36 + u) * 0x100000 + 0x404
def SXE_EVENTS (u : Nat) : Nat := (36 + u) * 0x100000 + 0x408
def SXE_PATCH (u : Nat) : Nat := (36 + u) * 0x100000 + 0x40C
def SXE_RESTARTS (u : Nat) : Nat := (36 + u) * 0x100000 + 0x410
def CB_FILL (u i : Nat) : Nat := (36 + u) * 0x100000 + 0x440 + 4 * i
def RC_GAIN (u : Nat) : Nat := (36 + u) * 0x100000 + 0x500
def RC_EVENTS (u : Nat) : Nat := (36 + u) * 0x100000 + 0x504
def RC_OVERSHOOTS (u : Nat) : Nat := (36 + u) * 0x100000 + 0x508
def RC_STAGE2 (u : Nat) : Nat := (36 + u) * 0x100000 + 0x50C
def DEC_CTRL (u : Nat) : Nat := (36 + u) * 0x100000 + 0x600
def DEC_EVENTS (u : Nat) : Nat := (36 + u) * 0x100000 + 0x604
def DEC_LAST_ERROR (u : Nat) : Nat := (36 + u) * 0x100000 + 0x608
def DEC_CONCEALED (u : Nat) : Nat := (36 + u) * 0x100000 + 0x60C
def DEC_DROPPED (u : Nat) : Nat := (36 + u) * 0x100000 + 0x610
def DEC_BOUND_HITS (u : Nat) : Nat := (36 + u) * 0x100000 + 0x614
def SEG_CTRL (u : Nat) : Nat := (16 + u) * 0x100000
def SEG_PARAMS (u : Nat) : Nat := (16 + u) * 0x100000 + 0x4
def SEG_EVENTS (u : Nat) : Nat := (16 + u) * 0x100000 + 0x8
def SEG_SEALED (u : Nat) : Nat := (16 + u) * 0x100000 + 0xC
def SEG_DISCARDED (u : Nat) : Nat := (16 + u) * 0x100000 + 0x10
def CRY_CTRL : Nat := 0xF00000
def CRY_EVENTS : Nat := 0xF00004
def FLOW_CACHE_HITS : Nat := 0xF00008
def FLOW_CACHE_MISSES : Nat := 0xF0000C
def FLOWS_OPEN : Nat := 0xF00010
def LG_CTRL (u : Nat) : Nat := (28 + u) * 0x100000
def LG_PORT_EN (u : Nat) : Nat := (28 + u) * 0x100000 + 0x8
def LG_EVENTS (u : Nat) : Nat := (28 + u) * 0x100000 + 0x10
def PAUSE_CFG (u : Nat) : Nat := (28 + u) * 0x100000 + 0x14
def LG_CNT_SNAP (u : Nat) : Nat := (28 + u) * 0x100000 + 0x20
def PORT_CTRL (u i : Nat) : Nat := (28 + u) * 0x100000 + 0x100 + 4 * i
def LANE_CFG (u i : Nat) : Nat := (28 + u) * 0x100000 + 0x200 + 4 * i
def PORT_STATUS (u i : Nat) : Nat := (28 + u) * 0x100000 + 0x300 + 4 * i
def TS_TX_DELAY (u i : Nat) : Nat := (28 + u) * 0x100000 + 0x400 + 8 * i
def TS_RX_DELAY (u i : Nat) : Nat := (28 + u) * 0x100000 + 0x404 + 8 * i
def COUNTER_LO (u i j : Nat) : Nat := (28 + u) * 0x100000 + 0x1000 + 128 * i + 8 * j
def COUNTER_HI (u i j : Nat) : Nat := (28 + u) * 0x100000 + 0x1004 + 128 * i + 8 * j
def CL_STATUS (u : Nat) : Nat := (24 + u) * 0x100000
def PAR_CTRL : Nat := 0x900000
def PAR_GENS : Nat := 0x900004
def PAR_STATE : Nat := 0x900008
def PAR_EVENTS : Nat := 0x90000C
def MGMT_POLICE : Nat := 0x900010
def MGMT_WM : Nat := 0x900014
def PAR_COUNT (i : Nat) : Nat := 0x900100 + 4 * i
def PORT_DEFAULT (i j : Nat) : Nat := 0x900800 + 16 * i + 4 * j
def PORT_REASON (i j : Nat) : Nat := 0x902000 + 16 * i + 4 * j
def INGEST_CFG0 (i : Nat) : Nat := 0xD01000 + 8 * i
def INGEST_CFG1 (i : Nat) : Nat := 0xD01004 + 8 * i
def INGEST_DROPPED : Nat := 0xD03000
def QM_CTRL : Nat := 0xA00000
def QM_POOL : Nat := 0xA00004
def QM_FREE : Nat := 0xA00008
def QM_EVENTS : Nat := 0xA0000C
def QM_QSEL : Nat := 0xA00010
def QM_QFILL : Nat := 0xA00014
def QM_COUNT (i : Nat) : Nat := 0xA00100 + 4 * i
def FSTOP_CFG (i : Nat) : Nat := 0xA00200 + 4 * i
def ING_WM (i : Nat) : Nat := 0xA00400 + 4 * i
def QUEUE_CFG (i : Nat) : Nat := 0xA10000 + 4 * i
def QUEUE_WM (i : Nat) : Nat := 0xA20000 + 4 * i
def QUEUE_LIMIT (i : Nat) : Nat := 0xA30000 + 4 * i
def POLICER (i : Nat) : Nat := 0x904000 + 4 * i
def POLICE_DROPS (i : Nat) : Nat := 0x904400 + 4 * i
def HOIST_CTRL : Nat := 0xB00000
def HOIST_EVENTS : Nat := 0xB00004
def HOIST_LATE : Nat := 0xB00008
def HOIST_PORT (i : Nat) : Nat := 0xB00100 + 4 * i
def HOIST_WEIGHT (i : Nat) : Nat := 0xB10000 + 4 * i
def GATE_CTRL : Nat := 0xC00000
def GATE_EVENTS : Nat := 0xC00004
def GATE_LAST : Nat := 0xC00008
def GATE_OVERRUNS : Nat := 0xC0000C
def GATE_BASE0 (i : Nat) : Nat := 0xC01000 + 32 * i
def GATE_BASE1 (i : Nat) : Nat := 0xC01004 + 32 * i
def GATE_BASE2 (i : Nat) : Nat := 0xC01008 + 32 * i
def GATE_CYCLE (i : Nat) : Nat := 0xC0100C + 32 * i
def GATE_LEN (i : Nat) : Nat := 0xC01010 + 32 * i
def GATE_STATUS (i : Nat) : Nat := 0xC02000 + 4 * i
def GATE_ENTRY (i j : Nat) : Nat := 0xC10000 + 1024 * i + 4 * j
def TXP_CTRL : Nat := 0xE00000
def MC_CTRL (u : Nat) : Nat := (40 + u) * 0x100000
def MC_SCHED (u : Nat) : Nat := (40 + u) * 0x100000 + 0x4
def MC_REFRESH (u : Nat) : Nat := (40 + u) * 0x100000 + 0x8
def MC_PANIC (u : Nat) : Nat := (40 + u) * 0x100000 + 0xC
def MC_STATE (u : Nat) : Nat := (40 + u) * 0x100000 + 0x10
def MC_EVENTS (u : Nat) : Nat := (40 + u) * 0x100000 + 0x14
def MC_FREQ_POINT (u : Nat) : Nat := (40 + u) * 0x100000 + 0x18
def MC_FREQ_DT0 (u : Nat) : Nat := (40 + u) * 0x100000 + 0x1C
def MC_FREQ_DT1 (u : Nat) : Nat := (40 + u) * 0x100000 + 0x20
def MC_FREQ_DT2 (u : Nat) : Nat := (40 + u) * 0x100000 + 0x24
def MC_FREQ_CMD (u : Nat) : Nat := (40 + u) * 0x100000 + 0x28
def MC_TIMING_SHADOW (u i : Nat) : Nat := (40 + u) * 0x100000 + 0x100 + 4 * i
def MC_TIMING_ACTIVE (u i : Nat) : Nat := (40 + u) * 0x100000 + 0x140 + 4 * i
def RT_THRESH (u i : Nat) : Nat := (40 + u) * 0x100000 + 0x200 + 4 * i
def MAP_CTRL : Nat := 0x3000000
def MAP_STATUS : Nat := 0x3000004
def MAP_TILE (i : Nat) : Nat := 0x3000010 + 4 * i
def MEM_SECTION (i : Nat) : Nat := 0x3000100 + 4 * i
def RANK_MAP (i : Nat) : Nat := 0x3000400 + 4 * i
def RT_PORT_SEL (i : Nat) : Nat := 0x3000500 + 4 * i
def MEM_CODE : Nat := 0x3001000
def MEM_EVENTS : Nat := 0x3001004
def MEM_SPARES : Nat := 0x3001008
def MEM_MIG : Nat := 0x3001010
def MEM_MIG_CTRL : Nat := 0x3001014
def MEM_COUNT (i : Nat) : Nat := 0x3001020 + 4 * i
def MEM_LOG_COUNT : Nat := 0x3001040
def RANK_STATE (i : Nat) : Nat := 0x3001100 + 4 * i
def RETIRED_PAGES (i : Nat) : Nat := 0x3001180 + 4 * i
def DRT_ENTRY (i : Nat) : Nat := 0x3001200 + 4 * i
def MEM_LOG (i j : Nat) : Nat := 0x3002000 + 32 * i + 4 * j
def MC_SCRUB (u : Nat) : Nat := (40 + u) * 0x100000 + 0x30
def MC_SCRUB_POS (u : Nat) : Nat := (40 + u) * 0x100000 + 0x34
def MC_SCRUB_PASSES (u : Nat) : Nat := (40 + u) * 0x100000 + 0x38
def BUN_CTRL : Nat := 0x600000
def BUN_STATUS : Nat := 0x600004
def BUN_EVENTS : Nat := 0x600008
def BUN_POOL_BASE (i : Nat) : Nat := 0x600100 + 16 * i
def BUN_POOL_COUNT (i : Nat) : Nat := 0x600104 + 16 * i
def BUN_POOL_FREE (i : Nat) : Nat := 0x600108 + 16 * i
def BUN_POOL_STATUS (i : Nat) : Nat := 0x60010C + 16 * i
def BUN_COUNT (i : Nat) : Nat := 0x600200 + 4 * i
def DMA_CTRL : Nat := 0x500000
def DMA_EVENTS : Nat := 0x500004
def DMA_STATE : Nat := 0x500008
def DMA_ERR_INFO : Nat := 0x50000C
def DMA_ERR_ADDR_LO : Nat := 0x500010
def DMA_ERR_ADDR_HI : Nat := 0x500014
def DMA_STOPS : Nat := 0x500018
def DMA_TIMER (i : Nat) : Nat := 0x500100 + 4 * i
def DMA_CH_PRIO (i : Nat) : Nat := 0x500800 + 4 * i
def DMA_CH_CFG (i : Nat) : Nat := 0x501000 + 32 * i
def DMA_CH_POLL (i : Nat) : Nat := 0x501004 + 32 * i
def DMA_CH_RING_LO (i : Nat) : Nat := 0x501008 + 32 * i
def DMA_CH_RING_HI (i : Nat) : Nat := 0x50100C + 32 * i
def DMA_CH_REC_LO (i : Nat) : Nat := 0x501010 + 32 * i
def DMA_CH_REC_HI (i : Nat) : Nat := 0x501014 + 32 * i
def DMA_CH_CQ_LO (i : Nat) : Nat := 0x501018 + 32 * i
def DMA_CH_CQ_HI (i : Nat) : Nat := 0x50101C + 32 * i
def DMA_CH_STATUS (i : Nat) : Nat := 0x502000 + 4 * i
def DMA_SWREQ_LO : Nat := 0x503000
def DMA_SWREQ_HI : Nat := 0x503004
def INTC_CTRL : Nat := 0x300000
def INTC_EVENTS : Nat := 0x300004
def INTC_PENDING (i : Nat) : Nat := 0x300100 + 4 * i
def INTC_MASK (i : Nat) : Nat := 0x300200 + 4 * i
def INTC_SRC_CFG (i : Nat) : Nat := 0x302000 + 4 * i
def MOD_MAX (i : Nat) : Nat := 0x304000 + 4 * i
def FC_CTRL : Nat := 0x400000
def FC_STATE : Nat := 0x400004
def FC_MH_SRC : Nat := 0x400010
def FC_MH_DT0 : Nat := 0x400014
def FC_MH_DT1 : Nat := 0x400018
def FC_MH_DT2 : Nat := 0x40001C
def FC_MH_INFO_LO : Nat := 0x400020
def FC_MH_INFO_HI : Nat := 0x400024
def FC_MH_COUNT : Nat := 0x400028
def FC_MH_REARM : Nat := 0x40002C
def FC_FORCE : Nat := 0x400030
def FC_FORCE_INFO_LO : Nat := 0x400034
def FC_FORCE_INFO_HI : Nat := 0x400038
def FC_COUNT (i : Nat) : Nat := 0x400040 + 4 * i
def FC_QUEUE_DROPS : Nat := 0x400060
def FC_FLASH_DROPS : Nat := 0x400064
def FC_STICKY (i : Nat) : Nat := 0x400100 + 4 * i
def FC_MASK (i : Nat) : Nat := 0x400200 + 4 * i
def FC_SRC (i : Nat) : Nat := 0x402000 + 4 * i
def MGMT_BOOT : Nat := 0x3100000
def MGMT_FW_VERSION : Nat := 0x3100004
def MGMT_EVENTS : Nat := 0x3100008
def SO_STATUS : Nat := 0x310000C
def SO_CHANNELS : Nat := 0x3100010
def WDOG_REMAINING : Nat := 0x3100014
def TEMP (i : Nat) : Nat := 0x3100100 + 4 * i
def VOLT (i : Nat) : Nat := 0x3100200 + 4 * i
def RAIL (i : Nat) : Nat := 0x3100300 + 4 * i
def POWER_TOTAL : Nat := 0x3100400
def PM_CTRL : Nat := 0x700000
def PM_BW_CTRL : Nat := 0x700004
def PM_USER_EN_LO : Nat := 0x700010
def PM_USER_EN_HI : Nat := 0x700014
def PM_USER_FN_LO : Nat := 0x700018
def PM_USER_FN_HI : Nat := 0x70001C
def PM_CYCLE_LO (i : Nat) : Nat := 0x701000 + 256 * i
def PM_CYCLE_HI (i : Nat) : Nat := 0x701004 + 256 * i
def PM_FILT_CTRL (i : Nat) : Nat := 0x701008 + 256 * i
def PM_FILT_REQ (i : Nat) : Nat := 0x70100C + 256 * i
def PM_FILT_ADDR_LO (i : Nat) : Nat := 0x701010 + 256 * i
def PM_FILT_ADDR_HI (i : Nat) : Nat := 0x701014 + 256 * i
def PM_OVF (i : Nat) : Nat := 0x701018 + 256 * i
def PM_CLEAR (i : Nat) : Nat := 0x70101C + 256 * i
def PM_EVT (i j : Nat) : Nat := 0x701020 + 256 * i + 4 * j
def PM_CNT_LO (i j : Nat) : Nat := 0x701040 + 256 * i + 8 * j
def PM_CNT_HI (i j : Nat) : Nat := 0x701044 + 256 * i + 8 * j
def PM_BW_SEQ : Nat := 0x704000
def PM_BW_DT0 : Nat := 0x704004
def PM_BW_DT1 : Nat := 0x704008
def PM_BW_DT2 : Nat := 0x70400C
def PM_BW_PORT_RX_LO (i : Nat) : Nat := 0x705000 + 16 * i
def PM_BW_PORT_RX_HI (i : Nat) : Nat := 0x705004 + 16 * i
def PM_BW_PORT_TX_LO (i : Nat) : Nat := 0x705008 + 16 * i
def PM_BW_PORT_TX_HI (i : Nat) : Nat := 0x70500C + 16 * i
def PM_BW_PCIE_RX_LO : Nat := 0x705800
def PM_BW_PCIE_RX_HI : Nat := 0x705804
def PM_BW_PCIE_TX_LO : Nat := 0x705808
def PM_BW_PCIE_TX_HI : Nat := 0x70580C
def PM_BW_MEM_RD_LO (i : Nat) : Nat := 0x705900 + 16 * i
def PM_BW_MEM_RD_HI (i : Nat) : Nat := 0x705904 + 16 * i
def PM_BW_MEM_WR_LO (i : Nat) : Nat := 0x705908 + 16 * i
def PM_BW_MEM_WR_HI (i : Nat) : Nat := 0x70590C + 16 * i
def GLB_ID : Nat := 0x0
def GLB_STRAPS : Nat := 0x4
def GLB_RESET : Nat := 0x8
def GLB_CLOCKS : Nat := 0xC
def GLB_BAR0_REFUSED : Nat := 0x10
def GLB_SERIAL (i : Nat) : Nat := 0x20 + 4 * i
def INTC_CLAIM (i : Nat) : Nat := 0x310000 + 1024 * i
def INTC_COMPLETE (i : Nat) : Nat := 0x310004 + 1024 * i
def INTC_TOP (i : Nat) : Nat := 0x310008 + 1024 * i
def INTC_CLAIM_RESULT (i : Nat) : Nat := 0x31000C + 1024 * i
def INTC_THRESHOLD (i : Nat) : Nat := 0x310010 + 1024 * i
def INTC_MASK_SET (i : Nat) : Nat := 0x310014 + 1024 * i
def INTC_MASK_CLR (i : Nat) : Nat := 0x310018 + 1024 * i
def INTC_PEND_SET (i : Nat) : Nat := 0x31001C + 1024 * i
def INTC_PEND_CLR (i : Nat) : Nat := 0x310020 + 1024 * i
def INTC_MIRROR_LO (i : Nat) : Nat := 0x310028 + 1024 * i
def INTC_MIRROR_HI (i : Nat) : Nat := 0x31002C + 1024 * i
def INTC_VANISHED (i : Nat) : Nat := 0x310030 + 1024 * i

end Sys2Proof.Machine.Reg
end

