-- ==== Sys2Proof/Machine/RegTable.lean ====
section
/-! DEFINITION. The registers of BAR0 as the chapters' field tables give them (R87-R106): one row per register name,
with the window it stands in, its offset, its repetition, and each field's place, access type, reset value, the range
of values the table defines (R9) and whether a warm reset keeps it (R104). A row's values that a rule gives outside
the table stand in `resetSpecial`. -/

namespace Sys2Proof.Machine

/-- Access types (R90). -/
inductive Acc where
  | rw | ro | wo | rwl | live | sqc | w1p
  deriving DecidableEq, Repr

/-- One field of a register: bits `hi` to `lo`; `min` to `max` are the encodings its table defines. -/
structure Fld where
  hi : Nat
  lo : Nat
  acc : Acc
  reset : Nat
  min : Nat
  max : Nat
  kept : Bool
  deriving DecidableEq, Repr

/-- One register name. `dims` lists stride, first index and count of each index. -/
structure RegRow where
  name : String
  base : Nat
  dims : List (Nat × Nat × Nat)
  aliased : Bool
  flds : List Fld
  deriving DecidableEq, Repr

/-- A field whose table defines every encoding. -/
def fld (hi lo : Nat) (acc : Acc) (reset : Nat) : Fld := ⟨hi, lo, acc, reset, 0, 2 ^ (hi + 1 - lo) - 1, false⟩

/-- A field whose table defines only `min` to `max`. -/
def fldIn (hi lo : Nat) (acc : Acc) (reset min max : Nat) : Fld := ⟨hi, lo, acc, reset, min, max, false⟩

/-- A field that a warm reset keeps. -/
def fldKept (hi lo : Nat) (acc : Acc) : Fld := ⟨hi, lo, acc, 0, 0, 2 ^ (hi + 1 - lo) - 1, true⟩

/-- The common page of every block window (R105). -/
def rowsCommon : List RegRow := [
  ⟨"BLK_ID", 0x7F000, [], false, [fld 31 24 .ro 0, fld 23 16 .ro 0, fld 7 0 .ro 1]⟩,
  ⟨"BLK_STATUS", 0x7F004, [], false, [fld 31 24 .sqc 0, fld 1 1 .sqc 0, fld 0 0 .sqc 0]⟩,
  ⟨"BLK_COMMIT", 0x7F008, [], false, [fld 1 1 .w1p 0, fld 0 0 .w1p 0]⟩,
  ⟨"BLK_STATE", 0x7F00C, [], false, [fld 31 16 .ro 0, fld 2 2 .ro 1, fld 1 1 .ro 0, fld 0 0 .ro 0]⟩]

/-- Registers of window 0 (spec/23_pins_power_package.md). -/
def rowsGlobal : List RegRow := [
  ⟨"GLB_ID", 0x0, [], false, [fld 31 16 .ro 38464, fld 7 0 .ro 1]⟩,
  ⟨"GLB_STRAPS", 0x4, [], false, [fld 7 0 .ro 0]⟩,
  ⟨"GLB_RESET", 0x8, [], false, [fldKept 31 16 .ro, fld 3 0 .ro 0]⟩,
  ⟨"GLB_CLOCKS", 0xC, [], false, [fld 24 0 .ro 0]⟩,
  ⟨"GLB_BAR0_REFUSED", 0x10, [], false, [fld 31 0 .ro 0]⟩,
  ⟨"GLB_SERIAL", 0x20, [(4, 0, 4)], false, [fld 31 0 .ro 0]⟩]

/-- Registers of window 1 (spec/03_host_interface.md). -/
def rowsHostPage : List RegRow := [
  ⟨"FN_STATUS", 0x0, [], false, [fld 15 8 .ro 1, fld 5 5 .ro 0, fld 4 4 .ro 1, fld 3 3 .ro 0, fld 2 2 .ro 0, fld 1 1 .ro 0, fld 0 0 .ro 0]⟩,
  ⟨"FN_LOAD", 0x4, [], false, [fld 31 16 .ro 0, fld 15 8 .ro 0, fld 7 0 .ro 0]⟩,
  ⟨"PROT_EPOCH", 0x8, [], false, [fld 31 0 .ro 0]⟩,
  ⟨"FN_CTRL", 0x10, [], false, [fld 2 2 .w1p 0, fld 1 1 .rwl 0, fld 0 0 .rw 0]⟩,
  ⟨"ADM_RING_BASE_LO", 0x20, [], false, [fld 31 0 .rwl 0]⟩,
  ⟨"ADM_RING_BASE_HI", 0x24, [], false, [fld 31 0 .rwl 0]⟩,
  ⟨"ADM_CQ_BASE_LO", 0x28, [], false, [fld 31 0 .rwl 0]⟩,
  ⟨"ADM_CQ_BASE_HI", 0x2C, [], false, [fld 31 0 .rwl 0]⟩,
  ⟨"ADM_REC_LO", 0x30, [], false, [fld 31 0 .rwl 0]⟩,
  ⟨"ADM_REC_HI", 0x34, [], false, [fld 31 0 .rwl 0]⟩,
  ⟨"ADM_SIZES", 0x38, [], false, [fldIn 12 8 .rwl 6 6 16, fldIn 4 0 .rwl 6 6 16]⟩]

/-- Registers of window 2 (spec/02_media_time.md). -/
def rowsTime : List RegRow := [
  ⟨"TB_CTRL", 0x0, [], false, [fldIn 15 8 .rwl 0 0 127, fldIn 5 4 .rwl 0 0 2, fldIn 3 2 .rwl 0 0 2, fld 1 1 .rwl 0, fld 0 0 .rw 0]⟩,
  ⟨"TB_STATUS", 0x4, [], false, [fld 23 16 .ro 0, fld 3 3 .ro 0, fld 2 0 .ro 0]⟩,
  ⟨"TB_OFFSET", 0x8, [], false, [fld 31 0 .ro 0]⟩,
  ⟨"TB_EVENTS", 0xC, [], false, [fld 31 24 .sqc 0, fld 5 5 .sqc 0, fld 4 4 .sqc 0, fld 3 3 .sqc 0, fld 2 2 .sqc 0, fld 1 1 .sqc 0, fld 0 0 .sqc 0]⟩,
  ⟨"TB_SNAP_CMD", 0x10, [], false, [fld 0 0 .w1p 0]⟩,
  ⟨"TB_SNAP0", 0x14, [], false, [fld 31 0 .ro 0]⟩,
  ⟨"TB_SNAP1", 0x18, [], false, [fld 31 0 .ro 0]⟩,
  ⟨"TB_SNAP2", 0x1C, [], false, [fld 31 0 .ro 0]⟩]

/-- Registers of window 3 (spec/19_interrupt_hub.md). -/
def rowsIntc : List RegRow := [
  ⟨"INTC_CTRL", 0x0, [], false, [fld 0 0 .rw 0]⟩,
  ⟨"INTC_EVENTS", 0x4, [], false, [fld 31 24 .sqc 0, fld 1 1 .sqc 0, fld 0 0 .sqc 0]⟩,
  ⟨"INTC_PENDING", 0x100, [(4, 0, 32)], true, [fld 31 0 .rw 0]⟩,
  ⟨"INTC_MASK", 0x200, [(4, 0, 32)], true, [fld 31 0 .rw 0]⟩,
  ⟨"INTC_SRC_CFG", 0x2000, [(4, 0, 1024)], false, [fld 31 31 .ro 0, fldIn 22 16 .rw 0 0 65, fld 12 8 .rw 0, fld 3 0 .rw 8]⟩,
  ⟨"MOD_MAX", 0x4000, [(4, 0, 2048)], false, [fldIn 9 0 .live 0 0 1000]⟩,
  ⟨"INTC_CLAIM", 0x10000, [(1024, 0, 66)], false, [fld 9 0 .wo 0]⟩,
  ⟨"INTC_COMPLETE", 0x10004, [(1024, 0, 66)], false, [fld 16 16 .wo 0, fld 9 0 .wo 0]⟩,
  ⟨"INTC_TOP", 0x10008, [(1024, 0, 66)], false, [fld 28 24 .ro 0, fld 19 16 .ro 0, fld 9 0 .ro 0]⟩,
  ⟨"INTC_CLAIM_RESULT", 0x1000C, [(1024, 0, 66)], false, [fld 1 0 .ro 0]⟩,
  ⟨"INTC_THRESHOLD", 0x10010, [(1024, 0, 66)], false, [fld 3 0 .rw 0]⟩,
  ⟨"INTC_MASK_SET", 0x10014, [(1024, 0, 66)], false, [fld 9 0 .wo 0]⟩,
  ⟨"INTC_MASK_CLR", 0x10018, [(1024, 0, 66)], false, [fld 9 0 .wo 0]⟩,
  ⟨"INTC_PEND_SET", 0x1001C, [(1024, 0, 66)], false, [fld 9 0 .wo 0]⟩,
  ⟨"INTC_PEND_CLR", 0x10020, [(1024, 0, 66)], false, [fld 9 0 .wo 0]⟩,
  ⟨"INTC_MIRROR_LO", 0x10028, [(1024, 0, 66)], false, [fld 31 0 .rw 0]⟩,
  ⟨"INTC_MIRROR_HI", 0x1002C, [(1024, 0, 66)], false, [fld 31 0 .rw 0]⟩,
  ⟨"INTC_VANISHED", 0x10030, [(1024, 0, 66)], false, [fld 31 0 .ro 0]⟩]

/-- Registers of window 4 (spec/20_fault_collection.md). -/
def rowsFault : List RegRow := [
  ⟨"FC_CTRL", 0x0, [], false, [fldIn 10 8 .rw 2 0 4, fldIn 2 0 .rw 2 0 4]⟩,
  ⟨"FC_STATE", 0x4, [], false, [fld 0 0 .ro 0]⟩,
  ⟨"FC_MH_SRC", 0x10, [], false, [fldKept 31 31 .ro, fldKept 30 30 .ro, fldKept 18 16 .ro, fldKept 9 0 .ro]⟩,
  ⟨"FC_MH_DT0", 0x14, [], false, [fldKept 31 0 .ro]⟩,
  ⟨"FC_MH_DT1", 0x18, [], false, [fldKept 31 0 .ro]⟩,
  ⟨"FC_MH_DT2", 0x1C, [], false, [fldKept 31 0 .ro]⟩,
  ⟨"FC_MH_INFO_LO", 0x20, [], false, [fldKept 31 0 .ro]⟩,
  ⟨"FC_MH_INFO_HI", 0x24, [], false, [fldKept 31 0 .ro]⟩,
  ⟨"FC_MH_COUNT", 0x28, [], false, [fldKept 31 0 .ro]⟩,
  ⟨"FC_MH_REARM", 0x2C, [], false, [fld 31 0 .wo 0]⟩,
  ⟨"FC_FORCE", 0x30, [], false, [fld 9 0 .wo 0]⟩,
  ⟨"FC_FORCE_INFO_LO", 0x34, [], false, [fld 31 0 .rw 0]⟩,
  ⟨"FC_FORCE_INFO_HI", 0x38, [], false, [fld 23 0 .rw 0]⟩,
  ⟨"FC_COUNT", 0x40, [(4, 0, 5)], false, [fldKept 31 0 .ro]⟩,
  ⟨"FC_QUEUE_DROPS", 0x60, [], false, [fld 31 0 .ro 0]⟩,
  ⟨"FC_FLASH_DROPS", 0x64, [], false, [fld 31 0 .ro 0]⟩,
  ⟨"FC_STICKY", 0x100, [(4, 0, 27)], false, [fldKept 31 24 .sqc, fldKept 23 0 .sqc]⟩,
  ⟨"FC_MASK", 0x200, [(4, 0, 20)], true, [fld 31 0 .rw 0]⟩,
  ⟨"FC_SRC", 0x2000, [(4, 0, 640)], false, [fld 31 31 .ro 0, fld 2 0 .ro 0]⟩]

/-- Registers of window 5 (spec/18_dma_engine.md). -/
def rowsDma : List RegRow := [
  ⟨"DMA_CTRL", 0x0, [], false, [fld 0 0 .rw 0]⟩,
  ⟨"DMA_EVENTS", 0x4, [], false, [fld 31 24 .sqc 0, fld 3 3 .sqc 0, fld 2 2 .sqc 0, fld 1 1 .sqc 0, fld 0 0 .sqc 0]⟩,
  ⟨"DMA_STATE", 0x8, [], false, [fld 1 0 .ro 0]⟩,
  ⟨"DMA_ERR_INFO", 0xC, [], false, [fld 31 31 .ro 0, fld 30 30 .ro 0, fld 21 16 .ro 0, fld 15 0 .ro 0]⟩,
  ⟨"DMA_ERR_ADDR_LO", 0x10, [], false, [fld 31 0 .ro 0]⟩,
  ⟨"DMA_ERR_ADDR_HI", 0x14, [], false, [fld 31 0 .ro 0]⟩,
  ⟨"DMA_STOPS", 0x18, [], false, [fld 31 0 .ro 0]⟩,
  ⟨"DMA_TIMER", 0x100, [(4, 0, 16)], false, [fld 31 0 .rw 0]⟩,
  ⟨"DMA_CH_PRIO", 0x800, [(4, 0, 64)], false, [fld 2 0 .live 0]⟩,
  ⟨"DMA_CH_CFG", 0x1000, [(32, 0, 64)], false, [fld 31 31 .rw 0, fld 30 30 .rw 0, fld 28 24 .rw 0, fldIn 19 16 .rw 12 6 12, fldIn 12 8 .rw 6 6 16, fldIn 4 0 .rw 6 6 16]⟩,
  ⟨"DMA_CH_POLL", 0x1004, [(32, 0, 64)], false, [fldIn 9 0 .rw 10 1 1000]⟩,
  ⟨"DMA_CH_RING_LO", 0x1008, [(32, 0, 64)], false, [fld 31 0 .rw 0]⟩,
  ⟨"DMA_CH_RING_HI", 0x100C, [(32, 0, 64)], false, [fld 31 0 .rw 0]⟩,
  ⟨"DMA_CH_REC_LO", 0x1010, [(32, 0, 64)], false, [fld 31 0 .rw 0]⟩,
  ⟨"DMA_CH_REC_HI", 0x1014, [(32, 0, 64)], false, [fld 31 0 .rw 0]⟩,
  ⟨"DMA_CH_CQ_LO", 0x1018, [(32, 0, 64)], false, [fld 31 0 .rw 0]⟩,
  ⟨"DMA_CH_CQ_HI", 0x101C, [(32, 0, 64)], false, [fld 31 0 .rw 0]⟩,
  ⟨"DMA_CH_STATUS", 0x2000, [(4, 0, 64)], false, [fld 31 16 .ro 0, fld 2 0 .ro 0]⟩,
  ⟨"DMA_SWREQ_LO", 0x3000, [], false, [fld 31 0 .w1p 0]⟩,
  ⟨"DMA_SWREQ_HI", 0x3004, [], false, [fld 31 0 .w1p 0]⟩]

/-- Registers of window 6 (spec/17_bunting_pools.md). -/
def rowsBunting : List RegRow := [
  ⟨"BUN_CTRL", 0x0, [], false, [fld 0 0 .rw 0]⟩,
  ⟨"BUN_STATUS", 0x4, [], false, [fld 3 3 .ro 0, fld 2 0 .ro 0]⟩,
  ⟨"BUN_EVENTS", 0x8, [], false, [fld 31 24 .sqc 0, fld 4 4 .sqc 0, fld 3 3 .sqc 0, fld 2 2 .sqc 0, fld 1 1 .sqc 0, fld 0 0 .sqc 0]⟩,
  ⟨"BUN_POOL_BASE", 0x100, [(16, 0, 6)], false, [fld 25 0 .rwl 0]⟩,
  ⟨"BUN_POOL_COUNT", 0x104, [(16, 0, 6)], false, [fld 28 0 .rwl 0]⟩,
  ⟨"BUN_POOL_FREE", 0x108, [(16, 0, 6)], false, [fld 28 0 .ro 0]⟩,
  ⟨"BUN_POOL_STATUS", 0x10C, [(16, 0, 6)], false, [fld 31 16 .ro 0, fld 15 0 .ro 100]⟩,
  ⟨"BUN_COUNT", 0x200, [(4, 0, 5)], false, [fld 31 0 .ro 0]⟩]

/-- Registers of window 7 (spec/22_performance_monitors.md). -/
def rowsPm1 : List RegRow := [
  ⟨"PM_CTRL", 0x0, [], false, [fld 0 0 .rw 0]⟩,
  ⟨"PM_BW_CTRL", 0x4, [], false, [fldIn 19 0 .rwl 1000 10 1000000]⟩,
  ⟨"PM_USER_EN_LO", 0x10, [], true, [fld 31 0 .rw 0]⟩,
  ⟨"PM_USER_EN_HI", 0x14, [], true, [fld 7 0 .rw 0]⟩,
  ⟨"PM_USER_FN_LO", 0x18, [], true, [fld 31 0 .rw 0]⟩,
  ⟨"PM_USER_FN_HI", 0x1C, [], true, [fld 31 0 .rw 0]⟩,
  ⟨"PM_CYCLE_LO", 0x1000, [(256, 0, 40)], false, [fld 31 0 .ro 0]⟩,
  ⟨"PM_CYCLE_HI", 0x1004, [(256, 0, 40)], false, [fld 31 0 .ro 0]⟩,
  ⟨"PM_FILT_CTRL", 0x1008, [(256, 0, 40)], false, [fld 19 16 .live 15, fld 11 9 .live 0, fld 8 6 .live 0, fld 3 3 .live 0, fld 2 2 .live 0, fld 1 1 .live 0, fld 0 0 .live 0]⟩,
  ⟨"PM_FILT_REQ", 0x100C, [(256, 0, 40)], false, [fld 31 16 .live 0, fld 15 0 .live 0]⟩,
  ⟨"PM_FILT_ADDR_LO", 0x1010, [(256, 0, 40)], false, [fld 25 0 .live 0]⟩,
  ⟨"PM_FILT_ADDR_HI", 0x1014, [(256, 0, 40)], false, [fld 25 0 .live 0]⟩,
  ⟨"PM_OVF", 0x1018, [(256, 0, 40)], false, [fld 31 24 .sqc 0, fld 7 0 .sqc 0]⟩,
  ⟨"PM_CLEAR", 0x101C, [(256, 0, 40)], false, [fld 7 0 .w1p 0]⟩,
  ⟨"PM_EVT", 0x1020, [(256, 0, 40), (4, 0, 8)], false, [fld 31 31 .live 0, fld 30 30 .live 0, fld 29 29 .live 0, fld 7 0 .live 0]⟩,
  ⟨"PM_CNT_LO", 0x1040, [(256, 0, 40), (8, 0, 8)], false, [fld 31 0 .ro 0]⟩,
  ⟨"PM_CNT_HI", 0x1044, [(256, 0, 40), (8, 0, 8)], false, [fld 15 0 .ro 0]⟩,
  ⟨"PM_BW_SEQ", 0x4000, [], false, [fld 31 31 .ro 0, fld 30 0 .ro 0]⟩,
  ⟨"PM_BW_DT0", 0x4004, [], false, [fld 31 0 .ro 0]⟩,
  ⟨"PM_BW_DT1", 0x4008, [], false, [fld 31 0 .ro 0]⟩,
  ⟨"PM_BW_DT2", 0x400C, [], false, [fld 31 0 .ro 0]⟩,
  ⟨"PM_BW_PORT_RX_LO", 0x5000, [(16, 0, 128)], false, [fld 31 0 .ro 0]⟩,
  ⟨"PM_BW_PORT_RX_HI", 0x5004, [(16, 0, 128)], false, [fld 31 0 .ro 0]⟩,
  ⟨"PM_BW_PORT_TX_LO", 0x5008, [(16, 0, 128)], false, [fld 31 0 .ro 0]⟩]

/-- Registers of window 7 (spec/22_performance_monitors.md). -/
def rowsPm2 : List RegRow := [
  ⟨"PM_BW_PORT_TX_HI", 0x500C, [(16, 0, 128)], false, [fld 31 0 .ro 0]⟩,
  ⟨"PM_BW_PCIE_RX_LO", 0x5800, [], false, [fld 31 0 .ro 0]⟩,
  ⟨"PM_BW_PCIE_RX_HI", 0x5804, [], false, [fld 31 0 .ro 0]⟩,
  ⟨"PM_BW_PCIE_TX_LO", 0x5808, [], false, [fld 31 0 .ro 0]⟩,
  ⟨"PM_BW_PCIE_TX_HI", 0x580C, [], false, [fld 31 0 .ro 0]⟩,
  ⟨"PM_BW_MEM_RD_LO", 0x5900, [(16, 1, 19)], false, [fld 31 0 .ro 0]⟩,
  ⟨"PM_BW_MEM_RD_HI", 0x5904, [(16, 1, 19)], false, [fld 31 0 .ro 0]⟩,
  ⟨"PM_BW_MEM_WR_LO", 0x5908, [(16, 1, 19)], false, [fld 31 0 .ro 0]⟩,
  ⟨"PM_BW_MEM_WR_HI", 0x590C, [(16, 1, 19)], false, [fld 31 0 .ro 0]⟩]

/-- Registers of window 7 (spec/22_performance_monitors.md). -/
def rowsPm : List RegRow := rowsPm1 ++ rowsPm2

/-- Registers of window 9 (spec/13_parser_classifier.md). -/
def rowsParser : List RegRow := [
  ⟨"PAR_CTRL", 0x0, [], false, [fld 0 0 .rw 0]⟩,
  ⟨"PAR_GENS", 0x4, [], false, [fld 31 16 .ro 0, fld 15 0 .ro 1]⟩,
  ⟨"PAR_STATE", 0x8, [], false, [fld 2 2 .ro 0, fld 1 1 .ro 1, fld 0 0 .ro 0]⟩,
  ⟨"PAR_EVENTS", 0xC, [], false, [fld 31 24 .sqc 0, fld 4 4 .sqc 0, fld 3 3 .sqc 0, fld 2 2 .sqc 0, fld 1 1 .sqc 0, fld 0 0 .sqc 0]⟩,
  ⟨"MGMT_POLICE", 0x10, [], false, [fld 31 16 .live 1000, fld 15 0 .live 256]⟩,
  ⟨"MGMT_WM", 0x14, [], false, [fldIn 31 16 .rwl 1024 0 4096, fld 15 0 .rwl 512]⟩,
  ⟨"PAR_COUNT", 0x100, [(4, 0, 6)], false, [fld 31 0 .ro 0]⟩,
  ⟨"PORT_DEFAULT", 0x800, [(16, 0, 128), (4, 0, 4)], false, [fld 31 0 .live 0]⟩,
  ⟨"PORT_REASON", 0x2000, [(16, 0, 128), (4, 0, 4)], false, [fld 31 0 .ro 0]⟩,
  ⟨"POLICER", 0x4000, [(4, 1, 255)], false, [fld 31 16 .live 0, fld 15 0 .live 0]⟩,
  ⟨"POLICE_DROPS", 0x4400, [(4, 1, 255)], false, [fld 31 0 .ro 0]⟩]

/-- Registers of window 10 (spec/14_queues_scheduling.md). -/
def rowsQueues : List RegRow := [
  ⟨"QM_CTRL", 0x0, [], false, [fld 0 0 .rw 0]⟩,
  ⟨"QM_POOL", 0x4, [], false, [fld 31 16 .live 256, fld 15 0 .live 512]⟩,
  ⟨"QM_FREE", 0x8, [], false, [fld 17 0 .ro 196608]⟩,
  ⟨"QM_EVENTS", 0xC, [], false, [fld 31 24 .sqc 0, fld 4 4 .sqc 0, fld 3 3 .sqc 0, fld 2 2 .sqc 0, fld 1 1 .sqc 0, fld 0 0 .sqc 0]⟩,
  ⟨"QM_QSEL", 0x10, [], false, [fld 13 0 .rw 0]⟩,
  ⟨"QM_QFILL", 0x14, [], false, [fld 31 31 .ro 0, fld 30 30 .ro 0, fld 17 0 .ro 0]⟩,
  ⟨"QM_COUNT", 0x100, [(4, 0, 7)], false, [fld 31 0 .ro 0]⟩,
  ⟨"FSTOP_CFG", 0x200, [(4, 0, 8)], false, [fld 31 31 .rw 0, fldIn 30 29 .rw 0 0 2, fld 13 0 .rw 0]⟩,
  ⟨"ING_WM", 0x400, [(4, 0, 128)], false, [fld 31 16 .live 64, fld 15 0 .live 32]⟩,
  ⟨"QUEUE_CFG", 0x10000, [(4, 0, 12288)], false, [fld 31 31 .rw 0, fld 30 24 .rw 0, fldIn 23 21 .rw 4 0 4, fld 20 18 .rw 0, fld 17 12 .rw 0]⟩,
  ⟨"QUEUE_WM", 0x20000, [(4, 0, 16384)], false, [fld 31 20 .live 256, fld 19 8 .live 128, fld 7 0 .live 0]⟩,
  ⟨"QUEUE_LIMIT", 0x30000, [(4, 0, 16384)], false, [fld 31 18 .rw 0, fld 17 17 .rw 0, fld 13 0 .rw 1024]⟩]

/-- Registers of window 11 (spec/14_queues_scheduling.md). -/
def rowsHoist : List RegRow := [
  ⟨"HOIST_CTRL", 0x0, [], false, [fldIn 25 16 .rwl 1000 0 1000, fld 0 0 .rw 0]⟩,
  ⟨"HOIST_EVENTS", 0x4, [], false, [fld 31 24 .sqc 0, fld 1 1 .sqc 0, fld 0 0 .sqc 0]⟩,
  ⟨"HOIST_LATE", 0x8, [], false, [fld 31 0 .ro 0]⟩,
  ⟨"HOIST_PORT", 0x100, [(4, 0, 128)], false, [fld 4 4 .live 1, fld 3 0 .live 15]⟩,
  ⟨"HOIST_WEIGHT", 0x10000, [(4, 0, 12288)], false, [fldIn 11 0 .live 1 1 4095]⟩]

/-- Registers of window 12 (spec/14_queues_scheduling.md). -/
def rowsGates : List RegRow := [
  ⟨"GATE_CTRL", 0x0, [], false, [fld 0 0 .rw 0]⟩,
  ⟨"GATE_EVENTS", 0x4, [], false, [fld 31 24 .sqc 0, fld 1 1 .sqc 0, fld 0 0 .sqc 0]⟩,
  ⟨"GATE_LAST", 0x8, [], false, [fld 6 0 .ro 0]⟩,
  ⟨"GATE_OVERRUNS", 0xC, [], false, [fld 31 0 .ro 0]⟩,
  ⟨"GATE_BASE0", 0x1000, [(32, 0, 128)], false, [fldIn 31 0 .live 0 0 999999999]⟩,
  ⟨"GATE_BASE1", 0x1004, [(32, 0, 128)], false, [fld 31 0 .live 0]⟩,
  ⟨"GATE_BASE2", 0x1008, [(32, 0, 128)], false, [fld 15 0 .live 0]⟩,
  ⟨"GATE_CYCLE", 0x100C, [(32, 0, 128)], false, [fld 29 0 .live 1000000]⟩,
  ⟨"GATE_LEN", 0x1010, [(32, 0, 128)], false, [fldIn 8 0 .live 0 0 256]⟩,
  ⟨"GATE_STATUS", 0x2000, [(4, 0, 128)], false, [fld 31 31 .ro 0, fld 30 30 .ro 0, fld 8 0 .ro 0]⟩,
  ⟨"GATE_ENTRY", 0x10000, [(1024, 0, 128), (4, 0, 256)], false, [fld 31 24 .live 255, fldIn 23 0 .live 1 1 16777215]⟩]

/-- Registers of window 13 (spec/13_parser_classifier.md). -/
def rowsRxPipes : List RegRow := [
  ⟨"INGEST_CFG0", 0x1000, [(8, 0, 1024)], false, [fld 31 31 .rw 0, fldIn 30 29 .rw 0 0 2, fld 28 28 .rw 0, fldIn 27 20 .rw 10 1 150, fldIn 19 18 .rw 0 0 2, fld 17 17 .rw 0, fld 16 16 .rw 0, fldIn 15 13 .rw 0 0 5, fld 12 0 .rw 0]⟩,
  ⟨"INGEST_CFG1", 0x1004, [(8, 0, 1024)], false, [fld 30 22 .rw 0, fld 21 13 .rw 0, fld 12 12 .rw 0, fld 8 0 .rw 0]⟩,
  ⟨"INGEST_DROPPED", 0x3000, [], false, [fld 31 0 .ro 0]⟩]

/-- Registers of window 14 (spec/14_queues_scheduling.md). -/
def rowsTxPipes : List RegRow := [
  ⟨"TXP_CTRL", 0x0, [], false, [fld 0 0 .rw 0]⟩]

/-- Registers of window 15 (spec/11_packaging_delivery.md). -/
def rowsCrypto : List RegRow := [
  ⟨"CRY_CTRL", 0x0, [], false, [fld 0 0 .rw 0]⟩,
  ⟨"CRY_EVENTS", 0x4, [], false, [fld 31 24 .sqc 0, fld 0 0 .sqc 0]⟩,
  ⟨"FLOW_CACHE_HITS", 0x8, [], false, [fld 31 0 .ro 0]⟩,
  ⟨"FLOW_CACHE_MISSES", 0xC, [], false, [fld 31 0 .ro 0]⟩,
  ⟨"FLOWS_OPEN", 0x10, [], false, [fld 31 0 .ro 0]⟩]

/-- Registers of window 16 to 23 (spec/11_packaging_delivery.md). -/
def rowsSegmenter : List RegRow := [
  ⟨"SEG_CTRL", 0x0, [], false, [fld 0 0 .rw 0]⟩,
  ⟨"SEG_PARAMS", 0x4, [], false, [fldIn 15 8 .live 100 20 255, fldIn 7 0 .live 40 10 100]⟩,
  ⟨"SEG_EVENTS", 0x8, [], false, [fld 31 24 .sqc 0, fld 4 4 .sqc 0, fld 3 3 .sqc 0, fld 2 2 .sqc 0, fld 1 1 .sqc 0, fld 0 0 .sqc 0]⟩,
  ⟨"SEG_SEALED", 0xC, [], false, [fld 31 0 .ro 0]⟩,
  ⟨"SEG_DISCARDED", 0x10, [], false, [fld 31 0 .ro 0]⟩]

/-- Registers of window 24 to 27 (spec/12_ethernet_ports.md). -/
def rowsCluster : List RegRow := [
  ⟨"CL_STATUS", 0x0, [], false, [fld 1 1 .ro 0, fld 0 0 .ro 0]⟩]

/-- Registers of window 28 to 35 (spec/12_ethernet_ports.md). -/
def rowsLaneGroup : List RegRow := [
  ⟨"LG_CTRL", 0x0, [], false, [fldIn 9 8 .rwl 2 0 2, fldIn 5 4 .rwl 1 0 2, fld 3 3 .rwl 1, fld 2 2 .rwl 1, fld 0 0 .rw 0]⟩,
  ⟨"LG_PORT_EN", 0x8, [], true, [fld 15 0 .rw 0]⟩,
  ⟨"LG_EVENTS", 0x10, [], false, [fld 31 24 .sqc 0, fld 18 18 .sqc 0, fld 17 17 .sqc 0, fld 16 16 .sqc 0, fld 15 0 .sqc 0]⟩,
  ⟨"PAUSE_CFG", 0x14, [], false, [fld 31 16 .rwl 65535, fldIn 15 0 .rwl 32767 1 65535]⟩,
  ⟨"LG_CNT_SNAP", 0x20, [], false, [fld 0 0 .w1p 0]⟩,
  ⟨"PORT_CTRL", 0x100, [(4, 0, 16)], false, [fldIn 31 18 .rwl 1522 64 9216, fld 15 8 .rwl 255, fldIn 3 2 .rwl 0 0 2, fld 1 1 .rwl 0]⟩,
  ⟨"LANE_CFG", 0x200, [(4, 0, 16)], false, [fld 23 18 .rwl 0, fld 17 12 .rwl 48, fld 11 6 .rwl 0, fld 1 1 .rwl 0, fld 0 0 .rwl 0]⟩,
  ⟨"PORT_STATUS", 0x300, [(4, 0, 16)], false, [fld 15 8 .ro 0, fld 7 7 .ro 0, fld 6 6 .ro 0, fld 5 4 .ro 0, fld 3 3 .ro 0, fld 2 2 .ro 0, fld 1 1 .ro 0, fld 0 0 .ro 0]⟩,
  ⟨"TS_TX_DELAY", 0x400, [(8, 0, 16)], false, [fld 31 0 .rwl 0]⟩,
  ⟨"TS_RX_DELAY", 0x404, [(8, 0, 16)], false, [fld 31 0 .rwl 0]⟩,
  ⟨"COUNTER_LO", 0x1000, [(128, 0, 16), (8, 0, 14)], false, [fld 31 0 .ro 0]⟩,
  ⟨"COUNTER_HI", 0x1004, [(128, 0, 16), (8, 0, 14)], false, [fld 31 0 .ro 0]⟩]

/-- Registers of window 36 to 39 (spec/05_coding_contexts.md). -/
def rowsTile1 : List RegRow := [
  ⟨"TILE_CTRL", 0x0, [], false, [fldIn 15 8 .rwl 0 0 100, fld 0 0 .rw 0]⟩,
  ⟨"TILE_SCHED", 0x4, [], false, [fld 31 16 .live 200]⟩,
  ⟨"TILE_CAPACITY", 0x8, [], false, [fld 31 16 .ro 6000, fld 15 0 .ro 24000]⟩,
  ⟨"TILE_ADMITTED_LIVE", 0xC, [], false, [fld 31 0 .ro 0]⟩,
  ⟨"TILE_ADMITTED_OD", 0x10, [], false, [fld 31 0 .ro 0]⟩,
  ⟨"TILE_ADMITTED_ANE", 0x14, [], false, [fld 31 0 .ro 0]⟩,
  ⟨"TILE_EVENTS", 0x18, [], false, [fld 31 24 .sqc 0, fld 2 2 .sqc 0, fld 1 1 .sqc 0, fld 0 0 .sqc 0]⟩,
  ⟨"ANA_CTRL", 0x100, [], false, [fldIn 31 24 .rwl 2 1 255, fld 23 16 .rwl 8, fldIn 15 8 .rwl 192 1 255, fld 0 0 .rwl 1]⟩,
  ⟨"ANA_EVENTS", 0x104, [], false, [fld 31 24 .sqc 0, fld 0 0 .sqc 0]⟩,
  ⟨"ANA_CUT_KEYS", 0x108, [], false, [fld 31 0 .ro 0]⟩,
  ⟨"TONE_CURVE", 0x200, [(4, 1, 15)], false, [fld 25 0 .rw 0]⟩,
  ⟨"TONE_SEL", 0x10000, [(4, 0, 4096)], false, [fld 3 0 .rw 0]⟩,
  ⟨"PXE_CTRL", 0x300, [], false, [fld 0 0 .rwl 1]⟩,
  ⟨"PXE_BUSY", 0x304, [], false, [fld 15 0 .ro 0]⟩,
  ⟨"PXE_EVENTS", 0x308, [], false, [fld 31 24 .sqc 0, fld 1 1 .sqc 0, fld 0 0 .sqc 0]⟩,
  ⟨"WS_REF_HITS", 0x30C, [], false, [fld 31 0 .ro 0]⟩,
  ⟨"WS_REF_MISSES", 0x310, [], false, [fld 31 0 .ro 0]⟩,
  ⟨"SXE_CTRL", 0x400, [], false, [fldIn 12 8 .rwl 20 16 24]⟩,
  ⟨"SXE_BUSY", 0x404, [], false, [fld 15 0 .ro 0]⟩,
  ⟨"SXE_EVENTS", 0x408, [], false, [fld 31 24 .sqc 0, fld 4 4 .sqc 0, fld 3 3 .sqc 0, fld 2 2 .sqc 0, fld 1 1 .sqc 0, fld 0 0 .sqc 0]⟩,
  ⟨"SXE_PATCH", 0x40C, [], false, [fld 31 0 .ro 0]⟩,
  ⟨"SXE_RESTARTS", 0x410, [], false, [fld 31 16 .ro 0, fld 15 0 .ro 0]⟩,
  ⟨"CB_FILL", 0x440, [(4, 0, 16)], false, [fld 31 20 .ro 0, fld 19 8 .ro 0, fld 2 0 .ro 0]⟩,
  ⟨"RC_GAIN", 0x500, [], false, [fld 31 27 .live 8, fldIn 26 24 .live 4 1 7, fld 23 19 .live 8, fldIn 18 16 .live 4 1 7, fld 15 11 .live 8, fldIn 10 8 .live 4 1 7, fld 7 3 .live 8, fldIn 2 0 .live 4 1 7]⟩]

/-- Registers of window 36 to 39 (spec/05_coding_contexts.md). -/
def rowsTile2 : List RegRow := [
  ⟨"RC_EVENTS", 0x504, [], false, [fld 31 24 .sqc 0, fld 2 2 .sqc 0, fld 1 1 .sqc 0, fld 0 0 .sqc 0]⟩,
  ⟨"RC_OVERSHOOTS", 0x508, [], false, [fld 31 0 .ro 0]⟩,
  ⟨"RC_STAGE2", 0x50C, [], false, [fld 31 0 .ro 0]⟩,
  ⟨"DEC_CTRL", 0x600, [], false, [fldIn 25 16 .rwl 128 16 1023, fldIn 15 8 .rwl 100 10 255, fld 0 0 .rwl 1]⟩,
  ⟨"DEC_EVENTS", 0x604, [], false, [fld 31 24 .sqc 0, fld 6 6 .sqc 0, fld 5 5 .sqc 0, fld 4 4 .sqc 0, fld 3 3 .sqc 0, fld 2 2 .sqc 0, fld 1 1 .sqc 0, fld 0 0 .sqc 0]⟩,
  ⟨"DEC_LAST_ERROR", 0x608, [], false, [fld 27 16 .ro 0, fld 7 0 .ro 0]⟩,
  ⟨"DEC_CONCEALED", 0x60C, [], false, [fld 31 0 .ro 0]⟩,
  ⟨"DEC_DROPPED", 0x610, [], false, [fld 31 0 .ro 0]⟩,
  ⟨"DEC_BOUND_HITS", 0x614, [], false, [fld 31 0 .ro 0]⟩]

/-- Registers of window 36 to 39 (spec/05_coding_contexts.md). -/
def rowsTile : List RegRow := rowsTile1 ++ rowsTile2

/-- Registers of window 40 to 47 (spec/15_memory_stacks.md). -/
def rowsMemCtl : List RegRow := [
  ⟨"MC_CTRL", 0x0, [], false, [fld 31 16 .rwl 0, fld 15 8 .rwl 4, fld 0 0 .rw 0]⟩,
  ⟨"MC_SCHED", 0x4, [], false, [fldIn 31 16 .rwl 2000 1 65535]⟩,
  ⟨"MC_REFRESH", 0x8, [], false, [fldIn 31 16 .live 3900 1000 3900, fldIn 15 12 .live 8 0 8]⟩,
  ⟨"MC_PANIC", 0xC, [], false, [fldIn 31 16 .live 100 1 65535]⟩,
  ⟨"MC_STATE", 0x10, [], false, [fld 31 30 .ro 0, fld 29 29 .ro 0, fld 28 28 .ro 0, fld 18 16 .ro 0, fld 7 0 .ro 0]⟩,
  ⟨"MC_EVENTS", 0x14, [], false, [fld 31 24 .sqc 0, fld 5 5 .sqc 0, fld 4 4 .sqc 0, fld 3 3 .sqc 0, fld 2 2 .sqc 0, fld 1 1 .sqc 0, fld 0 0 .sqc 0]⟩,
  ⟨"MC_FREQ_POINT", 0x18, [], false, [fldIn 1 0 .rw 0 0 2]⟩,
  ⟨"MC_FREQ_DT0", 0x1C, [], false, [fld 31 0 .rw 0]⟩,
  ⟨"MC_FREQ_DT1", 0x20, [], false, [fld 31 0 .rw 0]⟩,
  ⟨"MC_FREQ_DT2", 0x24, [], false, [fld 15 0 .rw 0]⟩,
  ⟨"MC_FREQ_CMD", 0x28, [], false, [fld 0 0 .w1p 0, fld 1 1 .w1p 0]⟩,
  ⟨"MC_TIMING_SHADOW", 0x100, [(4, 0, 6)], false, [fld 31 16 .ro 0, fld 15 0 .ro 0]⟩,
  ⟨"MC_TIMING_ACTIVE", 0x140, [(4, 0, 6)], false, [fld 31 16 .ro 0, fld 15 0 .ro 0]⟩,
  ⟨"RT_THRESH", 0x200, [(4, 0, 8)], false, [fld 13 8 .live 48, fld 5 0 .live 32]⟩,
  ⟨"MC_SCRUB", 0x30, [], false, [fld 7 0 .live 24]⟩,
  ⟨"MC_SCRUB_POS", 0x34, [], false, [fld 22 21 .ro 0, fld 20 0 .ro 0]⟩,
  ⟨"MC_SCRUB_PASSES", 0x38, [], false, [fld 31 0 .ro 0]⟩]

/-- Registers of window 48 (spec/15_memory_stacks.md). -/
def rowsProtection : List RegRow := [
  ⟨"MAP_CTRL", 0x0, [], false, [fldIn 3 1 .rwl 2 0 4, fld 0 0 .rw 0]⟩,
  ⟨"MAP_STATUS", 0x4, [], false, [fld 3 2 .ro 0, fld 1 1 .ro 0, fld 0 0 .ro 0]⟩,
  ⟨"MAP_TILE", 0x10, [(4, 0, 4)], false, [fld 19 16 .ro 0, fld 15 0 .ro 192]⟩,
  ⟨"MEM_SECTION", 0x100, [(4, 0, 192)], false, [fld 2 0 .rwl 0]⟩,
  ⟨"RANK_MAP", 0x400, [(4, 0, 32)], false, [fld 5 5 .ro 0, fld 4 0 .ro 0]⟩,
  ⟨"RT_PORT_SEL", 0x500, [(4, 0, 8)], false, [fld 3 0 .rwl 0]⟩,
  ⟨"MEM_CODE", 0x1000, [], false, [fldIn 2 0 .rwl 4 0 4]⟩,
  ⟨"MEM_EVENTS", 0x1004, [], false, [fld 31 24 .sqc 0, fld 8 8 .sqc 0, fld 7 7 .sqc 0, fld 6 6 .sqc 0, fld 5 5 .sqc 0, fld 4 4 .sqc 0, fld 3 3 .sqc 0, fld 2 2 .sqc 0, fld 1 1 .sqc 0, fld 0 0 .sqc 0]⟩,
  ⟨"MEM_SPARES", 0x1008, [], false, [fld 11 8 .ro 0, fld 7 4 .ro 0, fld 2 0 .ro 0]⟩,
  ⟨"MEM_MIG", 0x1010, [], false, [fld 31 31 .ro 0, fld 30 26 .ro 0, fld 25 21 .ro 0, fld 20 0 .ro 0]⟩,
  ⟨"MEM_MIG_CTRL", 0x1014, [], false, [fldIn 7 0 .rw 16 1 64]⟩,
  ⟨"MEM_COUNT", 0x1020, [(4, 0, 5)], false, [fld 31 0 .ro 0]⟩,
  ⟨"MEM_LOG_COUNT", 0x1040, [], false, [fld 31 0 .ro 0]⟩,
  ⟨"RANK_STATE", 0x1100, [(4, 0, 32)], false, [fld 31 16 .ro 0, fld 9 8 .ro 0, fld 2 0 .ro 0]⟩,
  ⟨"RETIRED_PAGES", 0x1180, [(4, 0, 32)], false, [fld 14 0 .ro 0]⟩,
  ⟨"DRT_ENTRY", 0x1200, [(4, 0, 32)], false, [fld 31 31 .ro 0, fld 25 21 .ro 0, fld 20 0 .ro 0]⟩,
  ⟨"MEM_LOG", 0x2000, [(32, 0, 64), (4, 0, 8)], false, [fld 31 0 .ro 0]⟩]

/-- Registers of window 49 (spec/21_management_security.md). -/
def rowsMgmt : List RegRow := [
  ⟨"MGMT_BOOT", 0x0, [], false, [fld 22 16 .ro 0, fld 15 8 .ro 0, fld 4 4 .ro 0, fld 3 3 .ro 0, fld 2 0 .ro 0]⟩,
  ⟨"MGMT_FW_VERSION", 0x4, [], false, [fld 31 0 .ro 0]⟩,
  ⟨"MGMT_EVENTS", 0x8, [], false, [fld 31 24 .sqc 0, fld 4 4 .sqc 0, fld 3 3 .sqc 0, fld 2 2 .sqc 0, fld 1 1 .sqc 0, fld 0 0 .sqc 0]⟩,
  ⟨"SO_STATUS", 0xC, [], false, [fld 1 0 .ro 0]⟩,
  ⟨"SO_CHANNELS", 0x10, [], false, [fld 31 0 .ro 0]⟩,
  ⟨"WDOG_REMAINING", 0x14, [], false, [fld 31 0 .ro 0]⟩,
  ⟨"TEMP", 0x100, [(4, 0, 24)], false, [fld 31 31 .ro 0, fld 15 0 .ro 0]⟩,
  ⟨"VOLT", 0x200, [(4, 0, 16)], false, [fld 31 31 .ro 0, fld 15 0 .ro 0]⟩,
  ⟨"RAIL", 0x300, [(4, 0, 7)], false, [fld 31 31 .ro 0, fld 30 16 .ro 0, fld 15 0 .ro 0]⟩,
  ⟨"POWER_TOTAL", 0x400, [], false, [fld 15 0 .ro 0]⟩]

/-- The rows of window `w` (R105); `w` of 64 and up stands for the control pages of the virtual functions, which
have the PF page's registers (R51, R58). -/
def rowsOf (w : Nat) : List RegRow :=
  if w = 0 then rowsGlobal
  else if w = 1 then rowsHostPage
  else if w = 2 then rowsTime
  else if w = 3 then rowsIntc
  else if w = 4 then rowsFault
  else if w = 5 then rowsDma
  else if w = 6 then rowsBunting
  else if w = 7 then rowsPm
  else if w = 9 then rowsParser
  else if w = 10 then rowsQueues
  else if w = 11 then rowsHoist
  else if w = 12 then rowsGates
  else if w = 13 then rowsRxPipes
  else if w = 14 then rowsTxPipes
  else if w = 15 then rowsCrypto
  else if 16 ≤ w ∧ w < 24 then rowsSegmenter
  else if 24 ≤ w ∧ w < 28 then rowsCluster
  else if 28 ≤ w ∧ w < 36 then rowsLaneGroup
  else if 36 ≤ w ∧ w < 40 then rowsTile
  else if 40 ≤ w ∧ w < 48 then rowsMemCtl
  else if w = 48 then rowsProtection
  else if w = 49 then rowsMgmt
  else if 64 ≤ w then rowsHostPage
  else []

end Sys2Proof.Machine
end

