-- ==== Sys2Proof/Machine/RegReset.lean ====
section
/-! DEFINITION. Finding a register's row by its BAR0 address and the value it holds after reset (R88, R103, R105). -/

namespace Sys2Proof.Machine

/-- The window of a held register address; 64 stands for the control pages of the virtual functions. -/
def regWin (a : Nat) : Nat := a / 0x100000

/-- The offset of a held register address in its window or control page. -/
def regOff (a : Nat) : Nat := if a < 0x4000000 then a % 0x100000 else a % 0x1000

/-- The indexes that place `rem` in a row's repetition. -/
def dimIdx : List (Nat × Nat × Nat) → Nat → Option (List Nat)
  | [], rem => if rem = 0 then some [] else none
  | (st, f, n) :: r, rem =>
    if f ≤ rem / st ∧ rem / st < f + n then (dimIdx r (rem % st)).map (rem / st :: ·) else none

/-- Whether offset `off` lies in the row, and at which indexes. -/
def rowIdx (row : RegRow) (off : Nat) : Option (List Nat) :=
  if row.base ≤ off then dimIdx row.dims (off - row.base) else none

/-- The first row of a list that holds an offset. -/
def rowFind : List RegRow → Nat → Option (RegRow × List Nat)
  | [], _ => none
  | row :: r, off => match rowIdx row off with
    | some ix => some (row, ix)
    | none => rowFind r off

/-- The register at a held address (R88: none where no register is defined). -/
def regRow (a : Nat) : Option (RegRow × List Nat) :=
  if 0x7F000 ≤ regOff a then (if regWin a < 52 then rowFind rowsCommon (regOff a) else none)
  else rowFind (rowsOf (regWin a)) (regOff a)

/-- The severity of a fault source, none for a reserved one (R460). -/
def fcSeverity (s : Nat) : Option Nat :=
  if s < 24 then some 4
  else if s = 24 then some 2
  else if s = 25 then some 4
  else if s = 26 then some 2
  else if s = 27 then some 4
  else if s = 28 ∨ s = 29 then some 2
  else if s = 30 then some 4
  else if s = 31 then some 2
  else if s < 44 then some 3
  else if s = 44 then some 1
  else if s = 45 then some 3
  else if s = 48 then some 2
  else if s = 49 then some 3
  else if s = 50 ∨ s = 51 then some 0
  else if s = 52 then some 1
  else if s = 53 then some 3
  else if s = 64 then some 0
  else if s = 65 then some 2
  else if s = 66 then some 0
  else if 72 ≤ s ∧ s < 200 then
    let k := (s - 72) % 32
    if k = 0 ∨ k = 2 ∨ k = 3 ∨ k = 5 ∨ k = 6 ∨ k = 8 then some 3
    else if k = 1 ∨ k = 4 then some 1
    else if k = 7 then some 0 else none
  else if 200 ≤ s ∧ s < 328 then
    let k := (s - 200) % 16
    if k = 0 then some 1
    else if k = 1 ∨ k = 2 then some 0
    else if k = 3 then some 3
    else if 4 ≤ k ∧ k ≤ 7 then some 2
    else if k = 8 then some 4 else none
  else if 328 ≤ s ∧ s < 334 then some (if s % 2 = 0 then 1 else 3)
  else if s = 334 then some 3
  else if s = 360 ∨ s = 361 then some 0
  else if s = 362 ∨ s = 363 then some 3
  else if s = 364 then some 0
  else if s = 512 then some 2
  else if s = 513 then some 3
  else if s = 514 then some 0
  else if s = 515 then some 2
  else none

/-- Condition sources (R460). -/
def fcCondition (s : Nat) : Bool :=
  s = 24 ∨ s = 26 ∨ s = 28 ∨ (32 ≤ s ∧ s < 44) ∨ s = 48 ∨ s = 65 ∨ s = 515

/-- Number of a window's block within its kind (R105). -/
def instanceOf (w : Nat) : Nat :=
  if 16 ≤ w ∧ w < 24 then w - 16
  else if 24 ≤ w ∧ w < 28 then w - 24
  else if 28 ≤ w ∧ w < 36 then w - 28
  else if 36 ≤ w ∧ w < 40 then w - 36
  else if 40 ≤ w ∧ w < 48 then w - 40
  else 0

/-- HBM cycles of timing parameter `k` at operating point `p` (R381). -/
def memTiming (p k : Nat) : Nat :=
  ((([[23, 23, 45, 68, 4, 7, 26, 26, 8, 4, 15, 256],
      [17, 17, 34, 51, 3, 5, 20, 20, 6, 3, 11, 192],
      [12, 12, 23, 35, 2, 4, 13, 13, 4, 2, 8, 128]] : List (List Nat))[p]?.getD [])[k]?).getD 0

/-- Logical ranks of tile `t` with `sp` spares (R366, R369). -/
def mapRanks (sp t : Nat) : Nat := if t < sp then 7 else 8

/-- The physical rank of logical rank `r` of tile `t` at reset (R369). -/
def mapRank0 (t r : Nat) : Nat := 8 * t + 4 * (r % 2) + r / 2

/-- Whether physical rank `p` is a spare with `sp` spares (R369). -/
def isSpare (sp p : Nat) : Bool := p % 8 = 7 ∧ p / 8 < sp

/-- Reset values that a rule gives in place of the field table: `none` where the table's value stands. -/
def resetSpecial (w : Nat) (name : String) (ix : List Nat) : Option Nat :=
  let i := ix.headD 0
  if name = "BLK_ID" then some (w * 0x1000000 + instanceOf w * 0x10000 + 1)
  else if name = "GLB_RESET" then some 1
  else if name = "MC_TIMING_SHADOW" ∨ name = "MC_TIMING_ACTIVE" then
    some (memTiming 0 (2 * i + 1) * 0x10000 + memTiming 0 (2 * i))
  else if name = "MAP_TILE" then some (mapRanks 2 i * 0x10000 + 192)
  else if name = "RANK_MAP" then some (b2n (i % 8 < mapRanks 2 (i / 8)) * 32 + mapRank0 (i / 8) (i % 8))
  else if name = "RANK_STATE" then some (if isSpare 2 i then 5 else 0)
  else if name = "MEM_SPARES" then some 2
  else if name = "RT_PORT_SEL" then some (if i < 4 then i + 1 else 0)
  else if name = "INTC_SRC_CFG" then
    some (b2n (704 ≤ i ∧ i < 773) * 0x80000000 + 8 +
      (if i < 64 then i else if (696 ≤ i ∧ i < 704) ∨ 773 ≤ i then 64 else 0) * 0x10000)
  else if name = "FC_SRC" then
    match fcSeverity i with
    | some v => some (0x80000000 + v)
    | none => some 0
  else none

/-- The value a register holds after reset (R103). -/
def regReset (a : Nat) : W32 :=
  match regRow a with
  | none => 0
  | some (row, ix) =>
    match resetSpecial (regWin a) row.name ix with
    | some v => BitVec.ofNat 32 v
    | none => BitVec.ofNat 32 (row.flds.foldl (fun v f => v + f.reset * 2 ^ f.lo) 0)

end Sys2Proof.Machine
end

