-- ==== Sys2Proof/Machine/SMap.lean ====
section
/-! DEFINITION. The operations over a sparse map. A map's default `d` says what an unlisted key reads as; a write
of the default removes the entry, so equal maps are equal data. -/

namespace Sys2Proof.SMap

/-- What key `k` reads as. -/
def get {α : Type} (d : Nat → α) : SMap α → Nat → α
  | [], k => d k
  | (j, v) :: r, k => if j = k then v else get d r k

/-- Put an entry without looking at the default: the raw insertion that `set` uses. -/
def insert {α : Type} : SMap α → Nat → α → SMap α
  | [], k, v => [(k, v)]
  | (j, w) :: r, k, v =>
    if j = k then (k, v) :: r else if k < j then (k, v) :: (j, w) :: r else (j, w) :: insert r k v

/-- Take the entry of `k` out, and any other of that key: a read of `k` then gives the default in every map. -/
def erase {α : Type} : SMap α → Nat → SMap α
  | [], _ => []
  | (j, w) :: r, k => if j = k then erase r k else (j, w) :: erase r k

/-- Write `v` at `k`; writing the default removes the entry. -/
def set {α : Type} [DecidableEq α] (d : Nat → α) (m : SMap α) (k : Nat) (v : α) : SMap α :=
  if v = d k then erase m k else insert m k v

/-- Change what `k` reads as. -/
def upd {α : Type} [DecidableEq α] (d : Nat → α) (m : SMap α) (k : Nat) (f : α → α) : SMap α :=
  set d m k (f (get d m k))

/-- A map of things that may be absent: what is at `k`. -/
def find {α : Type} (m : SMap α) (k : Nat) : Option α :=
  match m with
  | [] => none
  | (j, v) :: r => if j = k then some v else find r k

/-- The keys that are listed. -/
def keys {α : Type} (m : SMap α) : List Nat := m.map Prod.fst

/-- The values that are listed, in rising order of their keys. -/
def vals {α : Type} (m : SMap α) : List α := m.map Prod.snd

/-- The canonical form's first half: keys strictly rise from at least `lo`. -/
def rising {α : Type} : Nat → SMap α → Bool
  | _, [] => true
  | lo, (j, _) :: r => decide (lo ≤ j) && rising (j + 1) r

/-- The canonical form: keys strictly rise and no entry equals its key's default. -/
def wf {α : Type} [DecidableEq α] (d : Nat → α) (m : SMap α) : Bool :=
  rising 0 m && m.all (fun e => decide (e.2 ≠ d e.1))

end Sys2Proof.SMap
end

