-- ==== Sys2Proof/Machine/HostState.lean ====
section
/-! DEFINITION. The state of the Time Base, the host interface, the Interrupt Hub and the Fault Collector beside
their registers (spec/02_media_time.md, 03_host_interface.md, 19_interrupt_hub.md, 20_fault_collection.md). -/

namespace Sys2Proof.Machine

/-- A periodic series in DT (R42, R540): its period, the next occurrence and the last one it fired. -/
structure Series where
  period : Nat
  next : Nat
  last : Option Nat
  /-- after a forward step, the last of the occurrences it missed: the series fires once for all of them -/
  missed : Option Nat
  deriving DecidableEq, Repr

/-- The Time Base (R29-R47). Times are counts of 2^-16 ns: `dt` is
(SECONDS × 10^9 + NANOSECONDS) × 2^16 + FRAC_NS. -/
structure TimeBase where
  /-- Device Time. -/
  dt : Nat
  /-- what one TIME cycle adds (R30), in 2^-16 ns -/
  inc : Nat
  ptpValid : Bool
  ppsValid : Bool
  /-- LOCKED was entered since reset (R36) -/
  everLocked : Bool
  /-- consecutive measurements with |offset| ≤ 100 ns, per source (R32, R37) -/
  goodPtp : Nat
  goodPps : Nat
  /-- SECONDS that SET_TOD named for the next edge (R34) -/
  tod : Option Nat
  /-- SECONDS of the last edge once a SET_TOD has been applied -/
  todLast : Option Nat
  /-- the TIME_PPS_OUT series (R38) -/
  pps : Option Series
  /-- transmit timestamp of the last Delay_Req (R33) -/
  delayReqTx : Option Nat
  /-- receive timestamp of a two-step Sync that waits for its Follow_Up (R33) -/
  syncRx : Option Nat
  /-- last Sync pair: source's transmit and device's receive timestamp -/
  syncPair : Option (Nat × Nat)
  /-- path delay measured last, in 2^-16 ns -/
  pathDelay : Int
  /-- DT at which the TIME_PPS_OUT pulse under way ends (R32) -/
  ppsFall : Option Nat
  /-- DT of the last TIME_PPS_IN edge and of the last valid Sync (R32) -/
  lastEdge : Option Nat
  lastSync : Option Nat
  /-- the domain number programmed (R33) -/
  domain : Nat
  /-- transport of the last Sync: 0 Ethernet, 1 UDP/IPv4, 2 UDP/IPv6 (R33) -/
  transport : Nat
  deriving DecidableEq, Repr

/-- A descriptor fetched and not yet started: with the protection epoch, privilege level and interface level of its
fetch (R62, R82, R85) and the status that its framing already earned (R69, R81; 0 for none). -/
structure Fetched where
  desc : Desc
  tail : List Desc
  epoch : Nat
  level : Nat
  iface : Nat
  bad : Nat
  /-- DT of the fetch (R147) -/
  at_ : Nat
  deriving DecidableEq, Repr

/-- A ring (R59-R65). -/
structure Ring where
  /-- type code of R60 -/
  type : Nat
  /-- the function that owns it (R541) -/
  fn : Nat
  sizeLog2 : Nat
  base : Nat
  recAddr : Nat
  cq : Nat
  pri : Nat
  user : Bool
  epoch : Nat
  pollUs : Nat
  idleUs : Nat
  ci : Nat
  lastPi : Nat
  /-- DT of the last change of PI seen -/
  changed : Nat
  needsWake : Bool
  /-- between steps 1 and 4 of R63 -/
  sleepSeq : Bool
  asleep : Bool
  stopped : Bool
  indexError : Bool
  cqWait : Bool
  /-- a DESTROY_RING has stopped its fetching (R79) -/
  closing : Bool
  stale : Nat
  fetched : List Fetched
  deriving DecidableEq, Repr

/-- A completion queue (R66-R67). -/
structure Cq where
  fn : Nat
  sizeLog2 : Nat
  base : Nat
  head : Nat
  /-- Interrupt Hub source, 0xFFFF for none -/
  src : Nat
  /-- records written since creation -/
  written : Nat
  /-- records the driver has consumed, as last read -/
  consumed : Nat
  deriving DecidableEq, Repr

/-- What an operation completes with (R72). -/
structure Result where
  status : Nat
  done : Nat
  detail : Nat
  aux : Nat
  deriving DecidableEq, Repr

/-- An operation started from a descriptor and not yet completed (R74, R85). `key` is its order class: completions of
one key are written in the order of the list. -/
structure Op where
  id : Nat
  ring : Nat
  fn : Nat
  level : Nat
  iface : Nat
  epoch : Nat
  key : Nat
  desc : Desc
  tail : List Desc
  result : Option Result
  /-- DT of the fetch (R147) -/
  at_ : Nat
  deriving DecidableEq, Repr

/-- A contiguous range of resource numbers, or a memory window (R84). -/
structure Span where
  first : Nat
  count : Nat
  deriving DecidableEq, Repr

/-- The protection set-up of a function, item by item (R84). -/
structure FnSetup where
  window : Span
  rings : Span
  cqs : Span
  ctxs : Span
  flows : Span
  keySlots : Span
  ints : Span
  deriving DecidableEq, Repr

/-- What the protection set-up and the link hold for a function beside its control page (R52, R82-R86, R452). -/
structure FnState where
  window : Span
  rings : Span
  cqs : Span
  ctxs : Span
  flows : Span
  keySlots : Span
  ints : Span
  /-- a NEGOTIATE has completed with OK since the function's reset (R82) -/
  negotiated : Bool
  /-- an FLR is in progress (R55) -/
  flr : Bool
  /-- Bus Master Enable -/
  bme : Bool
  /-- in D3hot -/
  d3 : Bool
  /-- MSI-X function mask -/
  fnMask : Bool
  /-- MSI-X vector mask bits of the MSI-X table -/
  vecMask : Nat
  /-- Pending Bit Array of the MSI-X capability -/
  pba : Nat
  pmeStatus : Bool
  /-- PCIe Device Control: Relaxed Ordering enable -/
  roEnable : Bool
  /-- PCIe Device Control: Max_Payload_Size and Max_Read_Request_Size, 128 bytes times 2 to the code (R49) -/
  mps : Nat
  mrrs : Nat
  /-- MSI-X Enable of the MSI-X capability, and ASPM L1 of PCIe Link Control (R49) -/
  msixEn : Bool
  aspmL1 : Bool
  /-- what was written to the registers of the AER capability, by offset (R49) -/
  aer : SMap W32
  /-- BAR2 writes posted and not yet visible to engines (R53): address in data space and byte, oldest first -/
  posted : List (Nat × Byte)
  deriving DecidableEq, Repr

/-- A descriptor of a ring that a Function Level Reset has destroyed (R55): fetched before, and still to complete inside the
device. -/
structure Orphan where
  ring : Nat
  type : Nat
  fn : Nat
  fetched : Fetched
  deriving DecidableEq, Repr

/-- The host interface. -/
structure HostIf where
  fns : SMap FnState
  rings : SMap Ring
  cqs : SMap Cq
  ops : List Op
  /-- the number the next operation takes -/
  nextOp : Nat
  /-- device-wide protection epoch (R85) -/
  epoch : Nat
  /-- the set-ups of earlier epochs under which something fetched may still run (R85) -/
  past : List (Nat × SMap FnSetup)
  orphans : List Orphan
  numVfs : Nat
  /-- rate of the PCIe link in tenths of GT/s and its width; 0 while down (R48) -/
  linkRate : Nat
  linkWidth : Nat
  /-- the device answers configuration requests (R54) -/
  ready : Bool
  /-- the link is in L0 or L1 (R452) -/
  linkActive : Bool
  deriving DecidableEq, Repr

/-- An output of the device that no register or memory holds. The list of outputs is the model's own field. -/
inductive Output where
  /-- an MSI-X message: function, vector -/
  | msix (fn vec : Nat)
  /-- a PME message -/
  | pme (fn : Nat)
  | wakeN (low : Bool)
  /-- the answer to a configuration request: retry, or success with a value -/
  | cfgRetry
  | cfgData (v : Nat)
  /-- the answer to a BAR2 read: the bytes, and the EP bit -/
  | bar2 (fn : Nat) (data : List Byte) (ep : Bool)
  /-- TIME_PPS_OUT rises at a whole second -/
  | ppsOut (second : Nat)
  /-- a Delay_Req on PTP_PORT: port, transport, domain -/
  | delayReq (port transport domain : Nat)
  /-- a register value returned to a reader -/
  | regData (v : Nat)
  /-- a frame that left a port, with its first bit's DT -/
  | frame (port : Nat) (data : List Byte) (at_ : Nat)
  /-- a transmitted frame ended with an inverted FCS (R348) -/
  | frameAbort (port : Nat)
  /-- a pause frame that left a port: class enable vector and the time of each class; the vector 0 is Annex 31B -/
  | pause (port : Nat) (enable : Nat) (quanta : List Nat)
  | flowStop (k : Nat) (low : Bool)
  | faultN (low : Bool)
  /-- the answer to a memory client's read (R390, R402) -/
  | memRead (client : Nat) (data : List Byte) (poisoned : Bool)
  | smbus (data : List Byte)
  | jtag (data : Nat)
  deriving DecidableEq, Repr

/-- Interrupt Hub state beside its registers and pages (R447-R456). -/
structure IntcState where
  /-- per target: in-service stack, top first, of source and priority -/
  inServ : SMap (List (Nat × Nat))
  /-- per target: mirror SEQ -/
  mirrorSeq : SMap Nat
  /-- per target: a mirror write is held (R452) -/
  mirrorHeld : SMap Bool
  /-- per vector 32f + v: DT of the last message -/
  lastMsg : SMap (Option Nat)
  /-- per vector: the DT at which a moderated notice is sent -/
  modHeld : SMap (Option Nat)
  /-- per vector: a message held by a mask, Bus Master Enable or D3hot -/
  msgHeld : SMap Bool
  deriving DecidableEq, Repr

/-- One fault in the event queue to firmware (R462). -/
structure FaultEvent where
  src : Nat
  sev : Nat
  dt : Nat
  info : Nat
  deriving DecidableEq, Repr

/-- One 32-byte log record (R475). -/
structure LogRec where
  seq : Nat
  data : List Byte
  /-- part of the standing set of R476 -/
  standing : Bool
  deriving DecidableEq, Repr

/-- Fault Collector state beside its registers (R461, R462, R474-R476). -/
structure FcState where
  /-- condition sources whose condition holds, with their source information -/
  conds : SMap Nat
  queue : List FaultEvent
  ramLog : List LogRec
  ramSeq : Nat
  flashLog : List LogRec
  flashSeq : Nat
  /-- records waiting for the flash, with their DT -/
  flashWait : List LogRec
  /-- start of the current second of flash writes, and how many it has taken -/
  flashFrom : Nat
  flashUsed : Nat
  deriving DecidableEq, Repr

end Sys2Proof.Machine
end

