-- ==== Sys2Proof/Machine/InfraState.lean ====
section
/-! DEFINITION. The state of the memory stacks, data protection, Bunting, the DMA engine, the management subsystem,
the performance monitors and the pins beside their registers (spec/15_memory_stacks.md to 18_dma_engine.md,
21_management_security.md to 23_pins_power_package.md). Times are DT counts of 2^-16 ns. -/

namespace Sys2Proof.Machine

/-- A request waiting in a controller (R371). -/
structure MemReq where
  /-- client code of R374; 16 and up for the coding engines of tiles 0 to 3 and other clients -/
  client : Nat
  write : Bool
  addr : Nat
  len : Nat
  data : List Byte
  at_ : Nat
  deriving DecidableEq, Repr

/-- An armed frequency change (R379). -/
structure FreqArm where
  target : Nat
  at_ : Nat
  begun : Bool
  deriving DecidableEq, Repr

/-- A frame of a rank that waits for its self-test (R393), with the number of its log record and the slots that held
an error, as pseudo-channels. -/
structure TestReq where
  rank : Nat
  frame : Nat
  log : Nat
  pchs : Nat
  deriving DecidableEq, Repr

/-- A stack's controller beside its registers (R370-R381, R393, R394). -/
structure MemCtl where
  /-- level of the real-time urgency of each port, as last reported -/
  urgency : List Nat
  /-- DT at which each port's panic began, and whether it has been reported long -/
  panicAt : List (Option Nat)
  panicSaid : List Bool
  /-- requests held, oldest first -/
  held : List MemReq
  /-- refresh intervals postponed for each rank (SID) and bank of every pseudo-channel: key 16 × SID + bank -/
  postponed : SMap Nat
  /-- the bank the next refresh takes, per SID -/
  refBank : List Nat
  /-- open row of bank b of SID s in pseudo-channel p: key 64 × p + 16 × s + b; 0 closed, row + 1 -/
  rows : SMap Nat
  arm : Option FreqArm
  /-- DT at which the self-refresh entry command was issued -/
  srAt : Nat
  /-- the entry under way is for a frequency change -/
  srFreq : Bool
  /-- the PLL has relocked in the frequency change under way -/
  locked : Bool
  lastReq : Nat
  tests : List TestReq
  /-- patrol series (R394) -/
  patrol : Option Series
  stopped : Bool
  deriving DecidableEq, Repr

/-- Data protection beside its registers (R389-R403). -/
structure Protect where
  /-- POISONED frames: key 2^21 × rank + frame -/
  poisoned : SMap Bool
  /-- pages moved to a reserve frame: key page, value frame of the logical rank's reserve -/
  retired : SMap Nat
  /-- banks retired: rank, pseudo-channel, bank -/
  banks : List (Nat × Nat × Nat)
  /-- DRAM channels on which a PERSISTENT test of a rank found mismatches, as a mask -/
  badChans : SMap Nat
  /-- ranks in state WAITING, in the order in which they failed -/
  waiting : List Nat
  /-- of each DRT entry: the number of its log record and the pseudo-channels that held an error (R391, R393) -/
  drt : SMap (Nat × Nat)
  /-- reserve frames used by each logical rank: key 8 × tile + rank -/
  reserve : SMap Nat
  deriving DecidableEq, Repr

/-- A buffer of Bunting (R410, R411). `state`: 0 FREE, 1 ALLOCATED, 2 FREE_PENDING, 3 QUARANTINED. -/
structure Buffer where
  state : Nat
  owner : Nat
  holds : Nat
  /-- continuation buffers of a chained segment (R420) -/
  more : List Nat
  deriving DecidableEq, Repr

/-- A pool's list of FREE buffers (R415): the buffers that have returned, then the indices from `fresh` up that have
never been allocated. -/
structure Pool where
  back : List Nat
  fresh : Nat
  minFree : Nat
  quarantined : Nat
  deriving DecidableEq, Repr

/-- Bunting beside its registers: buffers by handle, pools. -/
structure Bunting where
  bufs : SMap Buffer
  pools : List Pool
  deriving DecidableEq, Repr

/-- A DMA descriptor fetched (R428-R438): `issued` counts the bytes of the bursts granted, `done` the bytes written;
`refused` is the status earned at fetch, `stop` says that a POISONED source page has stopped it. -/
structure DmaDesc where
  desc : Desc
  issued : Nat
  done : Nat
  /-- transactions that have not returned: offset, length and phase (0 source read, 1 destination write, 2 barrier
  read) -/
  flight : List (Nat × Nat × Nat)
  refused : Nat
  stop : Bool
  poisoned : Bool
  /-- DETAIL and address of its bus error -/
  busError : Option (Nat × Nat)
  /-- it had been fetched and was not over when the engine stopped (R439) -/
  halted : Bool
  deriving DecidableEq, Repr

/-- A DMA channel (R425-R435). -/
structure DmaChan where
  ci : Nat
  epoch : Nat
  lastPi : Nat
  stopped : Bool
  indexError : Bool
  cqWait : Bool
  written : Nat
  consumed : Nat
  /-- ring records of another epoch that were read (R62) -/
  stale : Nat
  descs : List DmaDesc
  deriving DecidableEq, Repr

/-- The DMA engine beside its registers. -/
structure Dma where
  chans : SMap DmaChan
  /-- the channel last granted at each level -/
  last : SMap Nat
  /-- the first bus error of the stop under way: channel, whether it belongs to a descriptor, DETAIL, address -/
  first : Option (Nat × Bool × Nat × Nat)
  /-- the timers that run (R434) -/
  timers : SMap Series
  deriving DecidableEq, Repr

/-- A slot of the firmware flash (R483-R487). `state`: 0 EMPTY, 1 VALID, 2 TRIAL, 3 ACTIVE. -/
structure FwSlot where
  state : Nat
  tries : Nat
  /-- bytes of the slot; an unlisted byte reads as erased flash, 0xFF -/
  image : SMap Byte
  deriving DecidableEq, Repr

/-- An EGRESS entry of the running standing order (R499, R502). -/
structure Egress where
  channel : Nat
  stream : Nat
  port : Nat
  queue : Nat
  rate : Nat
  template : List Byte
  /-- the segment being sent and the bytes of it sent -/
  seg : Option Nat
  sent : Nat
  /-- DT of the next datagram -/
  nextAt : Nat
  deriving DecidableEq, Repr

/-- The standing order (R499-R503). -/
structure Order where
  image : List Byte
  id : Nat
  triggers : Nat
  ranges : List (Nat × Nat)
  /-- what each running channel (32 for common entries) has created: kind code and number -/
  made : List (Nat × Nat × Nat)
  egress : List Egress
  dropped : Nat
  deriving DecidableEq, Repr

/-- The management subsystem beside its registers (R478-R507). -/
structure Mgmt where
  slotA : FwSlot
  slotB : FwSlot
  /-- the path that issued FIRST of the current write sequence: 1 Admin ring, 2 SMBus, 0 none -/
  writer : Nat
  /-- the inactive slot has been written in the sequence -/
  fwResult : Nat
  ownerKey : Option (List Byte)
  config : Option (List Byte)
  order : Option Order
  /-- content key slots -/
  keys : SMap Nat
  /-- DT at which the outstanding admin challenge lapses (R493) -/
  challenge : Option Nat
  challengeData : List Byte
  /-- expiry of the host watchdog -/
  wdog : Option Nat
  /-- a NEGOTIATE has completed since READY; DT of READY -/
  hostSeen : Bool
  readyAt : Option Nat
  waitS : Nat
  /-- last heartbeat, whether its loss has been raised, and the cores are being restarted -/
  beatAt : Nat
  beatLost : Bool
  restarting : Bool
  /-- DT at which the warm reset of an admin RESET falls due (R507) -/
  resetDue : Option Nat
  measures : List (BitVec 512)
  fuses : Nat
  fwVersion : Nat
  minPatchSv : Nat
  /-- the flow sealing key of this start-up, as a free value's number -/
  sealKey : Nat
  deriving DecidableEq, Repr

/-- Performance monitors (R508-R519): cycle counters and counters hold their whole width here; latches by reading
path. -/
structure Pm where
  cycles : SMap Nat
  /-- fraction of a cycle owed to each domain's counter, in 1/125 -/
  fracs : SMap Nat
  counters : SMap Nat
  latch : SMap Nat
  /-- bytes accumulated in the open window, by the address of the register they will be copied to -/
  acc : SMap Nat
  /-- window ends (R519) -/
  window : Option Series
  deriving DecidableEq, Repr

/-- Pins and conditions of the package (R520-R538). -/
structure Pins where
  porN : Bool
  perstN : Bool
  sysResetN : Bool
  pinStraps : Nat
  /-- the device is held in reset -/
  inReset : Bool
  thermalHold : Bool
  internal : Bool
  dreq : Nat
  smbAlert : Bool
  wakeN : Bool
  faultN : Bool
  ppsOut : Bool
  /-- FATAL_STOP is in force (R471) -/
  fatalStop : Bool
  /-- JTAG instruction in force (R528): 0 BYPASS, 1 IDCODE, 2 SAMPLE/PRELOAD, 3 EXTEST, 4 HIGHZ, 5 CLAMP -/
  jtagIr : Nat
  /-- boundary-scan cells -/
  bsr : Nat
  /-- Ensign has accepted a debug challenge -/
  debugOpen : Bool
  deriving DecidableEq, Repr

end Sys2Proof.Machine
end

