-- ==== Sys2Proof/Machine/MediaState.lean ====
section
/-! DEFINITION. The state of the Media tiles beside their registers: contexts, ladder groups, pictures, rate control,
Coupling Buffers, Syntax Engines and patches (spec/05_coding_contexts.md to 10_decoding.md). -/

namespace Sys2Proof.Machine

/-- The parameters of SET_RATE_CONTROL (R224). -/
structure RcParams where
  mode : Nat
  gainSel : Nat
  aq : Nat
  minQ : Nat
  maxQ : Nat
  qKey : Nat
  qP : Nat
  qB : Nat
  keyWeight : Nat
  bitrate : Nat
  maxBitrate : Nat
  buffer : Nat
  initDelay : Nat
  deriving DecidableEq, Repr

/-- Rate-control state of an encode context (R227-R235). `qt` holds Q_t with 8 fractional bits for key, P and the
B layers 1 to 3; `window` the last w × G values in sixteenths, newest first. -/
structure RcState where
  cur : RcParams
  /-- takes effect at the next picture boundary -/
  next : Option RcParams
  /-- the part (or, on a change of mode, the whole) that waits for a key picture -/
  nextKey : Option RcParams
  debt : Nat
  window : List Nat
  qt : List Int
  full : Int
  started : Bool
  /-- a PRODUCE has begun, and its first picture starts the models again (R235) -/
  fresh : Bool
  deriving DecidableEq, Repr

/-- Motion of a prediction block (R172, R190): for each list, the vector in 1/16 sample and the number of the picture it refers
to. -/
structure Motion where
  l0 : Option ((Int × Int) × Nat)
  l1 : Option ((Int × Int) × Nat)
  deriving DecidableEq, Repr

/-- One region of a running picture on its pair (R166, R237-R241). Rows are counted within the region. -/
structure Region where
  idx : Nat
  /-- the pair that runs it; none while it waits or is preempted -/
  pair : Option Nat
  /-- forecast X_r and blocks of each row -/
  xs : List Nat
  blocks : List Nat
  /-- of each row done: the Pixel Engine's estimate, the true bits that the Syntax Engine reported, the sum of the bounds U of
  its blocks, P_r and b_r -/
  ests : List Nat
  acts : List Nat
  bounds : List Nat
  /-- bounds of the blocks of the row that runs -/
  us : List Nat
  ps : List Nat
  bs : List Nat
  budget : Nat
  share : Int
  /-- QIDX of the row that runs -/
  q : Int
  /-- sum of block QIDX and the number of blocks, for q_avg (R233) -/
  qSum : Int
  qBlocks : Nat
  /-- 0, 1 or 2: stage of exhaustion (R239, R240) -/
  stage : Nat
  /-- its PIC_END has been consumed, or its picture is closed -/
  ended : Bool
  /-- records of its blocks, oldest first -/
  recs : List (List Nat)
  /-- motion that its records have chosen, by 2^16 × row + column of 4 × 4 luma samples of the picture -/
  motion : SMap Motion
  deriving DecidableEq, Repr

/-- What the analysis of a source picture publishes (R142-R146, R158). `l0` and `l1` are the fields of the 16 × 16 source
blocks in units of 1/4 source pixel, `q0` and `q1` the quarter-resolution results of the 32 × 32 blocks. -/
structure Analysis where
  s : Nat
  m : Nat
  cut : Bool
  fade : Bool
  key : Bool
  segStart : Bool
  segIndex : Nat
  hasL0 : Bool
  hasL1 : Bool
  q0 : List (Int × Int)
  q1 : List (Int × Int)
  l0 : List (Int × Int)
  l1 : List (Int × Int)
  complexity : List Nat
  saliency : List Nat
  cost0 : List Nat
  cost1 : List Nat
  intra : List Nat
  deriving DecidableEq, Repr

/-- Format of a source picture (R137). -/
structure PicFormat where
  width : Nat
  height : Nat
  depth : Nat
  chroma : Nat
  primaries : Nat
  transfer : Nat
  matrix : Nat
  range : Nat
  /-- mastering display and light level bytes 18 and 48 to 75 of the header -/
  hdr : List Byte
  deriving DecidableEq, Repr

/-- One source picture held by a group or by a standalone context (R123, R130, R140). -/
structure SrcPic where
  n : Nat
  /-- picture DT (R140) -/
  dt : Nat
  /-- data-space address of a host picture -/
  addr : Nat
  /-- the image of a decoded picture, in the layout of R137; empty for a host picture -/
  image : List Byte
  fmt : PicFormat
  /-- FORCE_KEY, or selected by KEY_NOW (R147) -/
  force : Bool
  /-- the PICTURE operation that supplied it -/
  op : Option Nat
  /-- quarter-resolution luma (R142) -/
  quarter : List Nat
  analysis : Option Analysis
  /-- the group's decisions are final (R144) -/
  final : Bool
  /-- the members have been given it (R147) -/
  given : Bool
  /-- damage flags of a decoded source picture (R255) -/
  damage : Nat
  /-- members that have not encoded it yet -/
  waiting : List Nat
  /-- the deadline of its analysis has passed (R42, R45) -/
  late : Bool := false
  /-- the open sidecar closes after it (R155) -/
  closes : Bool
  /-- the last picture of its stream (R144) -/
  last : Bool := false
  deriving DecidableEq, Repr

/-- A rung analysis entry (R151, R171), in units of 1/4 rung pixel. -/
structure RungEntry where
  l0 : Int × Int
  l1 : Int × Int
  complexity : Nat
  saliency : Nat
  cost0 : Nat
  cost1 : Nat
  intra : Nat
  deriving DecidableEq, Repr

/-- A ready or running picture of a context. `ptype`: 0 key, 1 P, 2 to 4 B of layer 1 to 3. -/
structure Job where
  ctx : Nat
  n : Nat
  ptype : Nat
  key : Bool
  segStart : Bool
  segIndex : Nat
  cut : Bool
  fade : Bool
  hasL0 : Bool
  hasL1 : Bool
  /-- ticks from the origin, without the 2^33 wrap -/
  pts : Int
  /-- deadline in DT, none for no deadline (R119) -/
  deadline : Option Nat
  /-- its deadline has passed: a step back of DT does not undo that (R42, R45) -/
  late : Bool := false
  /-- DEADLINE of the PRODUCE it belongs to, and whether it is the PRODUCE's last picture in coding order -/
  produce : Option Nat
  last : Bool
  /-- G_n of R230 -/
  gForecast : Nat
  entries : List RungEntry
  regions : List Region
  /-- seams still to filter, with the rows of each that are filtered (R168) -/
  seams : List (Nat × Nat)
  running : Bool
  /-- pictures that it may refer to, nearest first: list 0, then list 1 (R165, R175) -/
  list0 : List Nat
  list1 : List Nat
  /-- decode: a reference lay on a poisoned page (R181, R261) -/
  poisonRef : Bool
  bPre : Nat
  budget : Nat
  hrd : Int
  q0 : Int
  /-- gain set sampled at the start of the picture (R245), STEP in QIDX -/
  gain : Nat
  step : Nat
  deriving DecidableEq, Repr

/-- A finished access unit, decoded picture or sidecar that GET_AU or a Segmenter takes (R132, R156, R253). PTS and DTS
are ticks without the 2^33 wrap. -/
structure AccUnit where
  data : List Byte
  pts : Int
  dts : Int
  dur : Nat
  status : Nat
  detail : Nat
  segStart : Bool
  segIndex : Nat
  key : Bool
  /-- highest rate-control stage of the picture (R239, R240) -/
  stage : Nat
  /-- completed after its deadline -/
  late : Bool
  /-- DEADLINE of its PRODUCE (R275); 0 once that has passed -/
  produced : Option Nat
  /-- the end of the segment follows it: the last picture of a PRODUCE, or END_OF_STREAM (R270) -/
  ends : Bool
  /-- a mark of END_OF_STREAM without an access unit -/
  mark : Bool
  /-- the PRODUCE that completes once it is packaged, and its result (R275) -/
  finishes : Option (Nat × Nat × Nat)
  /-- output order of a decoded picture, whose reference buffer it still holds (R254) -/
  order : Nat
  /-- its PTS is its own, of its PES packet; otherwise it follows from the picture before (R249) -/
  own : Bool
  deriving DecidableEq, Repr

/-- A reference storage unit (R178, R180): its header, and the samples that its slot stands for, luma, Cb and Cr. What a
PACKED slot holds is internal to the device (log entry 86). -/
structure Rsu where
  mode : Nat
  sectors : Nat
  samples : List Nat
  deriving DecidableEq, Repr

/-- A picture in a context's reference buffers (R176, R178, R254, R261, R262). `order` is its output order, in encode its
source picture number. -/
structure RefPic where
  order : Nat
  damaged : Bool
  /-- the codec still needs it as a reference -/
  needed : Bool
  /-- which of the context's picture buffers holds it -/
  slot : Nat
  /-- picture type of an encoded picture: 0 key, 1 P, 2 to 4 B of layer 1 to 3 -/
  ptype : Nat
  width : Nat
  height : Nat
  chroma : Nat
  rsus : List Rsu
  /-- stored motion of each RSU (R178) -/
  motion : List Motion
  deriving DecidableEq, Repr

/-- Colour and HDR information that a rendition signals (R154): PRIMARIES, TRANSFER, MATRIX and RANGE as in R137, and the
mastering display and light level information where it has any. -/
structure Colour where
  primaries : Nat
  transfer : Nat
  matrix : Nat
  range : Nat
  mdcv : Option (List Byte)
  cll : Option (List Byte)
  deriving DecidableEq, Repr

/-- A BITSTREAM operation not yet consumed (R131, R247). -/
structure StreamPart where
  op : Nat
  addr : Nat
  len : Nat
  used : Nat
  arrival : Nat
  errors : Nat
  reason : Nat
  /-- END_OF_STREAM follows it -/
  eos : Bool
  deriving DecidableEq, Repr

/-- Decoder state of a context (R247-R263). -/
structure DecState where
  parts : List StreamPart
  /-- elementary stream bytes of an INGEST stream not yet consumed, with loss points as byte positions -/
  ingest : List Byte
  losses : List Nat
  /-- PTS of the PES packets not yet consumed, with the byte position at which each starts -/
  pesPts : List (Nat × Nat)
  /-- ARRIVAL_DT of the data that arrived last, and with the position of its last byte, of the data of an INGEST stream -/
  arrival : Nat
  arrivals : List (Nat × Nat)
  refs : List RefPic
  /-- pictures decoded and not yet output, in output order -/
  held : List AccUnit
  /-- a random access point has been passed (R248) -/
  started : Bool
  /-- leading pictures of the present random access point are not output: RASL pictures, and those before a GDR's recovery
  point (R248) -/
  noRasl : Bool
  recovery : Option Nat
  /-- the sequence failed a check, and its access units are discarded (R250) -/
  refused : Bool
  /-- parameter sets in force (R250) -/
  sets : List Nat
  /-- parameter sets that failed their range check, with no earlier set of theirs in force (R250) -/
  badSets : List Nat
  /-- errors that Syntax Engines found in bytes that wait: byte position and reason code (R260) -/
  errors : List (Nat × Nat)
  /-- byte position at which STALL has closed the open picture (R263) -/
  closed : Option Nat
  /-- byte position of END_OF_STREAM in an INGEST stream (R256) -/
  eosAt : Option Nat
  /-- the parameter block of each region, in a form internal to the device (R220) -/
  params : SMap (List Nat)
  lastPts : Option Int
  paused : Bool
  /-- DT at which the last byte of the open picture arrived, while it is open (R263) -/
  openAt : Option Nat
  deriving DecidableEq, Repr

/-- A sidecar that is being written (R155-R159). -/
structure Sidecar where
  index : Nat
  firstDt : Nat
  pics : Nat
  body : List Byte
  deriving DecidableEq, Repr

/-- A KEY_NOW that waits (R124, R147): its operation, its DT stamp, and the picture of a FORCE_KEY that it was merged with. -/
structure KeyReq where
  op : Nat
  at_ : Nat
  pic : Option Nat
  deriving DecidableEq, Repr

/-- The source pictures of a group or of a standalone context, and what its key and segment decisions rest on
(R139-R147). -/
structure Source where
  fmt : Option PicFormat
  /-- pictures held, oldest first -/
  pics : List SrcPic
  /-- the number the next picture takes -/
  count : Nat
  lastKey : Option Nat
  lastBoundary : Option Nat
  /-- last CAPTURE_DT accepted (R130) -/
  lastDt : Option Nat
  /-- KEY_NOW operations waiting (R147) -/
  keyNow : List KeyReq
  /-- no further picture follows until the stream starts again -/
  ended : Bool
  /-- quarter-resolution and half-resolution luma of the picture analysed last -/
  prev : List Nat
  prevHalf : List Nat
  /-- M of the picture whose decisions became final last -/
  lastMean : Option Nat
  side : Option Sidecar
  sideCount : Nat
  deriving DecidableEq, Repr

/-- A coding context (R107-R133). `kind`: 0 decode, 1 encode, 2 analyse. `state`: 1 CREATED, 2 ACTIVE, 3 FAILED,
4 DRAINING; FREE contexts are not listed. -/
structure Ctx where
  fn : Nat
  kind : Nat
  cls : Nat
  codec : Nat
  profile : Nat
  level : Nat
  preset : Nat
  width : Nat
  height : Nat
  rateNum : Nat
  rateDen : Nat
  group : Option Nat
  tile : Nat
  maxSplit : Nat
  depth : Nat
  chroma : Nat
  output : Nat
  stream : Nat
  latencyUs : Nat
  /-- a backward step can take it below DT 0 (R43) -/
  origin : Int
  ingest : Nat
  speed : Nat
  /-- admitted cost in 10^6 cycles/s (R116) -/
  cost : Nat
  /-- guaranteed Halyard traffic of a rendition off its home tile, in bytes/s (R21) -/
  halyard : Nat
  regions : Nat
  state : Nat
  /-- cause and DETAIL of FAILED (R109, R207) -/
  cause : Nat
  detail : Nat
  /-- handles of its reference buffers (R179) -/
  buffers : List Nat
  rc : Option RcState
  dec : DecState
  /-- finished access units or pictures, oldest first -/
  out : List AccUnit
  /-- closed sidecars, oldest first (R156) -/
  sides : List AccUnit
  /-- GET_AU operations waiting -/
  getAus : List Nat
  /-- bits that the Syntax Engines have appended for the running picture, and by region what they have written, newest
  first (R204, R207) -/
  bits : Nat
  coded : SMap (List Bool)
  /-- what the parameter sets of the last key picture signal (R154) -/
  colour : Option Colour
  /-- number of the last key picture in coding order -/
  keyN : Nat
  /-- access units completed since the context, or its PRODUCE, began (R542) -/
  auCount : Nat
  /-- PTS of the first picture, and in display order those not yet used as a DTS -/
  firstPts : Int
  ptsList : List Int
  /-- AV1: coded bytes of frames not shown that wait for a temporal unit, pictures coded ahead of their display, and
  the display order of the pictures not yet shown -/
  hidden : List Byte
  ahead : List (Nat × AccUnit)
  show_ : List Nat
  /-- waits for its group's next key picture (R122) -/
  joining : Bool
  /-- pictures of the open mini-GOP, in display order (R175) -/
  gop : List Job
  src : Source
  deriving DecidableEq, Repr

/-- A PRODUCE job (R133, R160). -/
structure Produce where
  op : Nat
  ctx : Nat
  srcAddr : Nat
  srcLen : Nat
  segIndex : Nat
  pictures : Nat
  deadline : Nat
  /-- its deadline has passed (R42, R45) -/
  late : Bool := false
  noSidecar : Bool
  /-- picture DT and analysis of each picture, from the sidecar -/
  pics : List (Nat × Analysis)
  /-- its pictures have been given to the context -/
  given : Bool
  /-- pictures encoded -/
  done : Nat
  deriving DecidableEq, Repr

/-- The decode of a source segment for PRODUCE (R133, R266): the pictures decoded so far, in output order. -/
structure SegDecode where
  srcAddr : Nat
  srcLen : Nat
  segIndex : Nat
  used : Nat
  pics : List AccUnit
  deriving DecidableEq, Repr

/-- A ladder group (R121-R124, R128, R141-R147). -/
structure Group where
  fn : Nat
  source : Nat
  lookahead : Nat
  srcCtx : Option Nat
  tile : Nat
  segOnDt : Bool
  saveSide : Bool
  useSide : Bool
  segMs : Nat
  width : Nat
  height : Nat
  rateNum : Nat
  rateDen : Nat
  cls : Nat
  /-- admitted ANE cost -/
  cost : Nat
  members : List Nat
  origin : Option Int
  /-- SPEED of its members (R121) -/
  speed : Option Nat
  /-- SOURCE_FAILED (R123) -/
  failed : Bool
  src : Source
  produces : List Produce
  decodes : List SegDecode
  deriving DecidableEq, Repr

/-- A rung source picture (R150): samples of luma, then of Cb and Cr, in raster order. -/
structure Rung where
  n : Nat
  width : Nat
  height : Nat
  depth : Nat
  luma : List Nat
  cb : List Nat
  cr : List Nat
  toned : Bool
  deriving DecidableEq, Repr

/-- The state of an arithmetic coder (R194, R209). CABAC: `low` is the low value in encode and the offset in decode,
`pending` the outstanding bits, `first` that the first bit is still to be dropped. AV1: in encode `low` is the low value in
units of the present range and `pending` the shifts since INIT_CODER; in decode `low` is the symbol window and `left` the bits
of the tile that the window has not yet taken. -/
structure AcState where
  low : Nat
  range : Nat
  pending : Nat
  first : Bool
  left : Int
  deriving DecidableEq, Repr

/-- The state of a Syntax Engine that has a shadow copy (R194). -/
structure SxeRegs where
  /-- S0 to S11, then P0 to P3 -/
  regs : List Nat
  cnts : List Nat
  z : Bool
  n : Bool
  c : Bool
  bin : Bool
  ac : AcState
  /-- context memory entries of 64 bits -/
  ctxMem : SMap Nat
  /-- bit writer: bits of the units closed since the region started, and of the unit that is open, newest first; the
  committed copy holds those appended -/
  out : List Bool
  open_ : List Bool
  /-- emulation prevention is on -/
  epb : Bool
  /-- bit reader: bits of the current unit not yet passed, with its emulation prevention bytes, how many have been passed, and
  the value of the last 16 of them -/
  unit : List Bool
  unitPos : Nat
  last16 : Nat
  /-- why the unit ends where it does: 0 by itself, else the reason code of a read beyond it (R247, R264) -/
  unitEnd : Nat
  /-- byte position of the next unit in the stream that waits to be decoded -/
  streamPos : Nat
  /-- Coupling Buffer read position: the current record, the words read of it, and how many published records are passed
  with it -/
  cur : List Nat
  recPos : Nat
  recIdx : Nat
  /-- staged records, oldest first -/
  staged : List (List Nat)
  /-- reason code of STREAM_ERROR, 0 while it is not set, and the errors found since the last commit: byte position and reason
  code (R260) -/
  streamError : Nat
  errs : List (Nat × Nat)
  budgetOut : Bool
  deriving DecidableEq, Repr

/-- A Syntax Engine (R194-R208). -/
structure Sxe where
  com : SxeRegs
  sh : SxeRegs
  stack : List Nat
  pc : Nat
  /-- entry address and dispatch word of the routine -/
  entry : Nat
  word : Nat
  /-- COMMIT of this routine has executed -/
  committed : Bool
  /-- microwords issued since entry without COMMIT -/
  issued : Nat
  /-- consecutive fault restarts of the routine -/
  faults : Nat
  stop : Bool
  /-- the last record committed is a ROW_END -/
  rowEnd : Bool
  parked : Bool
  /-- a routine is running; false at a DISPATCH that waits -/
  running : Bool
  /-- bits written and held pending by the coder at the last ROW_END, and the bits reported for that row (R213) -/
  rowFrom : Nat
  rowBits : Int
  /-- decode: microwords issued since PIC_START, and BUDGET_PPX as sampled there (R259) -/
  used : Nat
  ppx : Nat
  deriving DecidableEq, Repr

/-- Where a sequence of records stands (R192). `stage`: 0 before PIC_START, 1 between rows, 2 in a row before a CTB, 3 after a
CTB, 4 after a CU, 5 after an INTER that announced a record, 6 in residuals, 7 after PIC_END. `row` is the row
that runs, or the one that runs next at the earliest; `ctb` is the least CTB position of its next block, as 2^16 × X + Y, and `pu`
the least position of the next prediction block of the coding unit, as 2^8 × Y + X. -/
structure RecPos where
  stage : Nat
  row : Nat
  ctb : Nat
  pu : Nat
  deriving DecidableEq, Repr

/-- A pair's Coupling Buffer and the order state of its consumer (R192, R219). -/
structure CoupBuf where
  /-- published records not yet consumed, oldest first -/
  recs : List (List Nat)
  /-- greatest fill in words since the region started -/
  high : Nat
  pos : RecPos
  /-- ROW_STARTs published, ROW_ENDs published, ROW_STARTs consumed, ROW_ENDs consumed since the region started -/
  prodStarts : Nat
  prodEnds : Nat
  consStarts : Nat
  consEnds : Nat
  deriving DecidableEq, Repr

/-- What a Pixel Engine is writing records of, in encode (R187-R192): the row, the block of the row, its CTB record and CU
record, and the block of the latest prediction record. -/
structure PxePos where
  row : Nat
  block : Nat
  ctb : List Nat
  cu : List Nat
  pu : List Nat
  deriving DecidableEq, Repr

/-- A PXE-SXE pair: the context and region it runs (R16, R185-R208). `cache` names the RSUs in the PXE's reference cache, as
2^20 × picture + RSU, least recently used first (R182, R183). -/
structure Pair where
  ctx : Option Nat
  region : Nat
  preempt : Bool
  cb : CoupBuf
  sxe : Sxe
  pxe : PxePos
  cache : List Nat
  deriving DecidableEq, Repr

/-- A region whose pair was handed over (R184, R208): the committed state of its Syntax Engine, its next row, and its work so
far. -/
structure SavedRegion where
  regs : SxeRegs
  row : Nat
  used : Nat
  ppx : Nat
  deriving DecidableEq, Repr

/-- A microcode patch (R214): microwords, match registers (ROM address, TARGET), Signal Book settings (bank, opcode,
entry). -/
structure Patch where
  id : Nat
  words : List (BitVec 144)
  matches_ : List (Nat × Nat)
  book : List (Nat × Nat × Nat)
  deriving DecidableEq, Repr

/-- A Media tile beside its registers. -/
structure Tile where
  /-- DVFS point 0 (1.50 GHz), 1 (1.20 GHz), 2 (0.90 GHz) -/
  point : Nat
  /-- contexts in the context cache, least recently used first (R111) -/
  cache : List Nat
  jobs : List Job
  /-- context number after which the round-robin of R119 goes on, for ON_DEMAND and BULK -/
  rrOd : Nat
  rrBulk : Nat
  stopped : Bool
  deriving DecidableEq, Repr

/-- The Media tiles and what runs on them. -/
structure Media where
  ctxs : SMap Ctx
  groups : SMap Group
  tiles : SMap Tile
  /-- pairs by 16 × tile + number (R16) -/
  pairs : SMap Pair
  /-- rung sources by 4096 × picture number + member context -/
  rungs : SMap Rung
  /-- region states saved at hand-over, by 16 × context + region (R184, R208) -/
  saved : SMap SavedRegion
  patch : Option Patch
  /-- the patch being taken, with its operation; SXEs, as 16 × tile + number, that still run the old one -/
  newPatch : Option (Nat × Patch)
  oldPatch : List Nat
  deriving DecidableEq, Repr

end Sys2Proof.Machine
end

