-- ==== Sys2Proof/Machine/NetState.lean ====
section
/-! DEFINITION. The state of the Segmenters, the delivery flows, the Ethernet ports, the Parser and ingest demux, the
queue manager, Hoist and the time gates beside their registers (spec/11_packaging_delivery.md to
14_queues_scheduling.md). Times are DT counts of 2^-16 ns. -/

namespace Sys2Proof.Machine

/-- An access unit or audio sample in a fragment (R277): PTS and DTS in ticks from the origin, without the 2^33 wrap. -/
structure Sample where
  data : List Byte
  pts : Int
  dts : Int
  dur : Nat
  key : Bool
  deriving DecidableEq, Repr

/-- What a segment record says of one access unit or sample (R273). -/
structure SampleStat where
  dur : Nat
  stage : Nat
  overran : Bool
  late : Bool
  deriving DecidableEq, Repr

/-- An open segment, or a TS segment that waits for audio after its cut (R270-R279). -/
structure Segment where
  index : Nat
  /-- handles of the buffers taken, the first first -/
  bufs : List Nat
  /-- bytes of the closed fragments, or of the TS packets -/
  payload : List Byte
  /-- samples of the open fragment -/
  frag : List Sample
  frags : Nat
  firstPts : Int
  /-- highest video PTS packaged -/
  topPts : Int
  /-- access units or samples of the segment, oldest first -/
  stats : List SampleStat
  audioLate : Bool
  /-- DEADLINE of the PRODUCE it belongs to (R275) -/
  produced : Option Nat
  /-- content key of its samples (R282) -/
  key : Nat
  /-- TS: continuity counters by PID, DTS of the last PSI and of the last PCR -/
  cc : SMap Nat
  psiAt : Option Int
  pcrAt : Option Int
  /-- the boundary that ends it was missed by a forward step (R42) -/
  late : Bool := false
  deriving DecidableEq, Repr

/-- What SEG_NEXT takes (R273): a sealed segment or CMAF header with its record, or a segment that was discarded, with
the status its SEG_NEXT completes with and no record. -/
structure ReadySeg where
  status : Nat
  record : List Byte
  handle : Nat
  init : Bool
  bytes : Nat
  firstPts : Int
  deriving DecidableEq, Repr

/-- A TS audio sample that waits for its segment (R279). -/
structure AudioSample where
  track : Nat
  pts : Nat
  dur : Nat
  data : List Byte
  deriving DecidableEq, Repr

/-- A Segmenter stream (R268-R282). -/
structure Stream where
  fn : Nat
  /-- function that issued STREAM_CREATE, for the check of R282 -/
  issuer : Nat
  kind : Nat
  seg : Nat
  scheme : Nat
  fragPics : Nat
  bufSize : Nat
  tracks : Nat
  cutKey : Bool
  keySlot : Nat
  audioWait : Nat
  segMs : Nat
  origin : Nat
  kid : Nat
  ivSeed : Nat
  constIv : Nat
  tsTypes : Nat
  entry : List Byte
  boxes : List Byte
  /-- context bound to it -/
  ctx : Option Nat
  open_ : Option Segment
  /-- TS segments whose cut has arrived: the cut's PTS and the DT at which AUDIO_WAIT_MS ends -/
  closing : List (Segment × Int × Nat)
  /-- sealed or refused segments that no SEG_NEXT has claimed, oldest first -/
  ready : List ReadySeg
  /-- SEG_NEXT operations waiting -/
  waits : List Nat
  /-- openings so far, for CUT_KEY -/
  count : Nat
  /-- last PTS of each audio track -/
  lastPts : List (Option Nat)
  audio : List AudioSample
  /-- key change: effective index, slot, KID -/
  newKey : Option (Nat × Nat × Nat)
  /-- parameter sets that the last CMAF header reported; none before the first header or after a key change -/
  params : Option (List Byte)
  lastBoundary : Option Nat
  /-- the last segment boundary that a forward step of DT missed, until its cut has come (R42) -/
  missed : Option Nat := none
  deriving DecidableEq, Repr

/-- A flow context (R284) and its run state (R283, R350). `credit` has 16 fractional bits. -/
structure Flow where
  fn : Nat
  state : Nat
  mode : Nat
  aes256 : Bool
  ipv6 : Bool
  keyPhase : Bool
  tcpTs : Bool
  prevValid : Bool
  port : Nat
  queue : Nat
  rate : Nat
  burst : Nat
  mss : Nat
  record : Nat
  hdrLen : Nat
  l3Off : Nat
  l4Off : Nat
  tsOff : Nat
  next : Nat
  tlsSeq : Nat
  ackNum : Nat
  window : Nat
  key : Nat
  iv : Nat
  tsecr : Nat
  prevKey : Nat
  prevIv : Nat
  dcid : Nat
  template : List Byte
  ipId : Nat
  credit : Int
  /-- DT at which the credit was last brought up to date -/
  creditAt : Nat
  /-- operations of the flow in run order -/
  ops : List Nat
  /-- packets launched and bytes launched of the operation at the front -/
  sent : Nat
  sentPkts : Nat
  /-- NEXT and TLS_SEQ when the operation at the front began -/
  next0 : Nat
  tls0 : Nat
  abort : Bool
  /-- failed authentication (R285), also while CLOSING -/
  corrupt : Bool
  /-- DT from which a packet waits (R350), and since when queue, pool and enables let one be released (R351) -/
  readyAt : Nat
  since : Option Nat
  /-- write count of the sealed context (R285) -/
  seals : Nat
  deriving DecidableEq, Repr

/-- Segmenters, segment cache and delivery flows. -/
structure Delivery where
  streams : SMap Stream
  /-- segments sealed since reset (R273) -/
  serial : Nat
  flows : SMap Flow
  /-- flows in the flow cache, least recently used first -/
  cache : List Nat
  /-- operations that wait for a cache entry -/
  cacheWait : List Nat
  deriving DecidableEq, Repr

/-- A port of a lane group, by the number of its first lane (R299-R311). -/
structure Port where
  up : Bool
  /-- stop time left of the received PAUSE (class 8) and of each PFC class 0 to 7: DT at which it ends -/
  stopped : List (Option Nat)
  /-- classes whose partner this port has asked to stop; bit 8 for Annex 31B -/
  asked : Nat
  /-- DT of the next refresh of the pause sent -/
  refresh : Option Nat
  /-- pause frames due: class enable, times -/
  due : List (Nat × List Nat)
  /-- DT before which no further frame begins: the end of the last one, its gap and a preamble (R306) -/
  freeAt : Nat
  deriving DecidableEq, Repr

/-- The live counters of a lane, which LG_CNT_SNAP copies (R304), the ports and the merge state. -/
structure Eth where
  ports : SMap Port
  /-- live counter k of lane l at 14 × l + k, over all 128 lanes -/
  counters : SMap Nat
  /-- lanes that have completed training -/
  trained : SMap Bool
  deriving DecidableEq, Repr

/-- One rule image (R322): VALUE, MASK and action as numbers of 512, 512 and 128 bits. -/
structure Rule where
  value : Nat
  mask : Nat
  action : Nat
  deriving DecidableEq, Repr

/-- An entry of the fragment table (R327): `rule` as the prefix of R326 gives it, and the reason of a default action. -/
structure FragEntry where
  key : List Nat
  action : Nat
  reason : Nat
  hash : Nat
  rule : Nat
  gen : Nat
  used : Nat
  deriving DecidableEq, Repr

/-- A packet held by the path merge (R313): extended sequence number, arrival DT, RTP timestamp, marker, RTP payload. -/
structure HeldPkt where
  seq : Nat
  at_ : Nat
  ts : Nat
  marker : Bool
  data : List Byte
  /-- the steps that DT has made since it arrived (R313) -/
  moved : Int := 0
  deriving DecidableEq, Repr

/-- Ingest state of a stream (R313-R315, R335). -/
structure Ingest where
  /-- next extended sequence number to pass, once one has passed -/
  next : Option Nat
  held : List HeldPkt
  /-- continuity counter of the PID -/
  cc : Option Nat
  /-- bytes of a PES header that is not complete -/
  pes : List Byte
  /-- a PES packet's data is being taken, and how much of it is left where the packet says -/
  body : Bool
  left : Option Nat
  /-- ST 2110-20: RTP timestamp of the open picture, its DT, and the samples received: row, first pixel, octets -/
  picTs : Option Nat
  picDt : Nat
  segs : List (Nat × Nat × List Byte)
  /-- copies of the other path discarded (R313) -/
  dupes : Nat
  deriving DecidableEq, Repr

/-- Parser/Classifier and ingest demux. -/
structure Parser where
  setA : SMap Rule
  setB : SMap Rule
  hitsA : SMap Nat
  hitsB : SMap Nat
  genA : Nat
  genB : Nat
  /-- B is the active set -/
  activeB : Bool
  drained : Bool
  /-- RULES_WRITE and RULES_SWAP operations that wait -/
  waits : List Nat
  frags : List FragEntry
  /-- tokens in bytes with 16 fractional bits, and the DT of the last refill, of each policer; 0 is MGMT_POLICE -/
  tokens : SMap (Nat × Nat)
  /-- DT since which the policers that are not listed fill -/
  tokensAt : Nat := 0
  ingest : SMap Ingest
  /-- management receive is count-only (R333) -/
  mgmtAbove : Bool
  /-- frames taken on a first pass that wait for their second: port, frame, VNI, DT, set B, generation -/
  recirc : List (Nat × List Byte × Nat × Nat × Bool × Nat)
  deriving DecidableEq, Repr

/-- A frame in the Cell Store (R339, R344). -/
structure QFrame where
  id : Nat
  data : List Byte
  /-- receiving port and class it counts against; none for frames of Hoist and Host Transmit -/
  ingress : Option (Nat × Nat)
  rxDt : Nat
  /-- prefix fields of R326: REASON, RULE, GEN, FLAGS, TC, HASH, VNI, PORT -/
  meta_ : List Nat
  spilled : Bool
  /-- the operation that transmits it: a TX_FRAME -/
  op : Option Nat
  /-- the flow whose packet it is -/
  flow : Option Nat
  deriving DecidableEq, Repr

/-- A queue (R338-R346, R353). -/
structure Queue where
  frames : List QFrame
  above : Bool
  tag : Nat
  /-- the tag of the head, set when it became eligible -/
  headTag : Option Nat
  /-- eligible and backlogged at the port's previous selection -/
  wasElig : Bool
  deriving DecidableEq, Repr

/-- A gate list (R354). -/
structure GateList where
  base : Nat
  start : Nat
  cycle : Nat
  entries : List (Nat × Nat)
  deriving DecidableEq, Repr

/-- Gates of a port. -/
structure PortGate where
  running : Option GateList
  pending : Option GateList
  /-- entry in force and the DT at which it ends -/
  entry : Nat
  deriving DecidableEq, Repr

/-- A TX_FRAME read from the host that waits for its release (R358-R360). -/
structure TxWait where
  op : Nat
  ring : Nat
  port : Nat
  queue : Nat
  launch : Nat
  timed : Bool
  tsAddr : Option Nat
  data : List Byte
  released : Bool
  deriving DecidableEq, Repr

/-- A frame on the wire: port, frame, first bit's DT. -/
structure OnWire where
  port : Nat
  queue : Nat
  frame : QFrame
  /-- DT at which its first bit left -/
  first : Nat
  tc : Nat
  /-- the steps that DT has made since, which leave its time on the wire as it is (R357) -/
  shift : Int := 0
  deriving DecidableEq, Repr

/-- Queue manager, Hoist and gates. -/
structure Queues where
  queues : SMap Queue
  xoff : Bool
  nextFrame : Nat
  /-- cells counted against port p and class c, at 8p + c, with its watermark state -/
  ingress : SMap Nat
  ingAbove : SMap Bool
  spill : Nat
  /-- pins FLOW_STOP_N driven low -/
  fstop : Nat
  /-- virtual time of each port -/
  vt : SMap Nat
  gates : SMap PortGate
  tx : List TxWait
  wire : List OnWire
  /-- buffers posted to Host Receive rings: ring, operation, address, length -/
  rxBufs : List (Nat × Nat × Nat × Nat)
  deriving DecidableEq, Repr

end Sys2Proof.Machine
end

