-- ==== Sys2Proof/Machine/Dev.lean ====
section
/-! DEFINITION. Everything the spec gives the device, without the queue of commands that wait. -/

namespace Sys2Proof.Machine

/-- The device (R5-R543). Registers are held by their BAR0 byte offset, control pages of functions 1 to 63 at
0x4000000 + f × 0x1000; an unlisted register holds its reset value. Byte 0 is what an unlisted byte of data space
(R403) and of host memory (DESIGN CHOICE, log entry 4) reads as. -/
structure Dev where
  regs : SMap W32
  /-- staged copies of LIVE registers that differ from the active copy (R93, R94) -/
  staged : SMap W32
  /-- units of a window that have applied the commit that is pending: key 4096 × window + unit (R97) -/
  applied : SMap Bool
  tb : TimeBase
  host : HostIf
  hostMem : SMap Byte
  dataMem : SMap Byte
  intc : IntcState
  fc : FcState
  media : Media
  dlv : Delivery
  eth : Eth
  par : Parser
  qm : Queues
  /-- controllers by stack -/
  mem : SMap MemCtl
  prot : Protect
  bun : Bunting
  dma : Dma
  mgmt : Mgmt
  pm : Pm
  pins : Pins
  /-- the model's own field: free values used so far (DESIGN CHOICE, log entry 1) -/
  freeCtr : Nat
  /-- the model's own field: what the device has put out, oldest first (DESIGN CHOICE, log entry 2) -/
  out : List Output
  deriving DecidableEq, Repr

end Sys2Proof.Machine
end

