-- ==== Sys2Proof/Machine/State.lean ====
section
/-! DEFINITION. The state of the machine: the device and the queue of commands that wait, the reasons a step can stop,
and the state after reset. -/

namespace Sys2Proof.Machine

/-- The machine: the device, and the commands that wait, first in first out. -/
structure State where
  dev : Dev
  pending : List Instr
  deriving DecidableEq, Repr

/-- Reasons a command stops the machine. -/
inductive Fault where
  /-- Raised by MEM_REQUEST: a request to an address outside the data space of R365, which no client can name. Safe:
  the model stops where the spec gives no behaviour. -/
  | outsideDataSpace (addr : Nat)
  deriving DecidableEq, Repr

/-- Reasons a command has no effect in the model. -/
inductive Refusal where
  /-- Raised by an arm of exec whose command has no meaning yet. Safe: the model stops. -/
  | notModelled (mnemonic : String)
  deriving DecidableEq, Repr

/-- A function's set-up after reset (R541): every item is empty. The PCIe state is that of PCIe's own reset: Bus Master
Enable 0, D0, every vector masked, MSI-X disabled, Relaxed Ordering enabled, payloads of 128 and read requests of 512 bytes,
ASPM off (PRESUMED, log entry 7). -/
def fnReset : FnState :=
  { window := ⟨0, 0⟩, rings := ⟨0, 0⟩, cqs := ⟨0, 0⟩, ctxs := ⟨0, 0⟩, flows := ⟨0, 0⟩, keySlots := ⟨0, 0⟩,
    ints := ⟨0, 0⟩, negotiated := false, flr := false, bme := false, d3 := false, fnMask := false,
    vecMask := 0xFFFFFFFF, pba := 0, pmeStatus := false, roEnable := true, mps := 0, mrrs := 2, msixEn := false,
    aspmL1 := false, aer := [], posted := [] }

/-- The Time Base after reset: DT 0 and FREERUN (R31, R35). -/
def tbReset : TimeBase :=
  { dt := 0, inc := 83886, ptpValid := false, ppsValid := false, everLocked := false, goodPtp := 0, goodPps := 0,
    tod := none, todLast := none, pps := none, delayReqTx := none, syncRx := none,
    syncPair := none, pathDelay := 0, ppsFall := none, lastEdge := none, lastSync := none, domain := 0,
    transport := 0 }

/-- A controller after reset (R362, R364). -/
def memCtlReset : MemCtl :=
  { urgency := List.replicate 8 0, panicAt := List.replicate 8 none, panicSaid := List.replicate 8 false, held := [],
    postponed := [], refBank := List.replicate 4 0, rows := [], arm := none, srAt := 0, srFreq := false, locked := false,
    lastReq := 0,
    tests := [], patrol := none, stopped := false }

/-- A tile after reset. -/
def tileReset : Tile :=
  { point := 0, cache := [], jobs := [], rrOd := 0, rrBulk := 0, stopped := false }

/-- A DMA channel after reset. -/
def dmaChanReset : DmaChan :=
  { ci := 0, epoch := 0, lastPi := 0, stopped := false, indexError := false, cqWait := false, written := 0,
    consumed := 0, stale := 0, descs := [] }

/-- The device after power-on reset, at reset release (R534): every register at its reset value, DT 0, memory with
nothing listed (R403), the reset inputs high. -/
def devReset : Dev :=
  { regs := [], staged := [], applied := [], tb := tbReset,
    host := { fns := [], rings := [], cqs := [], ops := [], nextOp := 0, epoch := 0, past := [], orphans := [],
              numVfs := 0, linkRate := 0,
              linkWidth := 0, ready := false, linkActive := false },
    hostMem := [], dataMem := [],
    intc := { inServ := [], mirrorSeq := [], mirrorHeld := [], lastMsg := [], modHeld := [], msgHeld := [] },
    fc := { conds := [], queue := [], ramLog := [], ramSeq := 0, flashLog := [], flashSeq := 0, flashWait := [],
            flashFrom := 0, flashUsed := 0 },
    media := { ctxs := [], groups := [], tiles := [], pairs := [], rungs := [], saved := [], patch := none,
               newPatch := none, oldPatch := [] },
    dlv := { streams := [], serial := 0, flows := [], cache := [], cacheWait := [] },
    eth := { ports := [], counters := [], trained := [] },
    par := { setA := [], setB := [], hitsA := [], hitsB := [], genA := 1, genB := 0, activeB := false, drained := true,
             waits := [], frags := [], tokens := [], ingest := [], mgmtAbove := false,
             recirc := [] },
    qm := { queues := [], xoff := false, nextFrame := 0, ingress := [], ingAbove := [], spill := 0, fstop := 0,
            vt := [], gates := [], tx := [], wire := [], rxBufs := [] },
    mem := [],
    prot := { poisoned := [], retired := [], banks := [], badChans := [], waiting := [], drt := [],
              reserve := [] },
    bun := { bufs := [], pools := [] },
    dma := { chans := [], last := [], first := none, timers := [] },
    mgmt := { slotA := ⟨3, 0, []⟩, slotB := ⟨0, 0, []⟩, writer := 0, fwResult := 0, ownerKey := none, config := none,
              order := none, keys := [], challenge := none, challengeData := [], wdog := none, hostSeen := false,
              readyAt := none, waitS := 0, beatAt := 0, beatLost := false, restarting := false, resetDue := none,
              measures := List.replicate 8 0, fuses := 0, fwVersion := 0, minPatchSv := 0, sealKey := 0 },
    pm := { cycles := [], fracs := [], counters := [], latch := [], acc := [], window := none },
    pins := { porN := true, perstN := true, sysResetN := true, pinStraps := 0, inReset := false, thermalHold := false,
              internal := false, dreq := 0, smbAlert := false, wakeN := false, faultN := false, ppsOut := false,
              fatalStop := false, jtagIr := 0, bsr := 0, debugOpen := false },
    freeCtr := 0, out := [] }

/-- The machine after power-on reset, with an empty queue. -/
def State.reset : State := { dev := devReset, pending := [] }

end Sys2Proof.Machine
end

