-- ==== Sys2Proof/Machine/Flags.lean ====
section
/-! DEFINITION. Reading and changing registers, their fields, sequence-cleared flags and counters (R90, R98), and the
free values. -/

namespace Sys2Proof.Machine

/-- The register at a held address, as a word. -/
def Dev.regW (d : Dev) (a : Nat) : W32 := SMap.get regReset d.regs a

/-- The register at a held address, as a number. -/
def Dev.reg (d : Dev) (a : Nat) : Nat := (d.regW a).toNat

/-- Bits `hi` to `lo` of a register. -/
def Dev.fld (d : Dev) (a hi lo : Nat) : Nat := bits (d.reg a) hi lo

/-- Bit `b` of a register. -/
def Dev.flag (d : Dev) (a b : Nat) : Bool := bit (d.reg a) b

/-- A register replaced. -/
def Dev.setReg (d : Dev) (a v : Nat) : Dev :=
  { d with regs := SMap.set regReset d.regs a (BitVec.ofNat 32 v) }

/-- A field of a register replaced. -/
def Dev.setFld (d : Dev) (a hi lo x : Nat) : Dev := d.setReg a (putBits (d.reg a) hi lo x)

/-- A bit of a register replaced. -/
def Dev.setFlag (d : Dev) (a b : Nat) (on : Bool) : Dev := d.setFld a b b (b2n on)

/-- Events set bits of an SQC register in one cycle: the bits of `mask` become 1, and SEQ rises by 1 when one of them
was 0 (R98). -/
def Dev.setEvents (d : Dev) (a mask : Nat) : Dev :=
  if (d.reg a) &&& mask = mask then d
  else d.setReg a (putBits ((d.reg a) ||| mask) 31 24 (d.fld a 31 24 + 1))

/-- An event sets bit `b` of an SQC register (R98). -/
def Dev.setEvent (d : Dev) (a b : Nat) : Dev := d.setEvents a (2 ^ b)

/-- A software clear of an SQC register in window `win`: the masked bits clear when the written SEQ is the current one;
otherwise STALE_CLEAR sets (R98). -/
def Dev.clearEvents (d : Dev) (win a v : Nat) : Dev :=
  if bits v 31 24 = d.fld a 31 24 then d.setReg a (d.reg a - (d.reg a &&& bits v 23 0))
  else d.setEvent (Reg.BLK_STATUS win) 1

/-- Whether a clear of an SQC register with this value is accepted (R98). -/
def Dev.clearFits (d : Dev) (a v : Nat) : Bool := bits v 31 24 = d.fld a 31 24

/-- A 32-bit counter register takes `n` more, modulo 2^32. -/
def Dev.count (d : Dev) (a n : Nat) : Dev := d.setReg a (d.reg a + n)

/-- A counter field takes `n` more, modulo its width. -/
def Dev.countFld (d : Dev) (a hi lo n : Nat) : Dev := d.setFld a hi lo (d.fld a hi lo + n)

/-- A counter field takes `n` more, saturating. -/
def Dev.satFld (d : Dev) (a hi lo n : Nat) : Dev := d.setFld a hi lo (satAdd (hi + 1 - lo) (d.fld a hi lo) n)

/-- Set CFG_REJECTED of a window (R9, R91, R95). -/
def Dev.reject (d : Dev) (win : Nat) : Dev := d.setEvent (Reg.BLK_STATUS win) 0

/-- The next free value (DESIGN CHOICE, log entry 1). -/
def Dev.freeNat (d : Dev) : Nat := Config.freeValue d.freeCtr

/-- A free value has been used. -/
def Dev.useFree (d : Dev) : Dev := { d with freeCtr := d.freeCtr + 1 }

/-- The device puts something out. -/
def Dev.emit (d : Dev) (o : Output) : Dev := { d with out := d.out ++ [o] }

end Sys2Proof.Machine
end

