-- ==== Sys2Proof/Machine/Ops.lean ====
section
/-! DEFINITION. The shared operations of the device: what a command acts under, time, host memory, faults, monitors
and the data space. -/

namespace Sys2Proof.Machine

/-! ### What a command acts under -/

/-- A command whose effect nothing stops, reset and FATAL_STOP included. -/
def State.raw (s : State) (f : Dev → Dev) : Host.Outcome State Fault Refusal := .next { s with dev := f s.dev }

/-- The pins after a command that leaves them at `q`: the reset inputs and the reset itself belong to the reset commands
alone (R534, R535), and nothing but a reset ends FATAL_STOP (R471). -/
def Pins.hold (p q : Pins) : Pins :=
  { q with porN := p.porN, perstN := p.perstN, sysResetN := p.sysResetN, inReset := p.inReset,
           thermalHold := p.thermalHold, internal := p.internal, fatalStop := p.fatalStop || q.fatalStop }

/-- A device after a command that is no reset. -/
def Dev.under (d e : Dev) : Dev := { e with pins := d.pins.hold e.pins }

/-- A command that acts unless the device is held in reset (R531, R535). -/
def State.keep (s : State) (f : Dev → Dev) : Host.Outcome State Fault Refusal :=
  s.raw fun d => if d.pins.inReset then d else d.under (f d)

/-- A command of the data path or of a ring: it acts unless the device is held in reset or is in FATAL_STOP (R471). -/
def State.act (s : State) (f : Dev → Dev) : Host.Outcome State Fault Refusal :=
  s.raw fun d => if d.pins.inReset || d.pins.fatalStop then d else d.under (f d)

/-! ### What monitor counters take (R510-R514) -/

/-- Attributes of a monitor event (R511): level, requester, page, class. -/
structure PmAttr where
  p : Option Nat
  r : Option Nat
  a : Option Nat
  c : Option Nat
  deriving DecidableEq, Repr

/-- An event without attributes. -/
def pmNone : PmAttr := ⟨none, none, none, none⟩

/-- Whether an attribute that must be present passes a test. -/
def optTest (en : Bool) (v : Option Nat) (t : Nat → Bool) : Bool :=
  !en || match v with
    | some x => t x
    | none => false

/-- Whether an event passes a unit's filter (R512). -/
def Dev.pmPass (d : Dev) (u : Nat) (x : PmAttr) : Bool :=
  let c := d.reg (Reg.PM_FILT_CTRL u)
  let q := d.reg (Reg.PM_FILT_REQ u)
  optTest (bit c 0) x.p (fun v => bit c (16 + v)) &&
  optTest (bit c 1) x.r (fun v => v &&& bits q 15 0 == bits q 31 16 &&& bits q 15 0) &&
  optTest (bit c 2) x.a (fun v => decide (d.fld (Reg.PM_FILT_ADDR_LO u) 25 0 ≤ v) &&
    decide (v ≤ d.fld (Reg.PM_FILT_ADDR_HI u) 25 0)) &&
  optTest (bit c 3) x.c (fun v => v &&& bits c 8 6 == bits c 11 9 &&& bits c 8 6)

/-- Whether counter `k` takes its own event: it counts, and no chain feeds it (R510, R514). -/
def Dev.pmTakes (d : Dev) (u k code : Nat) (x : PmAttr) : Bool :=
  let e := d.reg (Reg.PM_EVT u k)
  bit e 31 && bits e 7 0 == code && (!bit e 30 || d.pmPass u x) && !(decide (0 < k) && d.flag (Reg.PM_EVT u (k - 1)) 29)

/-- Counters of unit `u` after `n` events of code `code` that come with the passing of time or with traffic: their sums run
on, and PM_OVERFLOW, the table's row for it, brings one that has passed 2^48 - 1 back (DESIGN CHOICE, log entry 101). -/
def Dev.pmRun (d : Dev) (u code n : Nat) (x : PmAttr) (p : Pm) : Pm :=
  { p with counters := (List.range 8).foldl (fun m k =>
      if d.pmTakes u k code x then SMap.upd (fun _ => 0) m (8 * u + k) (fun v => v + n) else m) p.counters }

/-- The device's own work, at level 0 and of no requester that R410 names (R511). -/
def pmSelf : PmAttr := ⟨some 0, none, none, none⟩

/-- The requester of function `f` at a level. -/
def pmFn (level f : Nat) : PmAttr := ⟨some level, some (0x1000 + f), none, none⟩

/-- The requester of the DMA engine at its level (R410, R511). -/
def pmDma : PmAttr := ⟨some 1, some 0x3010, none, none⟩

/-- Reads of host memory that a channel of the DMA engine has in flight. -/
def DmaDesc.hostReads (y : DmaDesc) : Nat :=
  (y.flight.filter fun f => f.2.2 == 2 || (f.2.2 == 0 && !bit (Desc.byte y.desc 8) 0)).length

/-- What occurs in every cycle of unit `u` as the device stands (R510): code, count and attributes. Pairs that hold a region
are busy, and one whose Coupling Buffer is empty stalls its consumer (R219). -/
def Dev.perCycle (d : Dev) (u : Nat) : List (Nat × Nat × PmAttr) :=
  (0x01, 1, pmNone) ::
  if u < 16 then
    (d.media.pairs.filter fun e => e.1 / 4 == u).flatMap fun e => match e.2.ctx with
      | some c => (0x10, 1, ⟨none, some (0x2000 + c), none, none⟩) ::
          if e.2.cb.recs.isEmpty then [(0x12, 1, ⟨none, some (0x2000 + c), none, none⟩)] else []
      | none => []
  else if u < 24 then
    if (SMap.get (fun _ => memCtlReset) d.mem (u - 16)).panicAt.any Option.isSome then [(0x24, 1, pmNone)] else []
  else if u = 28 then
    [(0x42, (d.dma.chans.flatMap fun c => c.2.descs.map DmaDesc.hostReads).sum, pmDma)]
  else []

/-- The counters of unit `u` after `n` cycles of its domain. -/
def Dev.pmCycles (d : Dev) (u n : Nat) (p : Pm) : Pm :=
  if d.flag Reg.PM_CTRL 0 then (d.perCycle u).foldl (fun q e => d.pmRun u e.1 (n * e.2.1) e.2.2 q) p else p

/-! ### Time -/

/-- 2^-16 ns units of a second, a microsecond and a nanosecond. -/
def unitsPerSec : Nat := 1000000000 * 65536
def unitsPerUs : Nat := 1000 * 65536
def unitsPerNs : Nat := 65536

/-- The 64-bit DT stamp of an instant (R30). -/
def dtStamp (t : Nat) : Nat := t / unitsPerSec % 2 ^ 32 * 2 ^ 32 + t % unitsPerSec / 65536

/-- The 96-bit DT of an instant (R29). -/
def dt96 (t : Nat) : Nat := t / unitsPerSec % 2 ^ 48 * 2 ^ 48 + t % unitsPerSec

/-- The instant of a 96-bit DT. -/
def ofDt96 (v : Nat) : Nat := v / 2 ^ 48 * unitsPerSec + v % 2 ^ 48

/-- Whether a 96-bit DT keeps its NANOSECONDS in range (R29). -/
def dt96Ok (v : Nat) : Bool := v / 65536 % 2 ^ 32 < 1000000000

/-- The instant of a full DT as a structure's 12 bytes hold it (R30). -/
def Desc.dt (d : Desc) (k : Nat) : Nat := Desc.le d k 12

/-- Whether an event due at `due` that fires at `now` is LATE, at the default tolerance of 1 µs (R45, R32). -/
def isLate (due now : Nat) : Bool := decide (due + unitsPerUs < now)

/-- Cycles, in 1/125, that one TIME cycle gives a monitor unit's domain (R22, R509). -/
def pmRate (point hbm : Nat → Nat) (u : Nat) : Nat :=
  if u < 16 then [240, 192, 144].getD (point (u / 4)) 240
  else if u < 24 then [256, 192, 128].getD (hbm (u - 16)) 256
  else if u < 28 then 320
  else if u < 30 then 160
  else if u < 39 then 256
  else 192

/-- A tile, a flow's or a controller's record, reading as at reset where none is listed. -/
def Dev.tile (d : Dev) (t : Nat) : Tile := SMap.get (fun _ => tileReset) d.media.tiles t
def Dev.setTile (d : Dev) (t : Nat) (x : Tile) : Dev :=
  { d with media := { d.media with tiles := SMap.set (fun _ => tileReset) d.media.tiles t x } }
def Dev.ctl (d : Dev) (s : Nat) : MemCtl := SMap.get (fun _ => memCtlReset) d.mem s
def Dev.setCtl (d : Dev) (s : Nat) (x : MemCtl) : Dev :=
  { d with mem := SMap.set (fun _ => memCtlReset) d.mem s x }

/-- The cycle counters, and the counters of what occurs in every cycle, after `n` more TIME cycles (R509, R510). -/
def pmAdvance (d : Dev) (n : Nat) : List Nat → Pm → Pm
  | [], p => p
  | u :: r, p =>
    let tot := SMap.get (fun _ => 0) p.fracs u +
      n * pmRate (fun t => (d.tile t).point) (fun s => d.fld (Reg.MC_STATE s) 31 30) u
    pmAdvance d n r (d.pmCycles u (tot / 125)
      { p with cycles := SMap.upd (fun _ => 0) p.cycles u (fun c => wrapAdd 64 c (tot / 125)),
               fracs := SMap.set (fun _ => 0) p.fracs u (tot % 125) })

/-- The pins at DT `t`: a pulse on TIME_PPS_OUT ends after its 100 ms (R32). -/
def Dev.pinsAt (d : Dev) (t : Nat) : Pins :=
  { d.pins with ppsOut := d.pins.ppsOut && !d.tb.ppsFall.any fun e => decide (e ≤ t) }

/-- `n` TIME cycles pass: DT takes its increment on each (R30, R31), every cycle counter runs, and TIME_PPS_OUT falls when
its time has come. -/
def Dev.cyclesPass (d : Dev) (n : Nat) : Dev :=
  { d with tb := { d.tb with dt := d.tb.dt + n * d.tb.inc }, pm := pmAdvance d n (List.range 40) d.pm,
           pins := d.pinsAt (d.tb.dt + n * d.tb.inc) }

/-- Time passes to the first TIME cycle in which DT is at or after `t` (R44); none passes if DT is there already. -/
def Dev.advanceTo (d : Dev) (t : Nat) : Dev :=
  if d.tb.dt < t then d.cyclesPass (ceilDiv (t - d.tb.dt) (max d.tb.inc 1)) else d

/-- A scheduled time more than 2^47 seconds from DT is treated as past (R46). -/
def Dev.due (d : Dev) (t : Nat) : Nat := if d.tb.dt + 2 ^ 47 * unitsPerSec < t then d.tb.dt else t

/-- Whether an event due at `t` that fires now is LATE (R45); a time that R46 treats as past is. -/
def Dev.late (d : Dev) (t : Nat) : Bool := isLate t d.tb.dt || decide (d.tb.dt + 2 ^ 47 * unitsPerSec < t)

/-- Time passes to a scheduled time (R44, R46). -/
def Dev.advanceDue (d : Dev) (t : Nat) : Dev := d.advanceTo (d.due t)

/-! ### Host memory -/

/-- The canonical form of a memory: addresses strictly rise, and no entry holds 0, which an unlisted byte reads as. -/
def Memory.wf (m : SMap Byte) : Bool := SMap.wf (fun _ => 0) m

/-- `n` bytes of host memory from `a`. -/
def Dev.hostRead (d : Dev) (a n : Nat) : List Byte :=
  (List.range n).map fun i => SMap.get (fun _ => 0) d.hostMem (a + i)

/-- A little-endian number in host memory. -/
def Dev.hostNum (d : Dev) (a n : Nat) : Nat := leNum (d.hostRead a n)

/-- Bytes put into a sparse memory. -/
def putBytes : SMap Byte → Nat → List Byte → SMap Byte
  | m, _, [] => m
  | m, a, b :: r => putBytes (SMap.set (fun _ => 0) m a b) (a + 1) r

/-- Bytes written to host memory. -/
def Dev.hostWrite (d : Dev) (a : Nat) (l : List Byte) : Dev := { d with hostMem := putBytes d.hostMem a l }

/-- What software has stored becomes visible. -/
def Dev.hostStores (d : Dev) : Stores → Dev
  | [] => d
  | (a, l) :: r => (d.hostWrite a l).hostStores r

/-! ### Monitors -/

/-- Counter `k` of unit `u` adds `n`; an overflow sets its bit and carries along a chain (R514). -/
def Dev.pmAdd (d : Dev) (u : Nat) : Nat → Nat → Nat → Dev
  | 0, _, _ => d
  | fuel + 1, k, n =>
    let v := SMap.get (fun _ => 0) d.pm.counters (8 * u + k) + n
    let d1 := { d with pm := { d.pm with counters := SMap.set (fun _ => 0) d.pm.counters (8 * u + k) (v % 2 ^ 48) } }
    if v < 2 ^ 48 then d1
    else
      let d2 := d1.setEvent (Reg.PM_OVF u) k
      if d.flag (Reg.PM_EVT u k) 29 && decide (k < 7) then Dev.pmAdd d2 u fuel (k + 1) 1 else d2

/-- An event of code `code` occurs `n` times in unit `u` (R510). -/
def Dev.pmEvent (d : Dev) (u code n : Nat) (x : PmAttr) : Dev :=
  if d.flag Reg.PM_CTRL 0 then
    (List.range 8).foldl (fun e k => if d.pmTakes u k code x then e.pmAdd u 8 k n else e) d
  else d

/-- Bytes for the open bandwidth window of the register at `a` (R519). -/
def Dev.bwAdd (d : Dev) (a n : Nat) : Dev :=
  if d.flag Reg.PM_CTRL 0 then
    { d with pm := { d.pm with acc := SMap.upd (fun _ => 0) d.pm.acc a (fun v => wrapAdd 64 v n) } }
  else d

/-- The device reads or writes `n` bytes of host memory for a requester: the payload that PCIe carries (R510, R519). -/
def Dev.pcieIn (d : Dev) (n : Nat) (x : PmAttr) : Dev :=
  if d.flag Reg.PM_CTRL 0 then
    let e := d.bwAdd Reg.PM_BW_PCIE_RX_LO n
    { e with pm := d.pmRun 28 0x41 1 x (d.pmRun 28 0x40 n x e.pm) }
  else d
def Dev.pcieOut (d : Dev) (n : Nat) (x : PmAttr) : Dev :=
  if d.flag Reg.PM_CTRL 0 then
    let e := d.bwAdd Reg.PM_BW_PCIE_TX_LO n
    { e with pm := d.pmRun 29 0x40 n x e.pm }
  else d

/-- Bytes that the device writes to host memory for a requester. -/
def Dev.hostPut (d : Dev) (x : PmAttr) (a : Nat) (l : List Byte) : Dev := (d.pcieOut l.length x).hostWrite a l

/-! ### Faults (R458-R472) -/

/-- Whether a sticky bit that `p` chooses is 1. -/
def Dev.stickyAny (d : Dev) (p : Nat → Bool) : Bool :=
  (List.range 640).any fun s => d.flag (Reg.FC_STICKY (s / 24)) (s % 24) && p s

/-- Whether a source is masked (R464). -/
def Dev.fcMasked (d : Dev) (s : Nat) : Bool := d.flag (Reg.FC_MASK (s / 32)) (s % 32)

/-- The level of FAULT_N: low while an unmasked sticky bit has PIN_SEV or more (R468). -/
def Dev.pinFault (d : Dev) : Dev :=
  { d with pins := { d.pins with
      faultN := d.stickyAny fun s => !d.fcMasked s &&
        decide (d.fld Reg.FC_CTRL 2 0 ≤ (fcSeverity s).getD 0) } }

/-- The Masthead takes a fault: the first one is recorded, a later one counts (R465). -/
def Dev.masthead (d : Dev) (src sev info : Nat) : Dev :=
  if d.flag Reg.FC_MH_SRC 31 then
    (d.setFlag Reg.FC_MH_SRC 30 true).count Reg.FC_MH_COUNT 1
  else
    let t := dt96 d.tb.dt
    ((((((d.setReg Reg.FC_MH_SRC (2 ^ 31 + sev * 2 ^ 16 + src)).setReg Reg.FC_MH_DT0 t).setReg
      Reg.FC_MH_DT1 (t / 2 ^ 32)).setReg Reg.FC_MH_DT2 (t / 2 ^ 64)).setReg
      Reg.FC_MH_INFO_LO info).setReg Reg.FC_MH_INFO_HI (info / 2 ^ 32))

/-- The bytes of a log record with number `seq` (R475). -/
def logBytes (type seq stamp : Nat) (body : List Byte) : List Byte :=
  let rest := leBytes 4 seq ++ leBytes 8 stamp ++ body
  leBytes 1 1 ++ leBytes 1 type ++ leBytes 2 (crc32 rest) ++ rest

/-- The body of a FAULT record (R475). -/
def faultBody (src sev info : Nat) (mast after : Bool) : List Byte :=
  leBytes 2 src ++ leBytes 1 sev ++ leBytes 1 (info / 2 ^ 63 % 2 + 2 * b2n mast + 4 * b2n after) ++ leBytes 4 0 ++
  leBytes 8 info

/-- The instant that the Masthead holds. -/
def Dev.mastDt (d : Dev) : Nat :=
  ofDt96 (d.reg Reg.FC_MH_DT0 + d.reg Reg.FC_MH_DT1 * 2 ^ 32 + d.reg Reg.FC_MH_DT2 * 2 ^ 64)

/-- The information that the Masthead holds. -/
def Dev.mastInfo (d : Dev) : Nat := d.reg Reg.FC_MH_INFO_LO + d.reg Reg.FC_MH_INFO_HI * 2 ^ 32

/-- DT_STAMPs and bodies of FAULT records for a valid Masthead and for every sticky bit in rising order (R471, R474).
A sticky bit keeps no source information: the information is a free value, the `k`-th from `n` on (DEDUCED, log entry 23). -/
def Dev.stickyRecords (d : Dev) (after : Bool) : List (Nat × List Byte) :=
  let head := if d.flag Reg.FC_MH_SRC 31 then
      [(dtStamp d.mastDt, faultBody (d.fld Reg.FC_MH_SRC 9 0) (d.fld Reg.FC_MH_SRC 18 16) d.mastInfo true after)] else []
  let set := (List.range 640).filter fun s => d.flag (Reg.FC_STICKY (s / 24)) (s % 24)
  head ++ set.zipIdx.map fun x =>
    (dtStamp d.tb.dt, faultBody x.1 ((fcSeverity x.1).getD 0) (Config.freeValue (d.freeCtr + x.2)) false after)

/-- Free values that the records of the sticky bits take. -/
def Dev.usedBySticky (d : Dev) : Dev :=
  { d with freeCtr := d.freeCtr +
      ((List.range 640).filter fun s => d.flag (Reg.FC_STICKY (s / 24)) (s % 24)).length }

/-- Whether a FATAL fault leaves the management cores running (R471): not one of the REF or MGMT clock or of management SRAM
that its block has seen (R472). -/
def coresRun (src info : Nat) : Bool := !(src == 0 || src == 1 || src == 30) || bit info 63

/-- FATAL_STOP begins (R471). Ndelia firmware, if its cores run, writes the Masthead and every sticky bit to the flash log
before anything else. -/
def Dev.fatalStop (d : Dev) (src info : Nat) : Dev :=
  let e := { d with pins := { d.pins with fatalStop := true } }.setFlag Reg.FC_STATE 0 true
  if d.pins.fatalStop || d.mgmt.restarting || d.fld Reg.MGMT_BOOT 2 0 != 3 || !coresRun src info then e
  else
    let recs := (d.stickyRecords false).map fun x => (⟨0, logBytes 1 0 x.1 x.2, false⟩ : LogRec)
    { e.usedBySticky with fc := { e.fc with flashWait := recs ++ e.fc.flashWait } }

/-- A source raises (R462, R470): a reserved source never does (R460). -/
def Dev.raise (d : Dev) (src info : Nat) : Dev :=
  match fcSeverity src with
  | none => d
  | some sev =>
    let d1 := ((d.setEvent (Reg.FC_STICKY (src / 24)) (src % 24)).count (Reg.FC_COUNT sev) 1).masthead src sev info
    let d2 := if d1.fc.queue.length < 64 then
        { d1 with fc := { d1.fc with queue := d1.fc.queue ++ [⟨src, sev, d1.tb.dt, info⟩] } }
      else d1.count Reg.FC_QUEUE_DROPS 1
    let d3 := if sev = 4 then d2.fatalStop src info else d2
    d3.pinFault

/-- A condition source raises at the start of its condition, which then holds (R461). -/
def Dev.condStart (d : Dev) (src info : Nat) : Dev :=
  if (SMap.find d.fc.conds src).isSome then d
  else ({ d with fc := { d.fc with conds := SMap.insert d.fc.conds src info } }).raise src info

/-- A condition ends. -/
def Dev.condEnd (d : Dev) (src : Nat) : Dev := { d with fc := { d.fc with conds := SMap.erase d.fc.conds src } }

/-- A BAR0 access is refused: a NOTE fault and a count (R87, R89). -/
def Dev.bar0Refuse (d : Dev) : Dev := (d.count Reg.GLB_BAR0_REFUSED 1).raise 51 0

/-- An access of function `f` that the protection set-up refuses is counted (R52, R64, R453). -/
def Dev.protCount (d : Dev) (f : Nat) : Dev := d.satFld (Reg.FN_LOAD f) 31 16 1

/-! ### The data space (R365-R388, R402) -/

/-- Bytes of the data space. -/
def dataSpace : Nat := 192 * 2 ^ 30

/-- Quarters that a section in mode `m` gives tile `t` (R365). -/
def quarterOf (m t : Nat) : Nat := if m = 0 then 1 else if m = t + 4 then 4 else 0

/-- Q(t, s) of R365. -/
def Dev.quarters (d : Dev) (t : Nat) : Nat → Nat
  | 0 => 0
  | s + 1 => d.quarters t s + quarterOf (d.fld (Reg.MEM_SECTION s) 2 0) t

/-- Tile and index j of a page (R366). -/
def Dev.pagePlace (d : Dev) (p : Nat) : Nat × Nat :=
  let s := p / 0x40000
  let m := d.fld (Reg.MEM_SECTION s) 2 0
  if m = 0 then (p % 4, d.quarters (p % 4) s * 65536 + p % 0x40000 / 4)
  else (m - 4, d.quarters (m - 4) s * 65536 + p % 0x40000)

/-- N_t of R366. -/
def Dev.ranks (d : Dev) (t : Nat) : Nat := max (d.fld (Reg.MAP_TILE t) 19 16) 1

/-- Tile, logical rank and frame of a page before retirement (R366). -/
def Dev.pageLogical (d : Dev) (p : Nat) : Nat × Nat × Nat :=
  let x := d.pagePlace p
  (x.1, x.2 % d.ranks x.1, x.2 / d.ranks x.1)

/-- Physical rank and frame that hold a page (R366, R369, R395). -/
def Dev.pageFrame (d : Dev) (p : Nat) : Nat × Nat :=
  let x := d.pageLogical p
  (d.fld (Reg.RANK_MAP (8 * x.1 + x.2.1)) 4 0,
    match SMap.find d.prot.retired p with
    | some f => f
    | none => x.2.2)

/-- Whether a frame is POISONED (R402). -/
def Dev.framePoison (d : Dev) (rank frame : Nat) : Bool :=
  SMap.get (fun _ => false) d.prot.poisoned (rank * 2 ^ 21 + frame)

/-- Whether a page is POISONED. -/
def Dev.pagePoison (d : Dev) (p : Nat) : Bool :=
  d.framePoison (d.pageFrame p).1 (d.pageFrame p).2

/-- Pages that `n` bytes from `a` touch. -/
def pagesOf (a n : Nat) : List Nat :=
  if n = 0 then [] else (List.range ((a + n - 1) / 4096 - a / 4096 + 1)).map (a / 4096 + ·)

/-- Whether `n` bytes from `a` touch a POISONED page. -/
def Dev.rangePoison (d : Dev) (a n : Nat) : Bool :=
  !d.prot.poisoned.isEmpty && (pagesOf a n).any d.pagePoison

/-- Whether a stack, or its tile, has stopped responding (R20). -/
def Dev.stackLost (d : Dev) (s : Nat) : Bool := d.fld (Reg.MC_STATE s) 18 16 == 5 || (d.tile (s / 2)).stopped

/-- Whether a page lies on a stack that has stopped: an access of it returns an error response (R20). -/
def Dev.pageLost (d : Dev) (p : Nat) : Bool := d.stackLost ((d.pageFrame p).1 / 4)

/-- Whether `n` bytes from `a` touch such a page. -/
def Dev.rangeLost (d : Dev) (a n : Nat) : Bool := ((List.range 8).any d.stackLost) && (pagesOf a n).any d.pageLost

/-- A read that touches a POISONED page is counted (R402). -/
def Dev.poisonRead (d : Dev) (a n : Nat) : Dev := if d.rangePoison a n then d.count (Reg.MEM_COUNT 3) 1 else d

/-- `n` bytes of the data space from `a`. -/
def Dev.dataRead (d : Dev) (a n : Nat) : List Byte :=
  (List.range n).map fun i => SMap.get (fun _ => 0) d.dataMem (a + i)

/-- A write to the data space in which no page is POISONED. -/
def Dev.dataPut (d : Dev) (a : Nat) (l : List Byte) : Dev := { d with dataMem := putBytes d.dataMem a l }

/-- Bytes that a write keeps: those whose page is neither POISONED nor on a stack that has stopped. -/
def Dev.dataPutClean (d : Dev) : Nat → List Byte → Dev
  | _, [] => d
  | a, b :: r =>
    let e := if d.pagePoison (a / 4096) || d.pageLost (a / 4096) then d
      else { d with dataMem := SMap.set (fun _ => 0) d.dataMem a b }
    e.dataPutClean (a + 1) r

/-- A write to the data space: bytes of a POISONED page are discarded and the write is counted for each such page
(R402); those of a page on a stopped stack are answered with an error response and lost (R20; DEDUCED, log entry 73). -/
def Dev.dataWrite (d : Dev) (a : Nat) (l : List Byte) : Dev :=
  if d.rangePoison a l.length || d.rangeLost a l.length then
    (d.dataPutClean a l).count (Reg.MEM_COUNT 4) ((pagesOf a l.length).filter d.pagePoison).length
  else d.dataPut a l

end Sys2Proof.Machine
end

