-- ==== Sys2Proof/Machine/GateOps.lean ====
section
/-! DEFINITION. Staged copies of LIVE registers (R93-R97) and the time gates of the ports (spec/14_queues_scheduling.md
R354-R357): where a list stands, its start, its guard band, and a step of DT. -/

namespace Sys2Proof.Machine

/-! ### Staged copies (R93, R97) -/

/-- The staged copy of a LIVE register. -/
def Dev.stagedReg (d : Dev) (a : Nat) : Nat :=
  match SMap.find d.staged a with
  | some v => v.toNat
  | none => d.reg a

/-- Whether unit `u` of window `w` has applied the commit that is pending. -/
def Dev.hasApplied (d : Dev) (w u : Nat) : Bool := SMap.get (fun _ => false) d.applied (4096 * w + u)

/-- The value of a LIVE register that unit `u` of window `w` works with. -/
def Dev.liveReg (d : Dev) (w u a : Nat) : Nat := if d.hasApplied w u then d.stagedReg a else d.reg a

/-! ### A list in time (R354) -/

/-- Gates of a port at rest: none runs. -/
def gateReset : PortGate := ⟨none, none, 0⟩

def Dev.gate_ (d : Dev) (p : Nat) : PortGate := SMap.get (fun _ => gateReset) d.qm.gates p

/-- The gates of a port change, and GATE_STATUS with them. -/
def Dev.setGate (d : Dev) (p : Nat) (x : PortGate) : Dev :=
  { d with qm := { d.qm with gates := SMap.set (fun _ => gateReset) d.qm.gates p x } }.setReg (Reg.GATE_STATUS p)
    (b2n x.pending.isSome * 2 ^ 31 + b2n x.running.isSome * 2 ^ 30 + x.entry)

/-- Units of a gate interval step of 64 ns, and of a list's cycle. -/
def gateUnit : Nat := 64 * unitsPerNs
def GateList.cycleUnits (g : GateList) : Nat := max 1 (g.cycle * unitsPerNs)

/-- The entry in force at offset `off` of a cycle: its number, its gates, and the offset at which it ends. -/
def gateWalk : List (Nat × Nat) → Nat → Nat → Nat → Nat → Nat × Nat × Nat
  | [], i, _, _, cyc => (i, 0xFF, cyc)
  | [(g, _)], i, _, _, cyc => (i, g, cyc)
  | (g, n) :: r, i, acc, off, cyc =>
    if off < acc + n * gateUnit then (i, g, min (acc + n * gateUnit) cyc) else gateWalk r (i + 1) (acc + n * gateUnit) off cyc

/-- A running list at DT `t`: entry, gates, and the DT at which the entry ends. -/
def GateList.at_ (g : GateList) (t : Nat) : Nat × Nat × Nat :=
  let off := (((t : Int) - g.start) % g.cycleUnits).toNat
  let y := gateWalk g.entries 0 0 off g.cycleUnits
  (y.1, y.2.1, t - off + y.2.2)

/-- The next cycle boundary of a running list after DT `t`. -/
def GateList.boundary (g : GateList) (t : Nat) : Nat := t - (((t : Int) - g.start) % g.cycleUnits).toNat + g.cycleUnits

/-- Whether the gate of class `c` of a port is open from `t` to `t1`, under the schedule as it will run; `n` bounds the
entries looked at (R355). -/
def PortGate.openFor (x : PortGate) (c : Nat) : Nat → Nat → Nat → Bool
  | 0, _, _ => false
  | n + 1, t, t1 =>
    let run := match x.pending with
      | some g => if g.start ≤ t then (if g.entries.isEmpty then none else some g) else x.running
      | none => x.running
    let gates := match run with
      | some g => g.at_ t
      | none => (0, 0xFF, t1)
    let stop := match x.pending with
      | some g => if t < g.start then min g.start gates.2.2 else gates.2.2
      | none => gates.2.2
    bit gates.2.1 c && (decide (t1 ≤ stop) || x.openFor c n (max stop (t + 1)) t1)

/-! ### Starting a list (R356, R357) -/

/-- The first start of a list that is not earlier than `now`, and whether it has moved. -/
def gateStart (base cyc now : Nat) : Nat × Bool :=
  if now ≤ base then (base, false) else (base + ceilDiv (now - base) (max 1 cyc) * max 1 cyc, true)

/-- A list start has moved: LATE_START, and the port. -/
def Dev.gateLate (d : Dev) (p : Nat) : Dev := (d.setEvent Reg.GATE_EVENTS 0).setReg Reg.GATE_LAST p

/-- The list that a port's registers hold, each read by `rd`: the staged copies or the active ones. -/
def gateListOf (rd : Nat → Nat) (p : Nat) : GateList :=
  let base := (rd (Reg.GATE_BASE2 p) % 65536 * 2 ^ 32 + rd (Reg.GATE_BASE1 p)) * unitsPerSec +
    rd (Reg.GATE_BASE0 p) * unitsPerNs
  let n := rd (Reg.GATE_LEN p) % 512
  { base := base, start := base, cycle := rd (Reg.GATE_CYCLE p) % 2 ^ 30,
    entries := (List.range n).map fun e => let v := rd (Reg.GATE_ENTRY p e); (bits v 31 24, bits v 23 0) }

/-- A port takes a list as its pending one and computes its start (R356). -/
def Dev.gatePend (d : Dev) (p : Nat) (g : GateList) : Dev :=
  let y := gateStart g.base g.cycleUnits d.tb.dt
  let d1 := d.setGate p { d.gate_ p with pending := some { g with start := y.1 } }
  if y.2 then d1.gateLate p else d1

/-- At its safe point a port takes the staged list. -/
def Dev.gateTake (d : Dev) (p : Nat) : Dev := d.gatePend p (gateListOf d.stagedReg p)

/-- Whether a staged register of a port's list differs from the active one. -/
def Dev.gateStagedNew (d : Dev) (p : Nat) : Bool :=
  d.staged.any fun e => let o := e.1 - 0xC00000
    e.1 / 0x100000 == 12 && ((decide (0x1000 ≤ o) && decide (o < 0x2000) && (o - 0x1000) / 32 == p) ||
      (decide (0x10000 ≤ o) && decide (o < 0x30000) && (o - 0x10000) / 1024 == p))

/-- The entry of a port's list in force now. -/
def Dev.gateNow (d : Dev) (p : Nat) : Dev :=
  let x := d.gate_ p
  match x.running with
  | some g => d.setGate p { x with entry := (g.at_ d.tb.dt).1 }
  | none => d

/-! ### Guard band and overrun (R355, R357) -/

/-- Rate of a port mode in Gb/s (R298), and the mode and rate of a port. -/
def modeRate (m : Nat) : Nat := [25, 100, 400].getD m 25
def Dev.portMode (d : Dev) (p : Nat) : Nat := d.fld (Reg.LG_CTRL (p / 16)) 5 4
def Dev.portRate (d : Dev) (p : Nat) : Nat := modeRate (d.portMode p)

/-- Time that `n` bits take at a port, in 2^-16 ns. -/
def Dev.bitTime (d : Dev) (p n : Nat) : Nat := n * 65536 / d.portRate p

/-- MAX_FRAME of a port, and the frame limit M_q of a queue that feeds it (R339). -/
def Dev.maxFrame (d : Dev) (p : Nat) : Nat := d.fld (Reg.PORT_CTRL (p / 16) (p % 16)) 31 18
def Dev.frameLimit (d : Dev) (q : Nat) : Nat :=
  let m := d.fld (Reg.QUEUE_LIMIT q) 31 18
  if m = 0 then d.maxFrame (d.fld (Reg.QUEUE_CFG q) 30 24) else m

/-- G_q of R355 in ns. -/
def Dev.guardNs (d : Dev) (p q : Nat) : Nat := ceilDiv ((d.frameLimit q + 20) * 8 * 1025) (1024 * d.portRate p)

/-- Whether the gate of a class lets queue `q` start a frame on port `p` now. -/
def Dev.gateOpen (d : Dev) (p q c : Nat) : Bool :=
  !d.flag Reg.GATE_CTRL 0 || (d.gate_ p).openFor c 512 d.tb.dt (d.tb.dt + d.guardNs p q * unitsPerNs)

/-- Wire bytes of a frame of `n` bytes without FCS: with FCS, padded to 64, and 20 bytes of preamble and gap. -/
def wireBytes (n : Nat) : Nat := max 64 (n + 4) + 20

/-- When a frame on the wire began, on the scale of DT as it stands now. -/
def OnWire.began (w : OnWire) : Nat := ((w.first : Int) + w.shift).toNat

/-- A frame on the wire whose gate is closed, or closes before its end, after a step. -/
def Dev.overruns (d : Dev) (w : OnWire) : Bool :=
  let x := d.gate_ w.port
  d.flag Reg.GATE_CTRL 0 && x.running.isSome &&
    !x.openFor w.tc 512 d.tb.dt (max (d.tb.dt + 1) (w.began + d.bitTime w.port (8 * max 64 (w.frame.data.length + 4))))

/-- A step of DT acts on the gates (R357): entries in force, frames that overrun, and pending lists whose start has
passed. Frames on the wire keep their remaining time. -/
def Dev.gateStep (d : Dev) (x : Int) : Dev :=
  let move (w : OnWire) : OnWire := { w with shift := w.shift + x }
  let d0 := { d with qm := { d.qm with wire := d.qm.wire.map move } }
  let d1 := (SMap.keys d0.qm.gates).foldl (fun e p => e.gateNow p) d0
  let d2 := (d1.qm.wire.filter d1.overruns).foldl (fun (e : Dev) (w : OnWire) =>
    ((e.count Reg.GATE_OVERRUNS 1).setEvent Reg.GATE_EVENTS 1).setReg Reg.GATE_LAST w.port) d1
  (SMap.keys d2.qm.gates).foldl (fun e p =>
    let g := e.gate_ p
    match g.pending with
    | some l =>
      if l.start < e.tb.dt then
        let y := gateStart l.base l.cycleUnits e.tb.dt
        (e.setGate p { g with pending := some { l with start := y.1 } }).gateLate p
      else e
    | none => e) d2

/-! ### Events of a running list (R354, R356) -/

/-- The pending list of a port starts: it runs from entry 0; a list without entries leaves no list. -/
def Dev.gateBegin (d : Dev) (p : Nat) : Dev :=
  let x := d.gate_ p
  match x.pending with
  | none => d
  | some g => d.setGate p ⟨if g.entries.isEmpty then none else some g, none, 0⟩

/-- GATE_CTRL.ENABLE rises: every list that the active registers hold starts afresh; when it falls, no list runs (R354;
DEDUCED, log entry 57). -/
def Dev.gateEnable (d : Dev) (on : Bool) : Dev :=
  let d1 := (SMap.keys d.qm.gates).foldl (fun e p => e.setGate p gateReset) d
  if on then (List.range 128).foldl (fun e p => if e.reg (Reg.GATE_LEN p) % 512 = 0 then e else e.gatePend p (gateListOf e.reg p)) d1 else d1

/-- GATE_ENTRY_ADVANCE (R354): the entry in force ends before its cycle does. -/
def execGateEntryAdvance (port : Nat) (s : State) : Host.Outcome State Fault Refusal :=
  s.act fun d =>
    match (d.gate_ port).running with
    | none => d
    | some g =>
      let y := g.at_ d.tb.dt
      if !d.flag Reg.GATE_CTRL 0 || y.2.2 == g.boundary d.tb.dt then d else (d.advanceTo y.2.2).gateNow port

/-- GATE_LIST_START (R356): at S the pending list becomes the running one. -/
def execGateListStart (port : Nat) (s : State) : Host.Outcome State Fault Refusal :=
  s.act fun d =>
    match (d.gate_ port).pending with
    | none => d
    | some g => if d.flag Reg.GATE_CTRL 0 then (d.advanceDue g.start).gateBegin port else d

end Sys2Proof.Machine
end

