-- ==== Sys2Proof/Machine/PoliceOps.lean ====
section
/-! DEFINITION. The policers: ingress classes 1 to 255 (spec/14_queues_scheduling.md R349), and class 0 for the traffic
towards management (spec/13_parser_classifier.md R333). -/

namespace Sys2Proof.Machine

/-- The register of a policer. -/
def policerReg (c : Nat) : Nat := if c = 0 then Reg.MGMT_POLICE else Reg.POLICER c

/-- Tokens of a policer now, in 2^-16 bytes: what it held, and what has accrued since, up to its depth. -/
def Dev.tokensNow (d : Dev) (c : Nat) : Nat :=
  let x := SMap.get (fun _ => (0, d.par.tokensAt)) d.par.tokens c
  let v := d.reg (policerReg c)
  let up := bits v 31 16 * (d.tb.dt - x.2) / (if c = 0 then 8000 else 800)
  max x.1 (min (bits v 15 0 * 1024 * 65536) (x.1 + up))

/-- A policer's tokens as of now. -/
def Dev.setTokens (d : Dev) (c n : Nat) : Dev :=
  { d with par := { d.par with tokens := SMap.set (fun _ => (0, d.par.tokensAt)) d.par.tokens c (n, d.tb.dt) } }

/-- A frame of `n` bytes with FCS meets a policer: whether it passes; its tokens are taken then. -/
def Dev.police (d : Dev) (c n : Nat) : Dev × Bool :=
  let t := d.tokensNow c
  let shut := c == 0 && d.fld Reg.MGMT_POLICE 31 16 == 0
  if shut || decide (t < n * 65536) then (d.setTokens c t, false) else (d.setTokens c (t - n * 65536), true)

/-- The policers whose registers have staged changes are brought up to date before these act. -/
def Dev.policersNow (d : Dev) : Dev :=
  d.staged.foldl (fun e x =>
    if x.1 = Reg.MGMT_POLICE then e.setTokens 0 (e.tokensNow 0)
    else if Reg.POLICER 1 ≤ x.1 ∧ x.1 ≤ Reg.POLICER 255 then
      let c := (x.1 - Reg.POLICER 0) / 4
      e.setTokens c (e.tokensNow c)
    else e) d

end Sys2Proof.Machine
end

