-- ==== Sys2Proof/Machine/LiveOps.lean ====
section
/-! DEFINITION. COMMIT, DISCARD and safe points of LIVE registers (spec/04_register_behaviour.md R93-R97). -/

namespace Sys2Proof.Machine

/-- ENABLE of a block window: bit 0 of its first register (R91). -/
def Dev.enabled (d : Dev) (w : Nat) : Bool := d.flag (w * 0x100000) 0

/-- Windows with LIVE fields (R97). -/
def liveWindow (w : Nat) : Bool :=
  [3, 5, 7, 9, 10, 11, 12].contains w || (decide (16 ≤ w) && decide (w < 24)) || (decide (36 ≤ w) && decide (w < 48))

/-- Units of a window that reach their safe points separately (R97): vectors, ports, the pairs of a tile, or the window as
one. -/
def liveUnits (w : Nat) : Nat :=
  if w = 3 then 2048 else if w = 11 ∨ w = 12 then 128 else if 36 ≤ w ∧ w < 40 then 16 else 1

/-- Whether unit `u` of window `w` has no work in progress, and so is at its safe point now (R96, R97): a pair without a
picture, a controller without a request, an engine without a transaction in flight. -/
def Dev.atSafe (d : Dev) (w u : Nat) : Bool :=
  !d.enabled w ||
  if w = 3 then (SMap.get (fun _ => none) d.intc.modHeld u).isNone
  else if w = 5 then d.dma.chans.all fun e => e.2.descs.all fun x => x.flight.isEmpty
  else if w = 7 then d.pm.window.isNone
  else if w = 11 then !(d.qm.wire.any fun x => x.port == u)
  else if w = 12 then (d.gate_ u).running.isNone
  else if 16 ≤ w ∧ w < 24 then
    d.dlv.streams.all fun e => e.2.seg != w - 16 || (e.2.open_.all fun g => g.frag.isEmpty)
  else if 36 ≤ w ∧ w < 40 then !d.flag (Reg.PXE_BUSY (w - 36)) u
  else if 40 ≤ w ∧ w < 48 then (d.ctl (w - 40)).held.isEmpty
  else true

/-- The commit of a window is applied: active copies take the staged ones (R93). -/
def Dev.commitDone (d : Dev) (w : Nat) : Dev :=
  let mine := d.staged.filter fun e => e.1 / 0x100000 == w
  let d1 := mine.foldl (fun e x => e.setReg x.1 x.2.toNat) d
  let d2 := { d1 with staged := d1.staged.filter (fun e => e.1 / 0x100000 != w),
                      applied := d1.applied.filter fun e => e.1 / 4096 != w }
  ((d2.setFld (Reg.BLK_STATE w) 1 0 0).countFld (Reg.BLK_STATE w) 31 16 1)

/-- What a unit does with the staged set at its safe point: a port of window 12 whose list has changed takes it, and the
policers whose registers change are brought up to date (R349). -/
def Dev.takeUnit (d : Dev) (w u : Nat) : Dev :=
  if w = 12 && d.enabled 12 && d.gateStagedNew u then d.gateTake u
  else if w = 9 then d.policersNow
  else d

/-- Unit `u` of window `w` reaches its safe point while a commit is pending (R97). -/
def Dev.safePoint (d : Dev) (w u : Nat) : Dev :=
  if !d.flag (Reg.BLK_STATE w) 0 || decide (liveUnits w ≤ u) || d.hasApplied w u then d
  else
    let d1 := d.takeUnit w u
    let d2 := { d1 with applied := SMap.set (fun _ => false) d1.applied (4096 * w + u) true }
    if (List.range (liveUnits w)).all (d2.hasApplied w) then d2.commitDone w else d2

/-- Every unit of a window reaches its safe point: ENABLE has fallen, or the block is idle (R96). -/
def Dev.safeAll (d : Dev) (w : Nat) : Dev :=
  if d.flag (Reg.BLK_STATE w) 0 then
    ((List.range (liveUnits w)).foldl (fun e u => if e.hasApplied w u then e else e.takeUnit w u) d).commitDone w
  else d

/-- COMMIT (R93, R96): units at their safe points apply the staged set at once. -/
def Dev.commitWin (d : Dev) (w : Nat) : Dev :=
  if !liveWindow w || d.flag (Reg.BLK_STATE w) 0 then d
  else
    let e := d.setFlag (Reg.BLK_STATE w) 0 true
    let l := List.range (liveUnits w)
    if l.all (d.atSafe w) then e.safeAll w else (l.filter (d.atSafe w)).foldl (fun x u => x.safePoint w u) e

/-- DISCARD (R95): the staged copies take the active values back, unless a commit is pending. -/
def Dev.discardWin (d : Dev) (w : Nat) : Dev :=
  if !liveWindow w || d.flag (Reg.BLK_STATE w) 0 then d
  else { d with staged := d.staged.filter fun e => e.1 / 0x100000 != w }.setFlag (Reg.BLK_STATE w) 1 false

/-! ### Meanings -/

/-- Whether a window's safe points are told by what the model holds alone: a moderation decision, a frame, a gate cycle, a
bandwidth window, a picture. The others fall inside what one command does: between two packets, cells, bursts, fragments or
refresh intervals. -/
def safeKnown (w : Nat) : Bool := [3, 7, 11, 12].contains w || (decide (36 ≤ w) && decide (w < 40))

/-- SAFE_POINT_APPLY (R93, R97): a unit reaches its safe point. -/
def execSafePointApply (win unit : Nat) (s : State) : Host.Outcome State Fault Refusal :=
  s.act fun d => if liveWindow win && (!safeKnown win || d.atSafe win unit) then d.safePoint win unit else d

/-- GATE_CYCLE_BOUNDARY (R354, R356): the port's list begins its cycle again, and a commit that is pending applies to the
port. -/
def execGateCycleBoundary (port : Nat) (s : State) : Host.Outcome State Fault Refusal :=
  s.act fun d =>
    match (d.gate_ port).running with
    | none => d
    | some g =>
      if d.flag Reg.GATE_CTRL 0 then ((d.advanceTo (g.boundary d.tb.dt)).gateNow port).safePoint 12 port else d

end Sys2Proof.Machine
end

