-- ==== Sys2Proof/Machine/IntcOps.lean ====
section
/-! DEFINITION. The operations of the Interrupt Hub (spec/19_interrupt_hub.md): pending bits, delivery, mirror,
messages and their moderation, in-service stacks. -/

namespace Sys2Proof.Machine

/-- Level-triggered sources (R445). -/
def intIsLevel (s : Nat) : Bool := decide (704 ≤ s) && decide (s < 773)

/-- The pending bit of a source. -/
def Dev.intPending (d : Dev) (s : Nat) : Bool := d.flag (Reg.INTC_PENDING (s / 32)) (s % 32)

/-- The pending bit of a source replaced. -/
def Dev.intSetPending (d : Dev) (s : Nat) (on : Bool) : Dev := d.setFlag (Reg.INTC_PENDING (s / 32)) (s % 32) on

/-- The target, priority and vector of a source. -/
def Dev.intTarget (d : Dev) (s : Nat) : Nat := d.fld (Reg.INTC_SRC_CFG s) 22 16
def Dev.intPrio (d : Dev) (s : Nat) : Nat := d.fld (Reg.INTC_SRC_CFG s) 3 0
def Dev.intVec (d : Dev) (s : Nat) : Nat := d.fld (Reg.INTC_SRC_CFG s) 12 8

/-- The in-service stack of a target, top first: source and priority. -/
def Dev.intStack (d : Dev) (k : Nat) : List (Nat × Nat) := SMap.get (fun _ => []) d.intc.inServ k

/-- An in-service stack replaced. -/
def Dev.setIntStack (d : Dev) (k : Nat) (l : List (Nat × Nat)) : Dev :=
  { d with intc := { d.intc with inServ := SMap.set (fun _ => []) d.intc.inServ k l } }

/-- The effective level of a target (R448). -/
def Dev.intLevel (d : Dev) (k : Nat) : Nat :=
  (d.intStack k).foldl (fun m e => max m e.2) (d.fld (Reg.INTC_THRESHOLD k) 3 0)

/-- Whether a source is deliverable (R448); in FATAL_STOP only source 772 is delivered (R471). -/
def Dev.deliverable (d : Dev) (s : Nat) : Bool :=
  d.intPending s && !d.flag (Reg.INTC_MASK (s / 32)) (s % 32) && d.flag Reg.INTC_CTRL 0 &&
  decide (d.intLevel (d.intTarget s) < d.intPrio s) && (!d.pins.fatalStop || s == 772)

/-- Whether a source is in some in-service stack (R447). -/
def Dev.inService (d : Dev) (s : Nat) : Bool := d.intc.inServ.any fun e => e.2.any fun x => x.1 == s

/-- The wired interrupt of management core `k` (R449). -/
def Dev.coreIrq (d : Dev) (k : Nat) : Bool :=
  (List.range 1024).any fun s => d.intTarget s == 64 + k && d.deliverable s

/-- A function's set-up and link state, reading as at reset where none is listed. -/
def Dev.fn (d : Dev) (f : Nat) : FnState := SMap.get (fun _ => fnReset) d.host.fns f
def Dev.setFn (d : Dev) (f : Nat) (x : FnState) : Dev :=
  { d with host := { d.host with fns := SMap.set (fun _ => fnReset) d.host.fns f x } }

/-- The bitmap of a target's mirror: the pending bits routed to it (R450). -/
def Dev.mirrorBits (d : Dev) (k : Nat) : Nat :=
  (List.range 1024).foldl (fun v s => if d.intPending s && d.intTarget s == k then v + 2 ^ s else v) 0

/-- The mirror address of a function target. -/
def Dev.mirrorAddr (d : Dev) (f : Nat) : Nat := d.reg (Reg.INTC_MIRROR_HI f) * 2 ^ 32 + d.reg (Reg.INTC_MIRROR_LO f)

/-- The 256 bytes of a target's mirror (R450). -/
def Dev.mirrorImage (d : Dev) (k seq : Nat) : List Byte :=
  leBytes 128 (d.mirrorBits k) ++ leBytes 4 seq ++
  leBytes 2 ((d.intStack k).headD (0, 0)).1 ++ leBytes 1 (d.intStack k).length ++ leBytes 1 (d.intLevel k) ++
  leBytes 8 (dtStamp d.tb.dt) ++ leBytes 112 0

/-- A mirror write of a target; it is held while Bus Master Enable is 0 or in D3hot (R452). -/
def Dev.mirror (d : Dev) (k : Nat) : Dev :=
  if 64 ≤ k ∨ d.mirrorAddr k = 0 then d
  else if !(d.fn k).bme || (d.fn k).d3 then
    { d with intc := { d.intc with mirrorHeld := SMap.set (fun _ => false) d.intc.mirrorHeld k true } }
  else
    let seq := (SMap.get (fun _ => 0) d.intc.mirrorSeq k + 1) % 2 ^ 32
    let e := { d with intc := { d.intc with
      mirrorSeq := SMap.set (fun _ => 0) d.intc.mirrorSeq k seq,
      mirrorHeld := SMap.set (fun _ => false) d.intc.mirrorHeld k false } }
    e.hostPut pmSelf (d.mirrorAddr k) (e.mirrorImage k seq)

/-- WAKE_N is low while a PME is held and the link is in neither L0 nor L1 (R529). -/
def Dev.pinWake (d : Dev) : Dev :=
  { d with pins := { d.pins with wakeN := (d.host.fns.any fun e => e.2.pmeStatus) && !d.host.linkActive } }

/-- A message of function `f` on vector `v` leaves, or is held by a mask, Bus Master Enable or D3hot (R452). -/
def Dev.message (d : Dev) (f v : Nat) : Dev :=
  let x := d.fn f
  if x.fnMask || bit x.vecMask v || !x.bme || x.d3 then
    let d1 := { d with intc := { d.intc with msgHeld := SMap.set (fun _ => false) d.intc.msgHeld (32 * f + v) true } }
    let d2 := if x.fnMask || bit x.vecMask v then d1.setFn f { x with pba := x.pba ||| 2 ^ v } else d1
    if x.d3 && !x.pmeStatus then
      (((d2.setFn f { d2.fn f with pmeStatus := true }).emit (.pme f)).setEvent Reg.INTC_EVENTS 1).pinWake
    else d2
  else
    ({ d with intc := { d.intc with
        lastMsg := SMap.set (fun _ => none) d.intc.lastMsg (32 * f + v) (some d.tb.dt),
        modHeld := SMap.set (fun _ => none) d.intc.modHeld (32 * f + v) none,
        msgHeld := SMap.set (fun _ => false) d.intc.msgHeld (32 * f + v) false } }.emit (.msix f v)).safePoint 3 (32 * f + v)

/-- MOD_MAX of a vector, in 2^-16 ns (R451). -/
def Dev.modMax (d : Dev) (f v : Nat) : Nat := bits (d.liveReg 3 (32 * f + v) (Reg.MOD_MAX (32 * f + v))) 9 0 * unitsPerUs

/-- A notice on a vector: sent at once, or held until MOD_MAX after the last message (R451). `wake` bypasses. -/
def Dev.moderate (d : Dev) (f v : Nat) (wake : Bool) : Dev :=
  match SMap.get (fun _ => none) d.intc.lastMsg (32 * f + v) with
  | some t =>
    if !wake && decide (d.tb.dt < t + d.modMax f v) then
      match SMap.get (fun _ => none) d.intc.modHeld (32 * f + v) with
      | some _ => d
      | none => { d with intc := { d.intc with
          modHeld := SMap.set (fun _ => none) d.intc.modHeld (32 * f + v) (some (t + d.modMax f v)) } }
    else d.message f v
  | none => d.message f v

/-- A notice is a vector's moderation decision, to which a committed MOD_MAX applies (R451). -/
def Dev.notice (d : Dev) (f v : Nat) (wake : Bool) : Dev := (d.safePoint 3 (32 * f + v)).moderate f v wake

/-- A source has become deliverable: the mirror is written first, then the notice goes (R449). -/
def Dev.announce (d : Dev) (s : Nat) (wake : Bool) : Dev :=
  if d.intTarget s < 64 then (d.mirror (d.intTarget s)).notice (d.intTarget s) (d.intVec s) wake else d

/-- Sources whose pending bit is 1. -/
def Dev.intPendingList (d : Dev) : List Nat :=
  (List.range 32).flatMap fun w =>
    if d.reg (Reg.INTC_PENDING w) = 0 then []
    else (List.range 32).filterMap fun b => if d.flag (Reg.INTC_PENDING w) b then some (32 * w + b) else none

/-- After a change from `d0` of levels, masks, priorities, targets or pending bits: every source that has newly become
deliverable is announced, in rising order (R449); a source that moves to another target becomes deliverable there
anew (R456). -/
def Dev.intUpdate (d0 d : Dev) : Dev :=
  d.intPendingList.foldl (fun e s =>
    if d.deliverable s && !(d0.deliverable s && d0.intTarget s == d.intTarget s) then e.announce s false else e) d

/-- An edge event of a source (R447). With WAKE, notices held on its vector go at once (R451). -/
def Dev.intEdge (d : Dev) (s : Nat) (wake : Bool) : Dev :=
  if 1024 ≤ s ∨ intIsLevel s then d
  else
    let d1 := d.intSetPending s true
    if d1.deliverable s && !d.deliverable s then d1.announce s wake
    else if wake && (SMap.get (fun _ => none) d.intc.modHeld (32 * d.intTarget s + d.intVec s)).isSome then
      d1.message (d.intTarget s) (d.intVec s)
    else d1

/-- Whether an address of window `w` is an SQC register with one of bits 23 to 0 set. -/
def Dev.winEvent (d : Dev) (w : Nat) : Bool :=
  d.regs.any fun e => regWin e.1 == w && bits e.2.toNat 23 0 != 0 &&
    match regRow e.1 with
    | some (row, _) => row.flds.any fun f => f.acc == .sqc
    | none => false

/-- The line of a level source (R445, R469). -/
def Dev.intLine (d : Dev) (s : Nat) : Bool :=
  if 704 ≤ s ∧ s < 768 then d.winEvent (s - 704)
  else if 768 ≤ s ∧ s < 773 then d.stickyAny fun x => fcSeverity x == some (s - 768) && !d.fcMasked x
  else false

/-- A level source's pending bit follows its line unless the source is in service (R447). -/
def Dev.intFollow (d : Dev) (s : Nat) : Dev :=
  if intIsLevel s && !d.inService s then
    let d1 := d.intSetPending s (d.intLine s)
    if d1.intPending s then Dev.intUpdate d d1
    else if d.intPending s then d1.mirror (d.intTarget s) else d1
  else d

/-- The page of a target: TOP follows the in-service stack (R453). -/
def Dev.intTop (d : Dev) (k : Nat) : Dev :=
  d.setReg (Reg.INTC_TOP k)
    ((d.intStack k).length * 2 ^ 24 + ((d.intStack k).headD (0, 0)).2 * 2 ^ 16 + ((d.intStack k).headD (0, 0)).1)

/-- A page access of a source that is not the target's is counted in the function that made it; the cores have no
count. -/
def Dev.pageViolation (d : Dev) (who : Option Nat) : Dev :=
  match who with
  | some f => d.protCount f
  | none => d

/-- A write of source `s` to CLAIM of target `k` by function `who`, none for the cores (R453). -/
def Dev.intClaim (d : Dev) (who : Option Nat) (k s : Nat) : Dev :=
  if d.intTarget s ≠ k then (d.pageViolation who).setReg (Reg.INTC_CLAIM_RESULT k) 2
  else if d.intPending s = false then d.setReg (Reg.INTC_CLAIM_RESULT k) 1
  else if 16 ≤ (d.intStack k).length then d.setReg (Reg.INTC_CLAIM_RESULT k) 3
  else
    (((d.setIntStack k ((s, d.intPrio s) :: d.intStack k)).intSetPending s false).intTop k).setReg
      (Reg.INTC_CLAIM_RESULT k) 0 |>.mirror k

/-- A write of source `s` to COMPLETE of target `k` (R454, R455). -/
def Dev.intComplete (d : Dev) (k s : Nat) (quiet : Bool) : Dev :=
  match d.intStack k with
  | (x, _) :: r =>
    if x = s then
      let d1 := (d.setIntStack k r).intTop k
      let d2 := if quiet then d1.count (Reg.INTC_VANISHED k) 1 else d1
      let d3 := if intIsLevel s then d2.intSetPending s (d2.intLine s) else d2
      Dev.intUpdate d d3
    else (d.setEvent Reg.INTC_EVENTS 0).raise 364 (s * 2 ^ 16 + k)
  | [] => (d.setEvent Reg.INTC_EVENTS 0).raise 364 (s * 2 ^ 16 + k)

/-- A write to THRESHOLD of target `k` (R448). -/
def Dev.intThreshold (d : Dev) (k v : Nat) : Dev := Dev.intUpdate d (d.setReg (Reg.INTC_THRESHOLD k) (v % 16))

/-- MASK_SET and MASK_CLR of target `k` (R457). -/
def Dev.intMask (d : Dev) (who : Option Nat) (k s : Nat) (on : Bool) : Dev :=
  if d.intTarget s ≠ k then d.pageViolation who
  else Dev.intUpdate d (d.setFlag (Reg.INTC_MASK (s / 32)) (s % 32) on)

/-- PEND_SET and PEND_CLR of target `k` (R457). -/
def Dev.intPend (d : Dev) (who : Option Nat) (k s : Nat) (on : Bool) : Dev :=
  if d.intTarget s ≠ k ∨ intIsLevel s then d.pageViolation who
  else
    let d1 := Dev.intUpdate d (d.intSetPending s on)
    if !on && d.intPending s then d1.mirror k else d1

/-- The moderation hold of a vector ends (R451). -/
def Dev.modExpire (d : Dev) (f v : Nat) : Dev :=
  match SMap.get (fun _ => none) d.intc.modHeld (32 * f + v) with
  | none => d
  | some t =>
    let d1 := d.advanceTo t
    ({ d1 with intc := { d1.intc with modHeld := SMap.set (fun _ => none) d1.intc.modHeld (32 * f + v) none } }).message
      f v

/-- A held message of a vector goes once nothing holds it any more (R452). -/
def Dev.releaseVec (d : Dev) (f v : Nat) : Dev :=
  let x := d.fn f
  if SMap.get (fun _ => false) d.intc.msgHeld (32 * f + v) && !(x.fnMask || bit x.vecMask v || !x.bme || x.d3) then
    (d.setFn f { x with pba := x.pba - (x.pba &&& 2 ^ v) }).message f v
  else d

/-- A function leaves a state that held its notices: the mirror is written with the current state, then the held
messages go (R452). In FATAL_STOP they stay held but for source 772's (R471). -/
def Dev.holdRelease (d : Dev) (f : Nat) : Dev :=
  if d.pins.fatalStop then
    (if d.deliverable 772 && d.intTarget 772 == f then (d.mirror f).releaseVec f (d.intVec 772) else d)
  else
    (List.range 32).foldl (fun e v => e.releaseVec f v) (d.mirror f)

/-- An FLR discards held notices, clears the mirror address, empties the stack and resets the page (R452, R456). -/
def Dev.intFlr (d : Dev) (f : Nat) : Dev :=
  let clr {α : Type} (m : SMap α) : SMap α := m.filter fun e => e.1 / 32 != f
  let d1 := ({ d with intc := { d.intc with
      lastMsg := clr d.intc.lastMsg, modHeld := clr d.intc.modHeld, msgHeld := clr d.intc.msgHeld,
      mirrorHeld := SMap.set (fun _ => false) d.intc.mirrorHeld f false,
      mirrorSeq := SMap.set (fun _ => 0) d.intc.mirrorSeq f 0 } }).setIntStack f []
  [Reg.INTC_TOP f, Reg.INTC_CLAIM_RESULT f, Reg.INTC_THRESHOLD f, Reg.INTC_MIRROR_LO f, Reg.INTC_MIRROR_HI f,
    Reg.INTC_VANISHED f].foldl (fun e a => e.setReg a 0) d1

end Sys2Proof.Machine
end

