-- ==== Sys2Proof/Machine/RingOps.lean ====
section
/-! DEFINITION. The operations of rings, completion queues and descriptors (spec/03_host_interface.md): privilege and
ranges, framing and fetching, starting an operation, and writing completion records in order. -/

namespace Sys2Proof.Machine

/-! ### Status codes (R75 and the chapters' own tables) -/

def stOk : Nat := 0x0000
def stZero : Nat := 0x0001
def stLate : Nat := 0x0002
def stBus : Nat := 0x0010
def stStopped : Nat := 0x0011
def stProt : Nat := 0x0020
def stCtxFailed : Nat := 0x0030
def stOvershoot : Nat := 0x0031
def stMalformed : Nat := 0x0040
def stVersion : Nat := 0x0050
def stPoison : Nat := 0x0060
def stNoBuffer : Nat := 0x0070
def stConcealed : Nat := 0x0080

/-- The status of several conditions: the numerically highest (R75); OK, ZERO_LENGTH and LATE give way, as the lowest
codes do. -/
def worst (l : List Nat) : Nat := l.foldl max 0

/-- A status that holds under a condition. -/
def when_ (c : Bool) (st : Nat) : Nat := if c then st else 0

/-- What a read of `n` bytes of the data space from `a` for an operation earns: MEM_POISONED (R402), or BUS_ERROR where the
read returns an error response (R20). -/
def Dev.readStatus (d : Dev) (a n : Nat) : Nat := worst [when_ (d.rangePoison a n) stPoison, when_ (d.rangeLost a n) stBus]

/-- A result with a status alone. -/
def resOf (st : Nat) : Result := ⟨st, 0, 0, 0⟩

/-! ### Privilege and ranges (R83-R86, R541) -/

/-- Whether a number lies in a range. -/
def Span.has (x : Span) (n : Nat) : Bool := decide (x.first ≤ n) && decide (n < x.first + x.count)

/-- Whether two ranges share a number. -/
def Span.meets (x y : Span) : Bool :=
  decide (0 < x.count) && decide (0 < y.count) && decide (x.first < y.first + y.count) &&
  decide (y.first < x.first + x.count)

/-- The privilege level of a function's driver (R83). -/
def Dev.fnLevel (d : Dev) (f : Nat) : Nat := if f = 0 ∧ d.flag (Reg.FN_STATUS 0) 1 then 1 else 2

/-- Whether an operation of function `f` at `level` may use number `n` of the item that `sel` reads (R83, R541): at level 3
also, for function 0, a number that lies in no function's range. -/
def Dev.owns (d : Dev) (sel : FnState → Span) (f level n : Nat) : Bool :=
  decide (level ≤ 1) || (sel (d.fn f)).has n ||
    (level == 3 && f == 0 && !d.host.fns.any fun e => (sel e.2).has n)

/-- The function a numbered resource belongs to (R541). Where the ranges of two functions hold one number, which the spec does
not rule out, the lower-numbered function has it (DESIGN CHOICE, log entry 68). -/
def Dev.ownerOf (d : Dev) (sel : FnState → Span) (n : Nat) : Nat :=
  match d.host.fns.find? fun e => (sel e.2).has n with
  | some e => e.1
  | none => 0

/-- Whether a data-space range lies in a function's memory window, at level 1 anywhere in the data space (R83). -/
def Dev.windowHas (d : Dev) (f level a n : Nat) : Bool :=
  if level ≤ 1 then decide (a + n ≤ dataSpace)
  else decide ((d.fn f).window.first ≤ a) && decide (a + n ≤ (d.fn f).window.first + (d.fn f).window.count)

/-! ### Rings and their records -/

def Dev.ring (d : Dev) (r : Nat) : Option Ring := SMap.find d.host.rings r
def Dev.setRing (d : Dev) (r : Nat) (x : Ring) : Dev :=
  { d with host := { d.host with rings := SMap.insert d.host.rings r x } }
def Dev.cq (d : Dev) (q : Nat) : Option Cq := SMap.find d.host.cqs q
def Dev.setCq (d : Dev) (q : Nat) (x : Cq) : Dev :=
  { d with host := { d.host with cqs := SMap.insert d.host.cqs q x } }

/-- Whether a completion queue has no free slot, as last known (R67). -/
def Cq.full (q : Cq) : Bool := decide (2 ^ q.sizeLog2 ≤ q.written - q.consumed)

/-- RSTATUS of a ring (R61). -/
def Ring.rstatus (x : Ring) : Nat :=
  b2n x.needsWake + 2 * b2n x.stopped + 4 * b2n x.indexError + 8 * b2n x.cqWait

/-- The device writes the status half of a ring record (R61). -/
def Dev.writeStatus (d : Dev) (x : Ring) : Dev :=
  d.hostPut pmSelf (x.recAddr + 32) (leBytes 4 x.ci ++ leBytes 2 x.epoch ++ leBytes 2 x.rstatus ++
    leBytes 8 (dtStamp d.tb.dt) ++ leBytes 16 0)

/-- A ring replaced and its status written. -/
def Dev.putRing (d : Dev) (r : Nat) (x : Ring) : Dev := (d.setRing r x).writeStatus x

/-! ### Framing (R68, R69, R81) -/

def opcodeOf (d : Desc) : Nat := Desc.byte d 0
def flagBarrier (d : Desc) : Bool := bit (Desc.byte d 1) 0
def flagWake (d : Desc) : Bool := bit (Desc.byte d 1) 1
def flagChain (d : Desc) : Bool := bit (Desc.byte d 1) 2
def flagForceKey (d : Desc) : Bool := bit (Desc.byte d 1) 3
def lengthOf (d : Desc) : Nat := Desc.le d 2 2
def tagOf (d : Desc) : Nat := Desc.le d 4 4

/-- The descriptors after the first that a chain takes: while the one before has CHAIN=1 and the next is CONT
(R69, R81). -/
def chainTail : List Desc → List Desc
  | [] => []
  | c :: r => if opcodeOf c = 1 then c :: (if flagChain c then chainTail r else []) else []

/-- Whether a following descriptor of a chain is a CONT with LENGTH and TAG 0 (R69) and no reserved header bit, which
FORCE_KEY is for it (R8, R68). -/
def contOk (c : Desc) : Bool :=
  opcodeOf c == 1 && lengthOf c == 0 && tagOf c == 0 && bits (Desc.byte c 1) 7 3 == 0

/-- The status that framing earns: a chain that is too long, broken or not allowed at the interface level, a CONT with
nothing before it, or reserved header bits (R8, R68, R69, R81). -/
def frameStatus (iface : Nat) (d : Desc) (tail : List Desc) : Nat :=
  let bad := decide (7 < tail.length) || !(tail.all contOk) ||
    flagChain (tail.getLastD d) || (!flagChain d && !tail.isEmpty)
  worst [when_ (opcodeOf d == 1) stMalformed,
    when_ (bits (Desc.byte d 1) 7 4 != 0) stMalformed,
    when_ (flagChain d && bad) stMalformed,
    when_ (flagChain d && iface == 1) stVersion]

/-- The descriptor in slot `i` of a ring (R62). -/
def Dev.slotDesc (d : Dev) (x : Ring) (i : Nat) : Desc :=
  BitVec.ofNat 512 (d.hostNum (x.base + i % 2 ^ x.sizeLog2 * 64) 64)

/-- Whether function `f` has a NEGOTIATE that has succeeded and whose completion is not written yet. -/
def Dev.negotiating (d : Dev) (f : Nat) : Bool :=
  d.host.ops.any fun o => o.ring == f && opcodeOf o.desc == 0x10 && o.result.any fun r => r.status == stOk

/-- The interface level at which descriptors of function `f` are fetched (R81): a new level holds from the completion of
its NEGOTIATE on (R82). -/
def Dev.iface (d : Dev) (f : Nat) : Nat := if d.negotiating f then 1 else d.fld (Reg.FN_STATUS f) 15 8

/-- The level at which a ring's descriptors run (R83): level 3 on a user ring. -/
def Dev.ringLevel (d : Dev) (x : Ring) : Nat := if x.user then 3 else d.fnLevel x.fn

/-- Whether an Admin ring holds a SET_PROTECTION that has been fetched and has not completed (R85 rule 4). -/
def Dev.fenced (d : Dev) (r : Nat) (x : Ring) : Bool :=
  x.type == 3 && ((x.fetched.any fun f => opcodeOf f.desc == 0x18) ||
    d.host.ops.any fun o => o.ring == r && opcodeOf o.desc == 0x18)

/-- Descriptors are fetched from CI up to PI; a chain is taken only when all of it lies below PI (R62, R69, R81).
`n` is how many lie below PI. -/
def Dev.fetch (d : Dev) (r : Nat) : Nat → Ring → Ring
  | 0, x => x
  | n + 1, x =>
    if x.stopped || x.closing || d.fenced r x then x
    else
      let avail := (x.lastPi + 2 ^ 32 - x.ci) % 2 ^ 32
      if avail = 0 then x
      else
        let head := d.slotDesc x x.ci
        let rest := (List.range (avail - 1)).map fun i => d.slotDesc x (x.ci + 1 + i)
        let tail := if flagChain head then chainTail rest else []
        -- a chain whose last descriptor below PI still has CHAIN=1 is not all below PI
        if flagChain head && tail.length == avail - 1 && flagChain (tail.getLastD head) then x
        else
          let f : Fetched := ⟨head, tail, d.host.epoch, d.ringLevel x, d.iface x.fn, frameStatus (d.iface x.fn) head tail,
            d.tb.dt⟩
          d.fetch r n { x with ci := (x.ci + 1 + tail.length) % 2 ^ 32, fetched := x.fetched ++ [f] }

/-- The ring once the device has read its record's PI: a new PI makes it active from now (R62, R63). -/
def Dev.sawPi (d : Dev) (x : Ring) : Ring :=
  if d.hostNum x.recAddr 4 = x.lastPi then x else { x with lastPi := d.hostNum x.recAddr 4, changed := d.tb.dt }

/-- A poll of a ring record (R62, R63): a stale epoch is counted, an impossible PI stops the ring, a new PI lets the
device fetch while the completion queue has room (R67). -/
def Dev.poll (d0 : Dev) (r : Nat) (x : Ring) : Dev :=
  let d := d0.pcieIn 6 pmSelf
  let pi := d.hostNum x.recAddr 4
  if d.hostNum (x.recAddr + 4) 2 ≠ x.epoch then d.setRing r { x with stale := x.stale + 1 }
  else if 2 ^ x.sizeLog2 < (pi + 2 ^ 32 - x.ci) % 2 ^ 32 then
    (d.putRing r { x with stopped := true, indexError := true }).raise 49 (x.fn * 2 ^ 16 + r)
  else
    let x1 := d.sawPi x
    let x2 := if (d.cq x.cq).any Cq.full then { x1 with cqWait := true } else d.fetch r (2 ^ x.sizeLog2) x1
    let n := (x2.ci + 2 ^ 32 - x.ci) % 2 ^ 32
    let e := if n = 0 then d else d.pcieIn (64 * n) pmSelf
    if x2 = x then d else e.putRing r x2

/-! ### Operations -/

/-- The memory an operation's completion order depends on: its ring, or its context or flow (R74). -/
def keyRing (r : Nat) : Nat := r
def keyCtx (c : Nat) : Nat := 0x100000 + c
def keyFlow (f : Nat) : Nat := 0x200000 + f

def keyFree (id : Nat) : Nat := 0x1000000 + id
def freeKey (op : Op) : Nat := keyFree op.id

/-- The ring number of an operation that has no ring and whose completion nothing shows: Ndelia firmware's own issue of a
descriptor for a standing order (R502), or one whose ring an FLR has destroyed (R55); `type` is the ring type of R60. -/
def noRing (type : Nat) : Nat := 0x10000 + type

/-- An operation as the requester of what it does (R511). -/
def Op.attr (op : Op) : PmAttr := pmFn op.level op.fn

/-- An operation has read `n` bytes of host memory. -/
def Dev.opRead (d : Dev) (op : Op) (n : Nat) : Dev := d.pcieIn n op.attr

/-- An operation writes host memory; after an FLR of its function it writes nothing (R55). -/
def Dev.opWrite (d : Dev) (op : Op) (a : Nat) (l : List Byte) : Dev := if 0x10000 ≤ op.ring then d else d.hostPut op.attr a l

/-- The first orphan that a command names. -/
def Dev.orphan (d : Dev) (o : RingOp) : Option Orphan :=
  (d.host.orphans.find? fun x => x.ring == o.ring).filter fun x => x.fetched.desc == o.desc

/-- A command that an orphan stands for begins. -/
def Dev.startOrphan (d : Dev) (x : Orphan) (key : Op → Nat) : Dev × Option (Op × Nat) :=
  let f := x.fetched
  let op : Op := ⟨d.host.nextOp, noRing x.type, x.fn, f.level, f.iface, f.epoch, 0, f.desc, f.tail, none, f.at_⟩
  let op' := { op with key := key op }
  ({ d with host := { d.host with ops := d.host.ops ++ [op'], nextOp := d.host.nextOp + 1,
                                  orphans := d.host.orphans.erase x } }, some (op', f.bad))

/-- An operation is added to those under way. -/
def Dev.addOp (d : Dev) (op : Op) : Dev :=
  { d with host := { d.host with ops := d.host.ops ++ [op], nextOp := d.host.nextOp + 1 } }

/-- The descriptors of a command leave the ring: its CI passes them. -/
def Dev.takeSlots (d : Dev) (o : RingOp) (x : Ring) : Dev :=
  let ci := (x.ci + 1 + o.tail.length) % 2 ^ 32
  (d.pcieIn (64 * (1 + o.tail.length)) pmSelf).putRing o.ring { x with ci := ci, lastPi := ci }

/-- The descriptor of a command is fetched now, with the epoch and levels of this moment. -/
def Dev.fetchNow (d : Dev) (o : RingOp) (x : Ring) (key : Op → Nat) : Dev × Option (Op × Nat) :=
  let op : Op := ⟨d.host.nextOp, o.ring, x.fn, d.ringLevel x, d.iface x.fn, d.host.epoch, 0, o.desc, o.tail, none, d.tb.dt⟩
  let op' := { op with key := key op }
  ((d.takeSlots o x).addOp op',
    some (op', frameStatus (d.iface x.fn) o.desc o.tail))

/-- A command of ring `o.ring` begins: host stores become visible; the descriptor at the front of what the device has
fetched is taken, or the descriptor is fetched now (DEDUCED, log entry 8). The result names the operation, which stands at the
end of the list with its framing status; none when the ring does not exist, or has stopped with nothing fetched. -/
def Dev.start (d0 : Dev) (o : RingOp) (key : Op → Nat) : Dev × Option (Op × Nat) :=
  let d := d0.hostStores o.st
  match d.orphan o with
  | some x => d.startOrphan x key
  | none => match d.ring o.ring with
  | none => (d, none)
  | some x =>
    if x.type = 3 ∧ d.mgmt.restarting then (d, none)
    else match x.fetched with
    | f :: r =>
      if f.desc = o.desc then
        let op : Op := ⟨d.host.nextOp, o.ring, x.fn, f.level, f.iface, f.epoch, 0, f.desc, f.tail, none, f.at_⟩
        let op' := { op with key := key op }
        ((d.setRing o.ring { x with fetched := r }).addOp op', some (op', f.bad))
      else (d, none)
    | [] =>
      if x.stopped || x.closing || x.cqWait || (d.cq x.cq).any Cq.full || d.fenced o.ring x then (d, none)
      else d.fetchNow o x key

/-- The 32 bytes of a completion record (R72). -/
def recordBytes (op : Op) (r : Result) (dt phase : Nat) : List Byte :=
  leBytes 4 (tagOf op.desc) ++ leBytes 2 r.status ++ leBytes 1 (opcodeOf op.desc) ++ leBytes 1 0 ++
  leBytes 4 r.done ++ leBytes 2 (op.ring % 4096) ++ leBytes 2 r.detail ++ leBytes 8 (dtStamp dt) ++ leBytes 4 r.aux ++
  leBytes 2 (if op.iface = 2 then op.epoch % 65536 else 0) ++ leBytes 1 0 ++ leBytes 1 phase

/-- The phase bit of the next record of a queue: 1 on the first pass, inverted on each later one (R66). -/
def Cq.phase (q : Cq) : Nat := 1 - q.written / 2 ^ q.sizeLog2 % 2

/-- Monitor events of an operation that completes (R510): admin commands, and operations of the delivery units. -/
def Dev.pmCompleted (d : Dev) (type : Nat) (op : Op) : Dev :=
  if type = 3 then d.pmEvent 39 0x70 1 op.attr
  else if type = 1 then d.pmEvent 36 0x60 1 op.attr
  else if type = 2 then d.pmEvent 34 0x60 1 op.attr
  else if type = 4 then d.pmEvent 35 0x60 1 op.attr
  else d

/-- A completion record is written and announced (R66, R73, R77, R445). -/
def Dev.writeRecord (d : Dev) (x : Ring) (q : Cq) (op : Op) (r : Result) : Dev :=
  let d1 := d.hostPut pmSelf (q.base + q.written % 2 ^ q.sizeLog2 * 32) (recordBytes op r d.tb.dt q.phase)
  let d2 := (d1.setCq x.cq { q with written := q.written + 1 }).pmCompleted x.type op
  if q.src = 0xFFFF then d2 else d2.intEdge q.src (flagWake op.desc)

/-- Write every record that its order class, its queue and FATAL_STOP allow (R67, R74, R471). `held` are the order
classes that an operation before keeps back. The result is the device and the operations that remain. -/
def Dev.drain (d : Dev) (held : List Nat) : List Op → Dev × List Op
  | [] => (d, [])
  | op :: rest =>
    let keep (d : Dev) : Dev × List Op :=
      let y := d.drain (op.key :: keyRing op.ring :: held) rest
      (y.1, op :: y.2)
    match op.result with
    | none => keep d
    | some r =>
      if held.contains op.key || d.pins.fatalStop then keep d
      else match d.ring op.ring with
        | none => d.drain held rest
        | some x => match d.cq x.cq with
          | none => d.drain held rest
          | some q =>
            if q.full then keep (if x.cqWait then d else d.putRing op.ring { x with cqWait := true })
            else (d.writeRecord x q op r).drain held rest

/-- Records that may go are written. -/
def Dev.settle (d : Dev) : Dev :=
  let y := d.drain [] d.host.ops
  { y.1 with host := { y.1.host with ops := y.2 } }

/-- An operation has its result; a second result is none. -/
def setResult (id : Nat) (r : Result) : List Op → List Op
  | [] => []
  | op :: l =>
    if op.id = id ∧ op.result.isNone then { op with result := some r } :: l else op :: setResult id r l

/-- An operation completes: its record is written as soon as order and its queue allow (R74). -/
def Dev.finish (d : Dev) (id : Nat) (r : Result) : Dev :=
  ({ d with host := { d.host with ops := setResult id r d.host.ops } }).settle

/-- The operation of a number. -/
def Dev.op (d : Dev) (id : Nat) : Option Op := d.host.ops.reverse.find? fun o => o.id == id

/-! ### Rules of an earlier epoch (R85) -/

def FnState.setup (x : FnState) : FnSetup := ⟨x.window, x.rings, x.cqs, x.ctxs, x.flows, x.keySlots, x.ints⟩

def FnState.withSetup (x : FnState) (y : FnSetup) : FnState :=
  { x with window := y.window, rings := y.rings, cqs := y.cqs, ctxs := y.ctxs, flows := y.flows, keySlots := y.keySlots,
           ints := y.ints }

/-- The set-up of every function that has one. -/
def Dev.setups (d : Dev) : SMap FnSetup := d.host.fns.map fun e => (e.1, e.2.setup)

/-- Every function takes its set-up from `m`. -/
def Dev.withSetups (d : Dev) (m : SMap FnSetup) : Dev :=
  (SMap.keys d.host.fns ++ SMap.keys m).foldl (fun e k =>
    e.setFn k ((e.fn k).withSetup ((SMap.find m k).getD fnReset.setup))) d

/-- What an operation fetched under epoch `n` does: every check it makes is against the rules of that epoch. -/
def Dev.asOf {α : Type} (d : Dev) (n : Nat) (g : Dev → Dev × α) : Dev × α :=
  if n = d.host.epoch then g d
  else match d.host.past.lookup n with
    | none => g d
    | some m =>
      let y := g (d.withSetups m)
      (y.1.withSetups d.setups, y.2)

/-- What a check answers under the rules of an operation's epoch. -/
def Dev.judged (d : Dev) (op : Op) (g : Dev → Nat) : Nat := (d.asOf op.epoch fun e => (e, g e)).2

/-- The status that an operation's own checks refuse it with, 0 for none: one that R75 calls not performed, or a chapter's
own. -/
def Result.refusal (r : Result) : Nat :=
  when_ (r.status == stProt || r.status == stMalformed || r.status == stVersion || decide (0x100 ≤ r.status)) r.status

/-- A command that completes as soon as it has acted: `f` gives the device and the result, under the rules of
the operation's epoch (R85). `bad` is what the framing earned: the operation is then not performed, and the highest code of
that and of what its own checks refuse it with stands (R75). -/
def Dev.runOp (d : Dev) (o : RingOp) (key : Op → Nat) (f : Dev → Op → Dev × Result) : Dev :=
  match d.start o key with
  | (e, none) => e
  | (e, some (op, bad)) =>
    let y := e.asOf op.epoch fun e' => f e' op
    if bad ≠ 0 then e.finish op.id (resOf (worst [bad, y.2.refusal])) else y.1.finish op.id y.2

/-- A command that may complete later: `f` gives the device and, if it completes now, its result. -/
def Dev.runLater (d : Dev) (o : RingOp) (key : Op → Nat) (f : Dev → Op → Dev × Option Result) : Dev :=
  match d.start o key with
  | (e, none) => e
  | (e, some (op, bad)) =>
    let y := e.asOf op.epoch fun e' => f e' op
    if bad ≠ 0 then e.finish op.id (resOf (worst [bad, (y.2.map Result.refusal).getD 0]))
    else match y.2 with
      | some r => y.1.finish op.id r
      | none => y.1

/-- Whether bytes `k` to `k + n - 1` of a descriptor, which a chapter reserves, are 0 (R8). -/
def zeroAt (d : Desc) (k n : Nat) : Bool := Desc.le d k n == 0

/-- Admin commands complete in ring order (R74). -/
def adminKey (op : Op) : Nat := keyRing op.ring

/-- The admin opcode whose items a chain continues: SET_PROTECTION (R84). -/
def chainedAdmin (d : Desc) : Bool := opcodeOf d == 0x18

/-- The type of a ring (R60); 255 for none. One without a ring still has its type. -/
def Dev.ringType (d : Dev) (r : Nat) : Nat := if noRing 0 ≤ r then r - noRing 0 else ((d.ring r).map Ring.type).getD 255

/-- What refuses an operation before its own checks: a ring of another type, FORCE_KEY or a chain where the opcode has
none, the opcode's format (MALFORMED_DESC), or its level (PROTECTION); the higher code stands (R8, R68, R75). -/
def Dev.gate (d : Dev) (op : Op) (type : Nat) (chain force fmt ok : Bool) : Nat :=
  worst [when_ (d.ringType op.ring != type) stMalformed, when_ (!force && flagForceKey op.desc) stMalformed,
    when_ (!chain && !op.tail.isEmpty) stMalformed, when_ (!fmt) stMalformed, when_ (!ok) stProt]

/-- An admin command: `fmt` is its format check (R8, R68: FORCE_KEY is reserved), `ok` says which levels and functions
may issue it (R79, R494); where both refuse, the higher code stands (R75). `f` acts when neither does. While the
management cores restart, a descriptor waits (R480). -/
def Dev.runAdmin (d : Dev) (o : RingOp) (ok : Op → Bool) (fmt : Desc → Bool) (f : Dev → Op → Dev × Result) : Dev :=
  if d.mgmt.restarting then d else d.runOp o adminKey fun e op =>
    let st := e.gate op 3 (chainedAdmin op.desc) false (fmt op.desc) (ok op)
    if st = 0 then f e op else (e, resOf (worst [st, (f e op).2.refusal]))

/-- An admin command that may complete later. -/
def Dev.runAdminLater (d : Dev) (o : RingOp) (ok : Op → Bool) (fmt : Desc → Bool)
    (f : Dev → Op → Dev × Option Result) : Dev :=
  if d.mgmt.restarting then d else d.runLater o adminKey fun e op =>
    let st := e.gate op 3 (chainedAdmin op.desc) false (fmt op.desc) (ok op)
    if st = 0 then f e op else (e, some (resOf (worst [st, ((f e op).2.map Result.refusal).getD 0])))

/-- Commands of level 1, of level 2 or 1, and of the PF at level 2 or 1 (R494). -/
def levelOne (op : Op) : Bool := decide (op.level ≤ 1)
def levelTwo (op : Op) : Bool := decide (op.level ≤ 2)
def levelPf (op : Op) : Bool := op.fn == 0 && decide (op.level ≤ 2)

/-- Another chapter's wait: the operation completes at a later command. -/
def later (d : Dev) : Dev × Option Result := (d, none)

end Sys2Proof.Machine
end

