-- ==== Sys2Proof/Machine/TimeOps.lean ====
section
/-! DEFINITION. The operations of the Time Base (spec/02_media_time.md) and the meanings of the commands that reach it
without a register write. -/

namespace Sys2Proof.Machine

/-! ### Periodic series (R42, R540) -/

/-- A series started at `now`: its first occurrence is the first multiple of the period at or after it. -/
def Series.start (period now : Nat) : Series := ⟨period, ceilDiv now (max period 1) * period, none, none⟩

/-- The occurrence that a firing stands for: the next one, or the last of those that a forward step missed. -/
def Series.at_ (x : Series) : Nat := x.missed.getD x.next

/-- The series has fired its next occurrence, or once for all that a forward step missed. -/
def Series.fire (x : Series) : Series := ⟨x.period, x.at_ + max 1 x.period, some x.at_, none⟩

/-- After a step of DT to `now` (R42): occurrences that the step has missed are to fire once, together; otherwise the
next is the first one later than both the new DT and the last one fired. -/
def Series.step (x : Series) (now : Nat) : Series :=
  if x.next ≤ now then { x with missed := some (now / max x.period 1 * max x.period 1) }
  else { x with next := (max now (x.last.getD 0) / max x.period 1 + 1) * max x.period 1, missed := none }

/-- The occurrences due at `now`, one by one: all that a forward step missed count as one. -/
def Series.dueAt (x : Series) (now : Nat) : List Nat :=
  if x.missed.isSome then [x.next]
  else if x.next ≤ now then (List.range ((now - x.next) / max x.period 1 + 1)).map fun i => x.next + i * max x.period 1
  else []

/-! ### States and sources (R33-R37) -/

def Dev.tbState (d : Dev) : Nat := d.fld Reg.TB_STATUS 2 0
def Dev.setTbState (d : Dev) (s : Nat) : Dev := d.setFld Reg.TB_STATUS 2 0 s
def Dev.tbPrimary (d : Dev) : Nat := d.fld Reg.TB_CTRL 3 2
def Dev.tbSecondary (d : Dev) : Nat := d.fld Reg.TB_CTRL 5 4
def Dev.onSecondary (d : Dev) : Bool := d.flag Reg.TB_STATUS 3

/-- Whether a source code names a valid source: 1 PTP, 2 PPS. -/
def Dev.srcValid (d : Dev) (c : Nat) : Bool := (c == 1 && d.tb.ptpValid) || (c == 2 && d.tb.ppsValid)

/-- Whether a selected source is valid. -/
def Dev.anyValid (d : Dev) : Bool := d.srcValid d.tbPrimary || d.srcValid d.tbSecondary

/-- The source followed: the secondary while ON_SECONDARY is 1, else the primary. -/
def Dev.followed (d : Dev) : Nat := if d.onSecondary then d.tbSecondary else d.tbPrimary

/-- The nominal increment, 1.28 ns in 2^-16 ns (R30). -/
def nominalInc : Nat := 83886

/-- FREERUN with the nominal increment (R35). -/
def Dev.freerun (d : Dev) : Dev :=
  { (d.setTbState 0).setFlag Reg.TB_STATUS 3 false with tb := { d.tb with inc := nominalInc, goodPtp := 0, goodPps := 0 } }

/-- FREERUN with ENABLE=1 and a selected source valid becomes ACQUIRING (R35); the secondary is followed when only it is
valid. -/
def Dev.tbAcquire (d : Dev) : Dev :=
  if d.flag Reg.TB_CTRL 0 && d.tbState == 0 && d.anyValid then
    (d.setTbState 1).setFlag Reg.TB_STATUS 3 (!d.srcValid d.tbPrimary)
  else d

/-- The media-time origins of contexts and groups move with a step (R43). -/
def Media.shiftOrigins (m : Media) (x : Int) : Media :=
  { m with
    ctxs := m.ctxs.map fun e => (e.1, { e.2 with origin := e.2.origin + x }),
    groups := m.groups.map fun e => (e.1, { e.2 with origin := e.2.origin.map (· + x) }) }

/-- Source minus DT in ns, saturating to 32 signed bits (TB_OFFSET). -/
def offsetNs (x : Int) : Nat :=
  let n := x / 65536
  unsigned 32 (if n < -2147483648 then -2147483648 else if 2147483647 < n then 2147483647 else n)

/-- The increment while DT slews towards a source that is `x` ahead (R36): within 200 ppm of the nominal one (R32), above
it for a source that is ahead and below it for one that is behind; which, the spec leaves open (log entry 1). -/
def Dev.slew (d : Dev) (x : Int) : Dev :=
  let inc := if 0 < x then nominalInc + 1 + d.freeNat % 16
    else if x < 0 then nominalInc - 1 - d.freeNat % 16
    else nominalInc - 16 + d.freeNat % 33
  { d with tb := { d.tb with inc := inc } }.useFree

/-- Whether a PPS source has its time of day (R34). -/
def Dev.todKnown (d : Dev) : Bool := d.tb.todLast.isSome

/-- Whether `n` ns bound an offset. -/
def offsetWithin (x : Int) (n : Nat) : Bool := decide (x.natAbs ≤ n * 65536)

/-- Good measurements in a row of a source, after one more (R32, R37). -/
def goodAfter (n : Nat) (x : Int) : Nat := if offsetWithin x 100 then min (n + 1) 16 else 0

/-- Consecutive good measurements of a source. -/
def Dev.goodOf (d : Dev) (src : Nat) : Nat := if src = 1 then d.tb.goodPtp else d.tb.goodPps

/-- A source is lost (R32, R35, R37): from the primary a switch to a valid secondary; with none left, HOLDOVER from
LOCKED and FREERUN from ACQUIRING. A followed secondary that is lost while the primary is valid leaves DT at its last
increment until the primary has met the lock criterion (R37; DEDUCED, log entry 64). -/
def Dev.sourceLost (d : Dev) (src : Nat) : Dev :=
  let d1 := { d with tb := if src = 1 then { d.tb with ptpValid := false, goodPtp := 0, lastSync := none }
                           else { d.tb with ppsValid := false, goodPps := 0, lastEdge := none } }
  if (d1.tbPrimary ≠ src ∧ d1.tbSecondary ≠ src) ∨ d1.flag Reg.TB_CTRL 0 = false then d1
  else
    let d2 := d1.setEvent Reg.TB_EVENTS 2
    if d2.tbState = 0 then d2
    else if d2.anyValid then
      (if d2.followed = src ∧ d2.onSecondary = false then
        (d2.setFlag Reg.TB_STATUS 3 true).setEvent Reg.TB_EVENTS 3
      else d2)
    else if d2.tbState = 2 then ((d2.setTbState 3).setEvent Reg.TB_EVENTS 1).raise 66 0
    else if d2.tbState = 1 then d2.freerun
    else d2

/-- The whole second nearest to an instant. -/
def nearestSecond (t : Nat) : Nat := (t + unitsPerSec / 2) / unitsPerSec

/-! ### TIME_PPS_OUT (R32, R38) -/

/-- TIME_PPS_OUT rises at the series' next whole second, for 100 ms; a pulse still under way ends first. -/
def Dev.ppsRise (d : Dev) : Dev :=
  match d.tb.pps with
  | none => d
  | some x =>
    let e := d.advanceTo x.next
    { e with tb := { e.tb with pps := some x.fire, ppsFall := some (x.at_ + unitsPerSec / 10) },
             pins := { e.pins with ppsOut := true } }.emit (.ppsOut (x.at_ / unitsPerSec))

/-! ### Meanings -/

/-- TIME_PPS_OUT_EDGE (R38): at the series' next whole second TIME_PPS_OUT goes high. -/
def execTimePpsOutEdge (s : State) : Host.Outcome State Fault Refusal := s.keep Dev.ppsRise

/-- PPS_SOURCE_LOSS at instant `t` (R32): no edge has come for 1.5 s; before that time, the command tells that TIME_REF10M
is outside ±50 ppm, which no state of the device shows (log entry 67). -/
def execPpsSourceLoss (t : Nat) (s : State) : Host.Outcome State Fault Refusal :=
  s.keep fun d => (d.advanceTo t).sourceLost 2

/-- PTP_SOURCE_LOSS at instant `t` (R32): no valid Sync for 3 s. -/
def execPtpSourceLoss (t : Nat) (s : State) : Host.Outcome State Fault Refusal :=
  s.keep fun d => (d.advanceTo (max t (d.tb.lastSync.getD 0 + 3 * unitsPerSec))).sourceLost 1

/-- The 96-bit DT as the 12 bytes of a structure (R30). -/
def dtBytes (t : Nat) : List Byte := leBytes 12 (dt96 t)

/-- DT_STEP (R496): its format. -/
def dtStepFormat (x : Desc) : Bool :=
  lengthOf x == 0 && Desc.field x 8 7 2 == 0 && zeroAt x 9 7 && zeroAt x 40 24 && Desc.le x 32 8 % 32 == 0 &&
  (if Desc.field x 8 0 0 = 1 then zeroAt x 28 4 else zeroAt x 24 8)

/-- The DT that a DT_STEP asks for; none where R496 refuses it. -/
def dtStepTarget (now : Nat) (x : Desc) : Option Nat :=
  if Desc.field x 8 0 0 = 1 then
    (if dt96Ok (Desc.le x 16 12) then some (ofDt96 (Desc.le x 16 12)) else none)
  else
    let y := (now : Int) + signed 64 (Desc.le x 16 8)
    if 0 ≤ y ∧ y < (2 ^ 48 * unitsPerSec : Nat) then some y.toNat else none

/-- SET_TOD (R34, R496). -/
def execSetTod (o : RingOp) (s : State) : Host.Outcome State Fault Refusal :=
  s.act fun d => d.runAdmin o levelOne
    (fun x => lengthOf x == 0 && zeroAt x 8 8 && zeroAt x 22 42) fun e op =>
      ({ e with tb := { e.tb with tod := some (Desc.le op.desc 16 6) } }, resOf stOk)

/-- DELAY_REQ: the clock sends a Delay_Req on PTP_PORT by the transport of its master, and keeps the transmit
timestamp (R33). -/
def execDelayReq (t : Nat) (s : State) : Host.Outcome State Fault Refusal :=
  s.act fun d =>
    let e := d.advanceTo t
    { e with tb := { e.tb with delayReqTx := some t } }.emit
      (.delayReq (e.fld Reg.TB_CTRL 15 8) e.tb.transport e.tb.domain)

end Sys2Proof.Machine
end

