-- ==== Sys2Proof/Machine/HostOps.lean ====
section
/-! DEFINITION. The control page, rings, completion queues, BAR2 and the admin commands of the host interface
(spec/03_host_interface.md). -/

namespace Sys2Proof.Machine

/-! ### Control page (R57, R58) -/

/-- A 64-bit address held in two registers. -/
def Dev.pair64 (d : Dev) (lo hi : Nat) : Nat := d.reg hi * 2 ^ 32 + d.reg lo

/-- Whether the addresses of a control page keep their alignment (R57, R59). -/
def Dev.admAligned (d : Dev) (f : Nat) : Bool :=
  d.reg (Reg.ADM_RING_BASE_LO f) % 4096 == 0 && d.reg (Reg.ADM_CQ_BASE_LO f) % 4096 == 0 &&
  d.reg (Reg.ADM_REC_LO f) % 64 == 0

/-- The Admin ring of function `f` starts: ring `f`, completion queue `f`, source `f`, ring epoch 0 (R57, R541). Commands
fetched before ENABLE last fell still run (R58). The head record's address is taken modulo 2^64, so that a base of 0, which
the spec does not rule out, puts it at 2^64 - 64 (DESIGN CHOICE, log entry 69). -/
def Dev.admStart (d : Dev) (f : Nat) : Dev :=
  let base := d.pair64 (Reg.ADM_CQ_BASE_LO f) (Reg.ADM_CQ_BASE_HI f)
  let x : Ring :=
    { type := 3, fn := f, sizeLog2 := d.fld (Reg.ADM_SIZES f) 4 0,
      base := d.pair64 (Reg.ADM_RING_BASE_LO f) (Reg.ADM_RING_BASE_HI f),
      recAddr := d.pair64 (Reg.ADM_REC_LO f) (Reg.ADM_REC_HI f), cq := f, pri := 0, user := false, epoch := 0,
      pollUs := 10, idleUs := 1000, ci := 0, lastPi := 0, changed := d.tb.dt, needsWake := false, sleepSeq := false,
      asleep := false, stopped := false, indexError := false, cqWait := false, closing := false, stale := 0,
      fetched := ((d.ring f).map Ring.fetched).getD [] }
  let q : Cq :=
    { fn := f, sizeLog2 := d.fld (Reg.ADM_SIZES f) 12 8, base := base, head := (base + 2 ^ 64 - 64) % 2 ^ 64, src := f,
      written := 0, consumed := 0 }
  ((d.setRing f x).setCq f q).setFlag (Reg.FN_STATUS f) 4 false

/-- Fetching from a ring stops. -/
def Dev.closeRing (d : Dev) (r : Nat) : Dev :=
  match d.ring r with
  | some x => d.setRing r { x with closing := true, sleepSeq := false }
  | none => d

/-- CFG_REJECTED of a control page. -/
def Dev.pageReject (d : Dev) (f : Nat) : Dev := d.setFlag (Reg.FN_STATUS f) 5 true

/-- Whether RWL fields of a control page may be written (R91, R58). -/
def Dev.pageOpen (d : Dev) (f : Nat) : Bool := !d.flag (Reg.FN_CTRL f) 0 && d.flag (Reg.FN_STATUS f) 4

/-- A write of FN_CTRL (R57, R58, R92). -/
def Dev.ctrlFnCtrl (d : Dev) (f v : Nat) : Dev :=
  let d0 := if bit v 2 then d.setFlag (Reg.FN_STATUS f) 5 false else d
  let en := d0.flag (Reg.FN_CTRL f) 0
  let ro := d0.flag (Reg.FN_CTRL f) 1
  if !en && bit v 0 && !d0.admAligned f then d0.pageReject f
  else
    let d1 := if d0.pageOpen f then d0.setFlag (Reg.FN_CTRL f) 1 (bit v 1)
      else if ro != bit v 1 then d0.pageReject f else d0
    let d2 := d1.setFlag (Reg.FN_CTRL f) 0 (bit v 0)
    if !en && bit v 0 then d2.admStart f
    else if en && !bit v 0 then d2.closeRing f
    else d2

/-- A write of another register of a control page: an RWL field of R58. -/
def Dev.ctrlRwl (d : Dev) (f a v : Nat) (ok : Bool) : Dev :=
  if d.reg a = v then d
  else if d.pageOpen f && ok then d.setReg a v
  else d.pageReject f

/-- A driver's write to its function's control page at offset `off`; ignored while READY is 0 (R54). -/
def Dev.pageWrite (d : Dev) (f off v : Nat) : Dev :=
  if d.flag (Reg.FN_STATUS f) 0 = false then d
  else if off = 0x10 then d.ctrlFnCtrl f v
  else if off = 0x38 then
    let n := putBits (putBits 0 12 8 (bits v 12 8)) 4 0 (bits v 4 0)
    d.ctrlRwl f (Reg.ADM_SIZES f) n (decide (6 ≤ bits n 12 8) && decide (bits n 12 8 ≤ 16) &&
      decide (6 ≤ bits n 4 0) && decide (bits n 4 0 ≤ 16))
  else if 0x20 ≤ off ∧ off ≤ 0x34 ∧ off % 4 = 0 then d.ctrlRwl f (Reg.page f + off) v true
  else d

/-! ### Completion queues and rings -/

/-- The head record of a full queue is read; with room again, waiting rings drop CQ_WAIT, held records are written and
fetching goes on (R67). -/
def Dev.headRead (d0 : Dev) (c : Nat) : Dev :=
  match d0.cq c with
  | none => d0
  | some q =>
    if q.full then
      let d := d0.pcieIn 4 pmSelf
      let used := (q.written % 2 ^ 32 + 2 ^ 32 - d.hostNum q.head 4) % 2 ^ 32
      let q1 := { q with consumed := q.written - used }
      let d1 := d.setCq c q1
      if q1.full then d1
      else
        let mine := d1.host.rings.filter fun e => e.2.cq == c
        let d2 := mine.foldl (fun e r => match e.ring r.1 with
          | some x => if x.cqWait then e.putRing r.1 { x with cqWait := false } else e
          | none => e) d1
        mine.foldl (fun e r => match e.ring r.1 with
          | some x => if x.asleep || x.stopped || x.closing then e else e.poll r.1 x
          | none => e) d2.settle
    else d0

/-- A poll of ring `r` when it is active (R63). -/
def Dev.pollActive (d : Dev) (r : Nat) : Dev :=
  match d.ring r with
  | some x => if x.asleep || x.stopped || x.closing || (x.type == 3 && d.mgmt.restarting) then d else d.poll r x
  | none => d

/-- The idle time of a ring has passed: NEEDS_WAKE=1 is written and the reread begins (R63 steps 1 and 2). -/
def Dev.idleOut (d : Dev) (r : Nat) : Dev :=
  match d.ring r with
  | some x =>
    if x.asleep || x.sleepSeq || x.stopped || x.closing then d
    else (d.advanceTo (x.changed + x.idleUs * unitsPerUs)).putRing r { x with needsWake := true, sleepSeq := true }
  | none => d

/-- The reread returns: a new PI keeps the ring active, otherwise it sleeps (R63 steps 3 and 4); a record
of another epoch counts as stale, as if PI had not changed (R62). -/
def Dev.recheck (d0 : Dev) (r : Nat) : Dev :=
  match d0.ring r with
  | some x =>
    let d := d0.pcieIn 6 pmSelf
    if !x.sleepSeq then d0
    else if d.hostNum (x.recAddr + 4) 2 ≠ x.epoch then
      d.setRing r { x with sleepSeq := false, asleep := true, stale := x.stale + 1 }
    else if d.hostNum x.recAddr 4 ≠ x.lastPi then
      (d.putRing r { x with needsWake := false, sleepSeq := false }).pollActive r
    else d.setRing r { x with sleepSeq := false, asleep := true }
  | none => d0

/-- A write to a function's wake page (R64). -/
def Dev.wake (d : Dev) (f off v : Nat) : Dev :=
  if off ≠ 0 then d
  else match d.ring (bits v 11 0) with
    | none => d.protCount f
    | some x =>
      if x.fn ≠ f then d.protCount f
      else if x.epoch ≠ bits v 31 16 then d
      else if x.asleep || x.sleepSeq then
        (d.putRing (bits v 11 0) { x with asleep := false, sleepSeq := false, needsWake := false, changed := d.tb.dt }).pollActive (bits v 11 0)
      else d

/-! ### BAR2 (R52, R53) -/

/-- Posted writes of a function become visible to the engines (R53). -/
def Dev.flushPosted (d : Dev) (f : Nat) : Dev :=
  ((d.fn f).posted.foldl (fun e p => e.dataWrite p.1 [p.2]) d).setFn f { d.fn f with posted := [] }

/-- An access of function `f` outside its window: counted, and a NOTE fault (R52). -/
def Dev.outsideWindow (d : Dev) (f : Nat) : Dev := (d.protCount f).raise 50 0

/-- A posted write through BAR2 (R52, R53). Engines read the old data until a read or a FLUSH makes it visible; the spec only
says that they may (DESIGN CHOICE, log entry 70). -/
def Dev.bar2Write (d : Dev) (f off : Nat) (l : List Byte) : Dev :=
  let x := d.fn f
  let d1 := (d.bwAdd Reg.PM_BW_PCIE_RX_LO l.length).pmEvent 28 0x40 l.length
    (pmFn (d.fnLevel f) f)
  if x.window.count < off + l.length then d1.outsideWindow f
  else
    let new := (List.range l.length).map fun i => (x.window.first + off + i, l.getD i 0)
    d1.setFn f { d1.fn f with posted := (d1.fn f).posted ++ new }

/-- A read through BAR2: earlier writes become visible first (R53); outside the window all ones; on a POISONED page all
ones with EP (R52), and so on a stack that has stopped (R20), where the spec gives no answer (DESIGN CHOICE, log entry 73). -/
def Dev.bar2Read (d : Dev) (f off n : Nat) : Dev :=
  let who := pmFn (d.fnLevel f) f
  let d1 := (((d.flushPosted f).bwAdd Reg.PM_BW_PCIE_TX_LO n).pmEvent 29 0x41 1 who).pmEvent 29 0x40 n who
  let x := d1.fn f
  if x.window.count < off + n then (d1.outsideWindow f).emit (.bar2 f (List.replicate n 0xFF) false)
  else if d1.readStatus (x.window.first + off) n ≠ 0 then
    (d1.poisonRead (x.window.first + off) n).emit (.bar2 f (List.replicate n 0xFF) true)
  else d1.emit (.bar2 f (d1.dataRead (x.window.first + off) n) false)

/-! ### Admin commands of the host interface (R79-R86) -/

/-- LENGTH is reserved (R68). -/
def noLength (x : Desc) : Bool := lengthOf x == 0

/-- The interface level that NEGOTIATE selects (R82). -/
def negotiated (lo hi : Nat) : Option Nat :=
  if lo ≤ 2 ∧ 2 ≤ hi then some 2 else if lo ≤ 1 ∧ 1 ≤ hi then some 1 else none

/-- Whether function `f` at `level` may name interrupt source `n`: its own, or one of its range (R80, R541). -/
def Dev.ownsInt (d : Dev) (f level n : Nat) : Bool := n == f || d.owns FnState.ints f level n

/-- Whether function `f` at `level` may name completion queue `n` (R80, R541). -/
def Dev.ownsCq (d : Dev) (f level n : Nat) : Bool := n == f || d.owns FnState.cqs f level n

/-- What refuses a CREATE_CQ (R80). An INT_SOURCE that names no source, 1024 or above, is a value outside its range:
MALFORMED_DESC (DEDUCED, log entry 71). -/
def Dev.cqStatus (d : Dev) (op : Op) : Nat :=
  let x := op.desc
  let c := Desc.field x 8 10 0
  let src := Desc.le x 12 2
  worst [when_ (decide (c < 64) || (d.cq c).isSome) stMalformed,
    when_ (Desc.byte x 10 < 6 || decide (16 < Desc.byte x 10)) stMalformed,
    when_ (src != 0xFFFF && decide (1024 ≤ src)) stMalformed,
    when_ (Desc.le x 16 8 % 4096 != 0 || Desc.le x 24 8 % 64 != 0) stMalformed,
    when_ (!d.owns FnState.cqs op.fn op.level c) stProt,
    when_ (src != 0xFFFF && !d.ownsInt op.fn op.level src) stProt]

/-- What refuses a CREATE_RING (R80). -/
def Dev.ringStatus (d : Dev) (op : Op) : Nat :=
  let x := op.desc
  let r := Desc.field x 8 11 0
  let c := Desc.le x 12 2
  worst [when_ (decide (r < 64) || (d.ring r).isSome) stMalformed,
    when_ (Desc.byte x 10 == 3 || decide (4 < Desc.byte x 10)) stMalformed,
    when_ (Desc.byte x 11 < 6 || decide (16 < Desc.byte x 11)) stMalformed,
    when_ (d.cq c).isNone stMalformed,
    when_ (Desc.field x 14 7 3 != 0 || Desc.field x 15 7 1 != 0) stMalformed,
    when_ (Desc.le x 16 8 % 4096 != 0 || Desc.le x 24 8 % 64 != 0) stMalformed,
    when_ (Desc.le x 34 2 < 1 || decide (1000 < Desc.le x 34 2)) stMalformed,
    when_ (Desc.le x 36 4 < 10 || decide (1000000 < Desc.le x 36 4)) stMalformed,
    when_ (!d.owns FnState.rings op.fn op.level r) stProt,
    when_ (!d.ownsCq op.fn op.level c) stProt]

/-- The function that a resource created by `op` belongs to (R541). -/
def Dev.createdFor (d : Dev) (sel : FnState → Span) (op : Op) (n : Nat) : Nat :=
  if op.level ≤ 1 then d.ownerOf sel n else op.fn

/-- One item of a SET_PROTECTION (R84): function, item, FIRST, COUNT. -/
structure ProtItem where
  fn : Nat
  item : Nat
  first : Nat
  count : Nat
  deriving DecidableEq, Repr

def protItem (x : Desc) : ProtItem := ⟨Desc.byte x 8, Desc.byte x 9, Desc.le x 16 8, Desc.le x 24 8⟩

/-- How many numbers an item's resource has (R59, R84, R444). -/
def itemLimit (i : Nat) : Nat := [0, 4096, 2048, 4096, 262144, 4096, 1024].getD i 0

/-- Bytes of a Bunting pool's buffers (R407). -/
def poolSize (k : Nat) : Nat := [2048, 16384, 131072, 1048576, 8388608, 33554432].getD k 0

/-- The data-space range of a pool: base and bytes (R407, R408). -/
def Dev.poolSpan (d : Dev) (k : Nat) : Span :=
  ⟨d.fld (Reg.BUN_POOL_BASE k) 25 0 * 4096, d.fld (Reg.BUN_POOL_COUNT k) 28 0 * poolSize k⟩

/-- Whether a range overlaps any Bunting pool while Bunting is enabled (R408). -/
def Dev.meetsPool (d : Dev) (x : Span) : Bool :=
  d.flag Reg.BUN_CTRL 0 && (List.range 6).any fun k => x.meets (d.poolSpan k)

/-- A range of a standing order by its place in the header: 0 contexts, 1 groups, 2 streams, 3 ingest streams, 4 egress
queues, 5 rules (R499). -/
def Order.range (o : Order) (k : Nat) : Span := ⟨(o.ranges.getD k (0, 0)).1, (o.ranges.getD k (0, 0)).2⟩

/-- Whether a range of contexts meets the ranges of a standing order (R500): its contexts, or its streams, which take
their function from context numbers modulo 4,096 (R268). -/
def Order.meetsCtxs (o : Order) (x : Span) : Bool :=
  x.meets (o.range 0) || x.meets (o.range 2) || Span.meets ⟨x.first + 4096, x.count⟩ (o.range 2)

/-- What refuses an item of SET_PROTECTION (R84, R408, R446, R500, R541). A range of rings or completion queues that holds a
number below 64, which lies in no item, is refused as R446 refuses one of interrupt sources (DEDUCED, log entry 72). -/
def Dev.itemStatus (d : Dev) (p : ProtItem) : Nat :=
  let range : Span := ⟨p.first, p.count⟩
  worst [when_ (decide (63 < p.fn) || decide (6 < p.item)) stMalformed,
    when_ (p.item == 0 && (p.first % 4096 != 0 || p.count % 4096 != 0 || decide (dataSpace < p.first + p.count) ||
      (p.fn != 0 && decide (2 ^ 32 < p.count)))) stMalformed,
    when_ (p.item != 0 && decide (0 < p.count) && decide (itemLimit p.item < p.first + p.count)) stMalformed,
    when_ ((p.item == 1 || p.item == 2 || p.item == 6) && decide (0 < p.count) && decide (p.first < 64)) stMalformed,
    when_ (p.item == 0 && d.meetsPool range) stProt,
    when_ (p.item == 3 && d.mgmt.order.any fun o => o.meetsCtxs range) stProt]

/-- The set-up of a function with one item replaced (R84). -/
def FnState.withItem (x : FnState) (p : ProtItem) : FnState :=
  let range : Span := ⟨p.first, p.count⟩
  if p.item = 0 then { x with window := range }
  else if p.item = 1 then { x with rings := range }
  else if p.item = 2 then { x with cqs := range }
  else if p.item = 3 then { x with ctxs := range }
  else if p.item = 4 then { x with flows := range }
  else if p.item = 5 then { x with keySlots := range }
  else { x with ints := range }

/-- An item takes effect; INT_SOURCE_RANGE also moves the sources to the function (R446). -/
def Dev.applyItem (d : Dev) (p : ProtItem) : Dev :=
  let d1 := d.setFn p.fn ((d.fn p.fn).withItem p)
  if p.item = 6 then
    Dev.intUpdate d1 ((List.range p.count).foldl (fun e i =>
      if p.first + i < 773 then e.setFld (Reg.INTC_SRC_CFG (p.first + i)) 22 16 p.fn else e) d1)
  else d1

/-- The function that a numbered resource belongs to after a change of the set-up (R541): the one it had, if its range still
holds the number. -/
def Dev.newOwner (d : Dev) (sel : FnState → Span) (f n : Nat) : Nat := if (sel (d.fn f)).has n then f else d.ownerOf sel n

/-- Every numbered resource belongs to the function whose range holds its number (R541). -/
def Dev.reown (d : Dev) : Dev :=
  { d with
    host := { d.host with
      rings := d.host.rings.map fun e =>
        if e.1 < 64 then e else (e.1, { e.2 with fn := d.newOwner FnState.rings e.2.fn e.1 }),
      cqs := d.host.cqs.map fun e =>
        if e.1 < 64 then e else (e.1, { e.2 with fn := d.newOwner FnState.cqs e.2.fn e.1 }) },
    media := { d.media with
      ctxs := d.media.ctxs.map fun e => (e.1, { e.2 with fn := d.newOwner FnState.ctxs e.2.fn e.1 }) },
    dlv := { d.dlv with
      streams := d.dlv.streams.map fun e => (e.1, { e.2 with fn := d.newOwner FnState.ctxs e.2.fn (e.1 % 4096) }),
      flows := d.dlv.flows.map fun e => (e.1, { e.2 with fn := d.newOwner FnState.flows e.2.fn e.1 }) } }

/-- The set-up in force is kept for what was fetched under it, and the epoch goes on (R85); set-ups that nothing was fetched
under any more are forgotten. -/
def Dev.bumpEpoch (d0 d : Dev) : Dev :=
  let used (n : Nat) : Bool := (d.host.ops.any fun o => o.epoch == n) || (d.host.orphans.any fun o => o.fetched.epoch == n) ||
    d.host.rings.any fun e => e.2.fetched.any fun f => f.epoch == n
  { d with host := { d.host with epoch := (d.host.epoch + 1) % 2 ^ 32,
                                 past := ((d.host.epoch, d0.setups) :: d.host.past).filter fun p => used p.1 } }

/-- Reserved bytes of a SET_PROTECTION descriptor (R84). -/
def protFormat (x : Desc) : Bool := noLength x && zeroAt x 10 6 && zeroAt x 32 32

/-- Whether epoch `e` is earlier than `n` in serial arithmetic modulo 2^32 (R85). -/
def epochBefore (e n : Nat) : Bool :=
  decide (0 < (n + 2 ^ 32 - e % 2 ^ 32) % 2 ^ 32) && decide ((n + 2 ^ 32 - e % 2 ^ 32) % 2 ^ 32 < 2 ^ 31)

/-- Whether an operation fetched under an epoch earlier than `n` remains, operation `self` apart (R85). -/
def Dev.drainBusy (d : Dev) (self n : Nat) : Bool :=
  (d.host.ops.any fun o => o.id != self && epochBefore o.epoch n) ||
  (d.host.orphans.any fun o => epochBefore o.fetched.epoch n) ||
  d.host.rings.any fun e => e.2.fetched.any fun f => epochBefore f.epoch n

/-- The first waiting operation that `p` chooses. -/
def Dev.waiting (d : Dev) (p : Op → Bool) : Option Op := d.host.ops.find? fun o => o.result.isNone && p o

/-! ### Meanings -/

/-- LINK_TRAINED (R48): below 16.0 GT/s or below x4 the link is degraded. `rate` is in tenths of GT/s. -/
def execLinkTrained (rate width : Nat) (s : State) : Host.Outcome State Fault Refusal :=
  s.keep fun d =>
    let e := ({ d with host := { d.host with linkRate := rate, linkWidth := width, linkActive := true } }).pinWake
    if rate < 160 ∨ width < 4 then e.condStart 48 0 else e.condEnd 48

/-- BAR2_WRITE (R52, R53). -/
def execBar2Write (fn off : Nat) (data : List Byte) (s : State) : Host.Outcome State Fault Refusal :=
  s.act fun d => d.bar2Write fn off data

/-- BAR2_READ (R52, R53). -/
def execBar2Read (fn off len : Nat) (s : State) : Host.Outcome State Fault Refusal :=
  s.act fun d => d.bar2Read fn off len

/-- ADMIN_QUIESCE_DONE (R58): every fetched admin command has completed. -/
def execAdminQuiesceDone (fn : Nat) (s : State) : Host.Outcome State Fault Refusal :=
  s.act fun d =>
    if d.flag (Reg.FN_CTRL fn) 0 then d
    else if (d.host.ops.any fun o => o.ring == fn) || ((d.ring fn).any fun x => !x.fetched.isEmpty) then d
    else
      ({ d with host := { d.host with rings := SMap.erase d.host.rings fn, cqs := SMap.erase d.host.cqs fn } }).setFlag
        (Reg.FN_STATUS fn) 4 true

/-- RING_POLL (R62, R63). -/
def execRingPoll (ring : Nat) (st : Stores) (s : State) : Host.Outcome State Fault Refusal :=
  s.act fun d => (d.hostStores st).pollActive ring

/-- RING_IDLE_TIMEOUT (R63). -/
def execRingIdleTimeout (ring : Nat) (s : State) : Host.Outcome State Fault Refusal :=
  s.act fun d => d.idleOut ring

/-- SLEEP_RECHECK (R63). -/
def execSleepRecheck (ring : Nat) (st : Stores) (s : State) : Host.Outcome State Fault Refusal :=
  s.act fun d => (d.hostStores st).recheck ring

/-- WAKE_WRITE (R64). -/
def execWakeWrite (fn off : Nat) (v : W32) (st : Stores) (s : State) : Host.Outcome State Fault Refusal :=
  s.act fun d => (d.hostStores st).wake fn off v.toNat

/-- CQ_HEAD_READ (R67). -/
def execCqHeadRead (cq : Nat) (st : Stores) (s : State) : Host.Outcome State Fault Refusal :=
  s.act fun d => (d.hostStores st).headRead cq

/-- NOP (R70): with BARRIER=1 it completes after every earlier operation of its ring. An opcode that no row has is
MALFORMED_DESC (R68, R494). -/
def execNop (o : RingOp) (s : State) : Host.Outcome State Fault Refusal :=
  s.act fun d => d.runOp o
    (fun op => if flagBarrier op.desc || decide (2 ≤ d.ringType op.ring) then keyRing op.ring else keyFree op.id)
    fun e op => (e, resOf (when_ (opcodeOf op.desc != 0 || flagForceKey op.desc || !noLength op.desc ||
      !zeroAt op.desc 8 56) stMalformed))

/-- NEGOTIATE (R81, R82): once per function reset. -/
def execNegotiate (o : RingOp) (s : State) : Host.Outcome State Fault Refusal :=
  s.act fun d => d.runAdmin o levelTwo (fun x => noLength x && zeroAt x 10 54) fun e op =>
    if (e.fn op.fn).negotiated then (e, resOf stVersion)
    else match negotiated (Desc.byte op.desc 8) (Desc.byte op.desc 9) with
      | none => (e, resOf stVersion)
      | some l =>
        let e1 := (e.setFn op.fn { e.fn op.fn with negotiated := true }).setFld (Reg.FN_STATUS op.fn) 15 8 l
        ({ e1 with mgmt := { e1.mgmt with hostSeen := true } }, ⟨stOk, 0, l, e1.mgmt.fwVersion⟩)

/-- CREATE_CQ (R80). -/
def execCreateCq (o : RingOp) (s : State) : Host.Outcome State Fault Refusal :=
  s.act fun d => d.runAdmin o levelTwo
    (fun x => noLength x && Desc.field x 8 15 11 == 0 && zeroAt x 11 1 && zeroAt x 14 2 && zeroAt x 32 32)
    fun e op =>
      if e.cqStatus op ≠ 0 then (e, resOf (e.cqStatus op))
      else
        let x := op.desc
        let c := Desc.field x 8 10 0
        let q : Cq :=
          { fn := e.createdFor FnState.cqs op c, sizeLog2 := Desc.byte x 10, base := Desc.le x 16 8,
            head := Desc.le x 24 8, src := Desc.le x 12 2, written := 0, consumed := 0 }
        (e.setCq c q, resOf stOk)

/-- CREATE_RING (R80). -/
def execCreateRing (o : RingOp) (s : State) : Host.Outcome State Fault Refusal :=
  s.act fun d => d.runAdmin o levelTwo
    (fun x => noLength x && Desc.field x 8 15 12 == 0 && zeroAt x 40 24) fun e op =>
      if e.ringStatus op ≠ 0 then (e, resOf (e.ringStatus op))
      else
        let x := op.desc
        let r := Desc.field x 8 11 0
        let y : Ring :=
          { type := Desc.byte x 10, fn := e.createdFor FnState.rings op r, sizeLog2 := Desc.byte x 11,
            base := Desc.le x 16 8, recAddr := Desc.le x 24 8, cq := Desc.le x 12 2, pri := Desc.field x 14 2 0,
            user := Desc.field x 15 0 0 == 1, epoch := Desc.le x 32 2, pollUs := Desc.le x 34 2,
            idleUs := Desc.le x 36 4, ci := 0, lastPi := 0, changed := e.tb.dt, needsWake := false, sleepSeq := false,
            asleep := false, stopped := false, indexError := false, cqWait := false, closing := false, stale := 0,
            fetched := [] }
        (e.setRing r y, resOf stOk)

/-- DESTROY_RING (R79, R80): fetching stops; DESTROY_RING_DONE completes it. -/
def execDestroyRing (o : RingOp) (s : State) : Host.Outcome State Fault Refusal :=
  s.act fun d => d.runAdminLater o levelTwo
    (fun x => noLength x && Desc.field x 8 15 12 == 0 && zeroAt x 10 54) fun e op =>
      let r := Desc.field op.desc 8 11 0
      let st := worst [when_ (decide (r < 64) || (e.ring r).isNone) stMalformed,
        when_ (!e.owns FnState.rings op.fn op.level r) stProt]
      if st ≠ 0 then (e, some (resOf st)) else later (e.closeRing r)

/-- DESTROY_RING_DONE (R79): every fetched operation of the ring has completed. -/
def execDestroyRingDone (ring : Nat) (s : State) : Host.Outcome State Fault Refusal :=
  s.act fun d =>
    match d.waiting fun o => opcodeOf o.desc == 0x13 && d.ringType o.ring == 3 && Desc.field o.desc 8 11 0 == ring with
    | none => d
    | some op =>
      if (d.host.ops.any fun o => o.ring == ring) || ((d.ring ring).any fun x => !x.fetched.isEmpty) then d
      else ({ d with host := { d.host with rings := SMap.erase d.host.rings ring } }).finish op.id (resOf stOk)

/-- DESTROY_CQ (R79, R80). -/
def execDestroyCq (o : RingOp) (s : State) : Host.Outcome State Fault Refusal :=
  s.act fun d => d.runAdmin o levelTwo
    (fun x => noLength x && Desc.field x 8 15 11 == 0 && zeroAt x 10 54) fun e op =>
      let c := Desc.field op.desc 8 10 0
      let st := worst [when_ (decide (c < 64) || (e.cq c).isNone) stMalformed,
        when_ (e.host.rings.any fun r => r.2.cq == c) stMalformed,
        when_ (!e.owns FnState.cqs op.fn op.level c) stProt]
      if st ≠ 0 then (e, resOf st)
      else ({ e with host := { e.host with cqs := SMap.erase e.host.cqs c } }, resOf stOk)

/-- SET_PROTECTION (R84-R86): the items of a chain take effect together under one new epoch. -/
def execSetProtection (o : RingOp) (s : State) : Host.Outcome State Fault Refusal :=
  s.act fun d => d.runAdmin o levelOne (fun x => protFormat x) fun e op =>
    let items := (op.desc :: op.tail).map protItem
    let st := worst (when_ (!op.tail.all protFormat) stMalformed :: items.map e.itemStatus)
    if st ≠ 0 then (e, resOf st)
    else
      let e1 := (Dev.bumpEpoch e (items.foldl Dev.applyItem e)).reown
      (e1, ⟨stOk, 0, 0, e1.host.epoch⟩)

/-- EPOCH_DRAIN (R85): EPOCH_DRAIN_DONE completes it. -/
def execEpochDrain (o : RingOp) (s : State) : Host.Outcome State Fault Refusal :=
  s.act fun d => d.runAdminLater o levelTwo (fun x => noLength x && zeroAt x 12 52) fun e _ => later e

/-- EPOCH_DRAIN_DONE (R85): no operation fetched under an earlier epoch remains. -/
def execEpochDrainDone (fn : Nat) (s : State) : Host.Outcome State Fault Refusal :=
  s.act fun d =>
    match d.waiting fun o => o.ring == fn && opcodeOf o.desc == 0x19 with
    | none => d
    | some op =>
      if d.drainBusy op.id (Desc.le op.desc 8 4) then d else d.finish op.id (resOf stOk)

/-- FLUSH (R53, R79): FLUSH_DONE completes it. -/
def execFlush (o : RingOp) (s : State) : Host.Outcome State Fault Refusal :=
  s.act fun d => d.runAdminLater o levelTwo (fun x => noLength x && zeroAt x 8 56) fun e _ => later e

/-- FLUSH_DONE (R53): the function's earlier BAR2 writes are visible to the engines. -/
def execFlushDone (fn : Nat) (s : State) : Host.Outcome State Fault Refusal :=
  s.act fun d =>
    match d.waiting fun o => o.ring == fn && opcodeOf o.desc == 0x1A with
    | none => d
    | some op => (d.flushPosted fn).finish op.id (resOf stOk)

end Sys2Proof.Machine
end

