-- ==== Sys2Proof/Machine/BunOps.lean ====
section
/-! DEFINITION. Bunting (spec/17_bunting_pools.md): allocation, holds, releases and frees of buffers, and the
commands of its family that need no register write. -/

namespace Sys2Proof.Machine

def stBufOwner : Nat := 0x0170
def stBufDouble : Nat := 0x0171
def stBufHandle : Nat := 0x0172

/-- Pool and index of a handle (R409). -/
def bufPool (h : Nat) : Nat := h / 2 ^ 29
def bufIndex (h : Nat) : Nat := h % 2 ^ 29

/-- The handle that names no buffer (R409). -/
def noHandle : Nat := 0xFFFFFFFF

/-- Buffers of a pool. -/
def Dev.poolCount (d : Dev) (k : Nat) : Nat := d.fld (Reg.BUN_POOL_COUNT k) 28 0

/-- Whether a handle names a buffer (R409). -/
def Dev.handleOk (d : Dev) (h : Nat) : Bool := decide (bufPool h < 6) && decide (bufIndex h < d.poolCount (bufPool h))

/-- A buffer; one that was never allocated is FREE (R411). -/
def bufFree : Buffer := ⟨0, 0, 0, []⟩
def Dev.buf (d : Dev) (h : Nat) : Buffer := SMap.get (fun _ => bufFree) d.bun.bufs h
def Dev.setBuf (d : Dev) (h : Nat) (b : Buffer) : Dev :=
  { d with bun := { d.bun with bufs := SMap.set (fun _ => bufFree) d.bun.bufs h b } }

/-- The data-space address and size of a buffer (R407). -/
def Dev.bufAddr (d : Dev) (h : Nat) : Nat := (d.poolSpan (bufPool h)).first + bufIndex h * poolSize (bufPool h)
def bufSize (h : Nat) : Nat := poolSize (bufPool h)

/-- A pool; empty before Bunting is enabled. -/
def poolNone : Pool := ⟨[], 0, 0, 0⟩
def Dev.pool (d : Dev) (k : Nat) : Pool := d.bun.pools.getD k poolNone

/-- FREE buffers of a pool. -/
def Dev.poolFree (d : Dev) (k : Nat) : Nat :=
  if d.flag Reg.BUN_CTRL 0 then (d.pool k).back.length + (d.poolCount k - (d.pool k).fresh) else 0

/-- A pool replaced; BUN_POOL_FREE and MIN_FREE_PCT follow. -/
def Dev.setPool (d : Dev) (k : Nat) (p : Pool) : Dev :=
  let d1 := { d with bun := { d.bun with pools := d.bun.pools.set k p } }
  let n := d1.poolFree k
  let m := min p.minFree n
  let d2 := { d1 with bun := { d1.bun with pools := d1.bun.pools.set k { p with minFree := m } } }
  (d2.setReg (Reg.BUN_POOL_FREE k) n).setReg (Reg.BUN_POOL_STATUS k)
    (min p.quarantined 65535 * 65536 + (if d.poolCount k = 0 then 100 else m * 100 / d.poolCount k))

/-- The head of a pool's list of FREE buffers is taken (R415). -/
def Dev.takeHead (d : Dev) (k : Nat) : Option (Dev × Nat) :=
  if d.flag Reg.BUN_CTRL 0 = false then none
  else match (d.pool k).back with
    | i :: r => some (d.setPool k { d.pool k with back := r }, k * 2 ^ 29 + i)
    | [] =>
      if (d.pool k).fresh < d.poolCount k then
        some (d.setPool k { d.pool k with fresh := (d.pool k).fresh + 1 }, k * 2 ^ 29 + (d.pool k).fresh)
      else none

/-- The smallest pool whose buffers hold `size` bytes (R412). -/
def fitPool (size : Nat) : Nat :=
  if size ≤ 2048 then 0 else if size ≤ 16384 then 1 else if size ≤ 131072 then 2
  else if size ≤ 1048576 then 3 else if size ≤ 8388608 then 4 else 5

/-- The first of `n` pools from `k` upward that has a FREE buffer. -/
def Dev.takeFrom (d : Dev) : Nat → Nat → Option (Dev × Nat)
  | 0, _ => none
  | n + 1, k => match d.takeHead k with
    | some x => some x
    | none => d.takeFrom n (k + 1)

/-- An allocation for `owner` (R412-R415): the handle, or none for NO_BUFFER. -/
def Dev.alloc (d : Dev) (size owner : Nat) : Dev × Option Nat :=
  let k := fitPool size
  match d.takeFrom (6 - k) k with
  | none => ((d.count (Reg.BUN_COUNT 2) 1).setEvent Reg.BUN_EVENTS 1, none)
  | some (e, h) =>
    let e1 := (e.setBuf h ⟨1, owner, 0, []⟩).count (Reg.BUN_COUNT 0) 1
    (if bufPool h = k then e1 else (e1.count (Reg.BUN_COUNT 1) 1).setEvent Reg.BUN_EVENTS 0, some h)

/-- One buffer returns (R416): FREE at the head of its list, or QUARANTINED with its owner when a page of it is
POISONED. -/
def Dev.returnOne (d : Dev) (h : Nat) : Dev :=
  let p := d.pool (bufPool h)
  if d.rangePoison (d.bufAddr h) (bufSize h) then
    ((d.setBuf h { d.buf h with state := 3, holds := 0, more := [] }).setPool (bufPool h)
      { p with quarantined := p.quarantined + 1 }).setEvent Reg.BUN_EVENTS 4
  else (d.setBuf h bufFree).setPool (bufPool h) { p with back := bufIndex h :: p.back }

/-- A buffer returns with the continuation buffers of its segment (R420). -/
def Dev.returnBuf (d : Dev) (h : Nat) : Dev :=
  (h :: (d.buf h).more).foldl Dev.returnOne d

/-- HOLD by a device operation (R416): the status it earns, 0 when the hold counts. -/
def Dev.hold (d : Dev) (h : Nat) : Dev × Nat :=
  let b := d.buf h
  if d.handleOk h = false ∨ b.state ≠ 1 then (d, stBufHandle)
  else if 65535 ≤ b.holds then (d, stNoBuffer)
  else (d.setBuf h { b with holds := b.holds + 1 }, 0)

/-- RELEASE by a holder with OWNER code `who` (R416, R419). -/
def Dev.release (d : Dev) (h who : Nat) : Dev :=
  let b := d.buf h
  if d.handleOk h = false ∨ b.holds = 0 ∨ (b.state ≠ 1 ∧ b.state ≠ 2) then d.raise 362 (who * 2 ^ 32 + h)
  else
    let d1 := d.setBuf h { b with holds := b.holds - 1 }
    if b.state = 2 ∧ b.holds = 1 then d1.returnBuf h else d1

/-- A FREE is refused: count, event and NOTE fault with the handle and the requester (R417). -/
def Dev.freeRefused (d : Dev) (h who : Nat) (double : Bool) : Dev :=
  if double then ((d.count (Reg.BUN_COUNT 4) 1).setEvent Reg.BUN_EVENTS 3).raise 361 (who * 2 ^ 32 + h)
  else ((d.count (Reg.BUN_COUNT 3) 1).setEvent Reg.BUN_EVENTS 2).raise 360 (who * 2 ^ 32 + h)

/-- FREE by the owner code `who` at `level` (R416, R417): the status, 0 when accepted, and whether the buffer became
FREE_PENDING. -/
def Dev.free (d : Dev) (h who level : Nat) : Dev × Nat × Bool :=
  let b := d.buf h
  if d.handleOk h = false then (d, stBufHandle, false)
  else if b.state ≠ 1 then (d.freeRefused h who true, stBufDouble, false)
  else if b.owner ≠ who ∧ ¬ (level ≤ 1 ∧ b.owner / 4096 = 1) then (d.freeRefused h who false, stBufOwner, false)
  else if b.holds = 0 then (d.returnBuf h, 0, false)
  else (d.setBuf h { b with state := 2 }, 0, true)

/-- QUARANTINED buffers that a cleared page leaves with no POISONED page become FREE (R411, R416). -/
def Dev.unquarantine (d : Dev) (page : Nat) : Dev :=
  d.bun.bufs.foldl (fun e x =>
    if x.2.state == 3 && (pagesOf (e.bufAddr x.1) (bufSize x.1)).contains page &&
        !e.rangePoison (e.bufAddr x.1) (bufSize x.1) then
      let p := e.pool (bufPool x.1)
      (e.setBuf x.1 bufFree).setPool (bufPool x.1)
        { p with back := bufIndex x.1 :: p.back, quarantined := p.quarantined - 1 }
    else e) d

/-- The first pool whose layout fails the checks of R408. -/
def Dev.badPool (d : Dev) : Option Nat :=
  (List.range 6).find? fun k =>
    let x := d.poolSpan k
    decide (0 < x.count) && (decide (dataSpace < x.first + x.count) ||
      ((List.range 6).any fun j => j != k && x.meets (d.poolSpan j)) ||
      d.host.fns.any fun f => x.meets f.2.window)

/-- Setting BUN_CTRL.ENABLE from 0 to 1 (R408, R415). -/
def Dev.bunEnable (d : Dev) : Dev :=
  match d.badPool with
  | some k => (d.setReg Reg.BUN_STATUS (8 + k)).reject 6
  | none =>
    let d1 := (d.setReg Reg.BUN_STATUS 0).setReg Reg.BUN_CTRL 1
    let d2 := { d1 with bun := { bufs := [], pools := (List.range 6).map fun k => ⟨[], 0, d1.poolCount k, 0⟩ } }
    ((List.range 6).foldl (fun e k => e.setPool k (e.pool k)) d2).setFlag (Reg.BLK_STATE 6) 2 false

/-! ### Meanings -/

/-- ALLOCATION (R412): a size of 0 or above 32 MiB is refused and changes nothing. -/
def execAllocation (size owner : Nat) (s : State) : Host.Outcome State Fault Refusal :=
  s.act fun d => if size = 0 ∨ 33554432 < size then d else (d.alloc size owner).1

/-- HOLD (R416). -/
def execHold (h _owner : Nat) (s : State) : Host.Outcome State Fault Refusal :=
  s.act fun d => (d.hold h).1

/-- RELEASE (R416, R419). -/
def execRelease (h owner : Nat) (s : State) : Host.Outcome State Fault Refusal :=
  s.act fun d => d.release h owner

/-- FREE (R416, R417). -/
def execFree (h owner level : Nat) (s : State) : Host.Outcome State Fault Refusal :=
  s.act fun d => (d.free h owner level).1

/-- BUF_QUERY (R421). -/
def execBufQuery (o : RingOp) (s : State) : Host.Outcome State Fault Refusal :=
  s.act fun d => d.runAdmin o levelOne (fun x => noLength x && zeroAt x 12 52) fun e op =>
    let h := Desc.le op.desc 8 4
    if e.handleOk h then
      (e, ⟨stOk, bufSize h, (e.buf h).state, (e.buf h).owner * 65536 + (e.buf h).holds⟩)
    else (e, resOf stBufHandle)

end Sys2Proof.Machine
end

