-- ==== Sys2Proof/Machine/Codec.lean ====
section
/-! DEFINITION. Codec support, costs and regions (spec/05_coding_contexts.md R112-R116, spec/07_pixel_engines.md
R163-R167, R176-R178), and the level limits that the codecs' standards define (PRESUMED, log entry 13). Codecs: 0 AVC, 1 HEVC,
2 AV1, 3 VVC. -/

namespace Sys2Proof.Machine

/-- Whether a profile, depth, chroma format and level are supported (R163), in encode or decode. -/
def profileOk (enc : Bool) (codec profile depth chroma level : Nat) : Bool :=
  let d8 := depth == 8
  let d810 := depth == 8 || depth == 10
  if codec = 0 then
    if profile = 100 then d8 && chroma == 0 && decide (level ≤ (if enc then 52 else 62))
    else if profile = 110 then !enc && d810 && chroma == 0 && decide (level ≤ 62)
    else profile == 122 && !enc && d810 && decide (chroma ≤ 1) && decide (level ≤ 62)
  else if codec = 1 then
    decide (level ≤ 61) &&
      (if profile = 1 then d8 && chroma == 0 else if profile = 2 then d810 && chroma == 0
       else profile == 4 && !enc && d810 && decide (chroma ≤ 1))
  else if codec = 2 then profile == 0 && d810 && chroma == 0 && decide (level ≤ 61)
  else codec == 3 && profile == 1 && d810 && chroma == 0 && decide (level ≤ 61)

/-- Limits of a level: largest picture (macroblocks for AVC, luma samples for HEVC and VVC, 0 where not used), DPB
macroblocks (AVC), largest bit rate and buffer in bits in the highest tier and in the lowest, tile columns. -/
structure Level where
  num : Nat
  maxPic : Nat
  dpbMbs : Nat
  brHigh : Nat
  cpbHigh : Nat
  brMain : Nat
  cpbMain : Nat
  tileCols : Nat
  deriving DecidableEq, Repr

/-- An AVC level: NAL factor 1,500 of the High profile. -/
def avcLevel (n fs dpb br cpb : Nat) : Level := ⟨n, fs, dpb, br * 1500, cpb * 1500, br * 1500, cpb * 1500, 1⟩

/-- A level of HEVC or VVC: NAL factor 1,100 of the Main profiles. -/
def hevcLevel (n ps brM cpbM brH cpbH cols : Nat) : Level :=
  ⟨n, ps, 0, brH * 1100, cpbH * 1100, brM * 1100, cpbM * 1100, cols⟩

/-- A level of AV1, in 100 kb/s; its buffer is one second at its largest bit rate (R222). -/
def av1Level (n brM brH cols : Nat) : Level := ⟨n, 0, 0, brH * 100000, brH * 100000, brM * 100000, brM * 100000, cols⟩

def avcLevels : List Level :=
  [avcLevel 10 99 396 64 175, avcLevel 11 396 900 192 500, avcLevel 12 396 2376 384 1000,
   avcLevel 13 396 2376 768 2000, avcLevel 20 396 2376 2000 2000, avcLevel 21 792 4752 4000 4000,
   avcLevel 22 1620 8100 4000 4000, avcLevel 30 1620 8100 10000 10000, avcLevel 31 3600 18000 14000 14000,
   avcLevel 32 5120 20480 20000 20000, avcLevel 40 8192 32768 20000 25000, avcLevel 41 8192 32768 50000 62500,
   avcLevel 42 8704 34816 50000 62500, avcLevel 50 22080 110400 135000 135000,
   avcLevel 51 36864 184320 240000 240000, avcLevel 52 36864 184320 240000 240000,
   avcLevel 60 139264 696320 240000 240000, avcLevel 61 139264 696320 480000 480000,
   avcLevel 62 139264 696320 800000 800000]

def hevcLevels : List Level :=
  [hevcLevel 10 36864 128 350 128 350 1, hevcLevel 20 122880 1500 1500 1500 1500 1,
   hevcLevel 21 245760 3000 3000 3000 3000 1, hevcLevel 30 552960 6000 6000 6000 6000 2,
   hevcLevel 31 983040 10000 10000 10000 10000 3, hevcLevel 40 2228224 12000 12000 30000 30000 5,
   hevcLevel 41 2228224 20000 20000 50000 50000 5, hevcLevel 50 8912896 25000 25000 100000 100000 10,
   hevcLevel 51 8912896 40000 40000 160000 160000 10, hevcLevel 52 8912896 60000 60000 240000 240000 10,
   hevcLevel 60 35651584 60000 60000 240000 240000 20, hevcLevel 61 35651584 120000 120000 480000 480000 20]

def vvcLevels : List Level :=
  [hevcLevel 10 36864 128 350 128 350 1, hevcLevel 20 122880 1500 1500 1500 1500 1,
   hevcLevel 21 245760 3000 3000 3000 3000 1, hevcLevel 30 552960 6000 6000 6000 6000 2,
   hevcLevel 31 983040 10000 10000 10000 10000 3, hevcLevel 40 2228224 12000 12000 30000 30000 5,
   hevcLevel 41 2228224 20000 20000 50000 50000 5, hevcLevel 50 8912896 25000 25000 100000 100000 10,
   hevcLevel 51 8912896 40000 40000 160000 160000 10, hevcLevel 52 8912896 60000 60000 240000 240000 10,
   hevcLevel 60 35651584 80000 80000 320000 320000 20, hevcLevel 61 35651584 120000 120000 480000 480000 20]

def av1Levels : List Level :=
  [av1Level 20 15 15 4, av1Level 21 30 30 4, av1Level 30 60 60 6, av1Level 31 100 100 6, av1Level 40 120 300 8,
   av1Level 41 200 500 8, av1Level 50 300 1000 8, av1Level 51 400 1600 8, av1Level 52 600 2400 8,
   av1Level 53 600 2400 8, av1Level 60 600 2400 16, av1Level 61 1000 4800 16]

/-- The levels of a codec that R163 can name. -/
def levelsOf (codec : Nat) : List Level :=
  if codec = 0 then avcLevels else if codec = 1 then hevcLevels else if codec = 2 then av1Levels else vvcLevels

/-- A level that its codec defines. -/
def findLevel (codec level : Nat) : Option Level := (levelsOf codec).find? fun l => l.num == level

/-- Pixel Engine cost in tenths of a cycle per pixel (R112). -/
def cppTenths (enc : Bool) (codec profile depth preset : Nat) : Nat :=
  let e (l : List Nat) : Nat := l.getD preset 0
  if codec = 0 then (if enc then e [6, 10, 20] else if profile = 100 then 10 else 12)
  else if codec = 1 then
    (if enc then (if profile = 1 then e [8, 14, 28] else e [9, 15, 30]) else if profile = 4 then 12 else 10)
  else if codec = 2 then (if enc then (if depth = 8 then e [11, 20, 40] else e [12, 22, 44]) else 12)
  else (if enc then e [14, 26, 52] else 14)

/-- Admitted cost in 10^6 cycles/s of `cpp` hundredths of a cycle per pixel (R116): the pixel rate of R112 and R127,
rounded up. -/
def admitted (w h num den speed cpp : Nat) : Nat := ceilDiv (w * h * num * speed * cpp) (den * 16 * 100 * 1000000)

/-- Tile clock in Hz at a DVFS point (R22). -/
def tileHz (point : Nat) : Nat := [1500000000, 1200000000, 900000000].getD point 1500000000

/-- n of R115: ceil(cost / (0.95 × f)). -/
def splitOf (w h num den speed cpp hz : Nat) : Nat :=
  max 1 (ceilDiv (w * h * num * speed * cpp * 100) (den * 16 * 100 * 95 * hz))

/-- Luma rows and columns of a block of the codec's block row (R165). -/
def blockSide (codec : Nat) : Nat := [16, 64, 64, 128].getD codec 16

/-- Picture width and height in blocks. -/
def blocksOf (codec n : Nat) : Nat := ceilDiv n (blockSide codec)

/-- First block, and one past the last, of encode region `i` of `n` along the axis that is split (R167). -/
def regionSpan (total n i : Nat) : Nat × Nat := (i * total / n, (i + 1) * total / n)

/-- Whether HEVC encode keeps every column at 256 luma samples or more (R167). -/
def columnsOk (codec w n : Nat) : Bool :=
  codec != 1 || n == 1 || (List.range n).all fun i =>
    let x := regionSpan (blocksOf 1 w) n i
    decide (256 ≤ min (x.2 * 64) w - x.1 * 64)

/-- Regions of an encode context: the split or the least the codec needs (R166, R167). -/
def encodeRegions (codec w split : Nat) : Nat := if codec = 2 then max split (ceilDiv w 4096) else split

/-- Tile columns that codec, level and width permit in decode (R257); 0 where no refusal applies: AVC, and codecs with
wavefront. -/
def decodeColumns (codec w : Nat) (l : Level) : Nat := if codec = 2 then min l.tileCols (ceilDiv w 64) else 0

/-- Whether a picture is no larger than its level allows (R176). -/
def fitsLevel (codec w h : Nat) (l : Level) : Bool :=
  if codec = 2 then true
  else if codec = 0 then
    let mw := ceilDiv w 16
    let mh := ceilDiv h 16
    decide (mw * mh ≤ l.maxPic) && decide (mw * mw ≤ 8 * l.maxPic) && decide (mh * mh ≤ 8 * l.maxPic)
  else decide (w * h ≤ l.maxPic) && decide (w * w ≤ 8 * l.maxPic) && decide (h * h ≤ 8 * l.maxPic)

/-- The level's largest DPB size for a picture (R176). -/
def dpbSize (codec w h : Nat) (l : Level) : Nat :=
  let p := w * h
  if codec = 0 then min 16 (l.dpbMbs / max 1 (ceilDiv w 16 * ceilDiv h 16))
  else if codec = 1 then
    (if p * 4 ≤ l.maxPic then 16 else if p * 2 ≤ l.maxPic then 12 else if p * 4 ≤ l.maxPic * 3 then 8 else 6)
  else (if p * 2 ≤ l.maxPic then 16 else if p * 3 ≤ l.maxPic * 2 then 12 else 8)

/-- Pictures reserved for a context (R176): kind 0 decode, 1 encode, 2 analyse. -/
def refPictures (kind codec preset w h : Nat) (l : Level) : Nat :=
  if kind = 1 then [3, 4, 5].getD preset 5
  else if kind = 0 then (if codec = 2 then 9 else min 17 (dpbSize codec w h l + 1))
  else 0

/-- 1 MiB buffers of one reference picture (R178). -/
def refBuffers (w h chroma : Nat) : Nat :=
  ceilDiv (ceilDiv w 64 * 4 * (ceilDiv h 64 * 4) * ((if chroma = 0 then 512 else 768) + 17)) 1048576

/-- Largest QIDX and doubling step Q2 (R223). -/
def qMax (codec depth : Nat) : Nat :=
  if codec = 2 then 255 else if codec = 3 then 63 + 6 * (depth - 8) else 51 + 6 * (depth - 8)
def qStep2 (codec : Nat) : Nat := if codec = 2 then 24 else 6

/-- Mini-GOP length M of a context (R165, R175): the largest power of two within the preset's limit and LOOKAHEAD + 1. -/
def miniGop (preset lookahead : Nat) : Nat :=
  let m := min ([1, 4, 8].getD preset 1) (lookahead + 1)
  if 8 ≤ m then 8 else if 4 ≤ m then 4 else if 2 ≤ m then 2 else 1

/-- log2 of M (R542). -/
def gopDepth (m : Nat) : Nat := if m = 8 then 3 else if m = 4 then 2 else if m = 2 then 1 else 0

end Sys2Proof.Machine
end

