-- ==== Sys2Proof/Machine/Coder.lean ====
section
/-! DEFINITION. The arithmetic coders (spec/08_syntax_engines.md R199, R209): CABAC of AVC and HEVC, CABAC of VVC with two
probability estimates, and the multi-symbol coder of AV1. The spec says that each coder follows its codec's standard
bit-exactly; its steps are those of ITU-T H.264, H.265 and H.266 and of the AV1 specification (PRESUMED, log entry 80). -/

namespace Sys2Proof.Machine

/-- A coder before its first INIT_CODER. -/
def acReset : AcState := ⟨0, 0, 0, false, 0⟩

/-! ### CABAC probabilities -/

/-- The range of the least probable symbol of AVC and HEVC, by 4 × pStateIdx + quantized range. -/
def rangeLps : List Nat :=
  [128, 176, 208, 240, 128, 167, 197, 227, 128, 158, 187, 216, 123, 150, 178, 205, 116, 142, 169, 195, 111, 135, 160, 185,
   105, 128, 152, 175, 100, 122, 144, 166, 95, 116, 137, 158, 90, 110, 130, 150, 85, 104, 123, 142, 81, 99, 117, 135] ++
  [77, 94, 111, 128, 73, 89, 105, 122, 69, 85, 100, 116, 66, 80, 95, 110, 62, 76, 90, 104, 59, 72, 86, 99, 56, 69, 81, 94,
   53, 65, 77, 89, 51, 62, 73, 85, 48, 59, 69, 80, 46, 56, 66, 76, 43, 53, 63, 72, 41, 50, 59, 69, 39, 48, 56, 65] ++
  [37, 45, 54, 62, 35, 43, 51, 59, 33, 41, 48, 56, 32, 39, 46, 53, 30, 37, 43, 50, 29, 35, 41, 48, 27, 33, 39, 45, 26, 31,
   37, 43, 24, 30, 35, 41, 23, 28, 33, 39, 22, 27, 32, 37, 21, 26, 30, 35, 20, 24, 29, 33, 19, 23, 27, 31, 18, 22, 26, 30] ++
  [17, 21, 25, 28, 16, 20, 23, 27, 15, 19, 22, 25, 14, 18, 21, 24, 14, 17, 20, 23, 13, 16, 19, 22, 12, 15, 18, 21, 12, 14,
   17, 20, 11, 14, 16, 19, 11, 13, 15, 18, 10, 12, 15, 17, 10, 12, 14, 16, 9, 11, 13, 15, 9, 11, 12, 14, 8, 10, 12, 14] ++
  [8, 9, 11, 13, 7, 9, 11, 12, 7, 9, 10, 12, 7, 8, 10, 11, 6, 8, 9, 11, 6, 7, 9, 10, 6, 7, 8, 9, 2, 2, 2, 2]

/-- The state after a least probable symbol. -/
def nextLps : List Nat :=
  [0, 0, 1, 2, 2, 4, 4, 5, 6, 7, 8, 9, 9, 11, 11, 12, 13, 13, 15, 15, 16, 16, 18, 18, 19, 19, 21, 21, 22, 22, 23, 24] ++
  [24, 25, 26, 26, 27, 27, 28, 29, 29, 30, 30, 30, 31, 32, 32, 33, 33, 33, 34, 34, 35, 35, 35, 36, 36, 36, 37, 37, 37, 38,
   38, 63]

/-- What a context memory entry says of a bin at a range: the range of the least probable symbol, and the most probable
symbol (R209). -/
def binModel (codec entry range : Nat) : Nat × Bool :=
  if codec = 3 then
    let p := bits entry 23 10 + 16 * bits entry 9 0
    let mps := decide (16384 ≤ p)
    (range / 32 * ((if mps then 32767 - p else p) / 512) / 2 + 4, mps)
  else (rangeLps.getD (4 * bits entry 6 1 + range / 64 % 4) 2, bit entry 0)

/-- The entry after a bin (R209): its layout keeps every other bit 0. -/
def binAdapt (codec entry : Nat) (b : Bool) : Nat :=
  if codec = 3 then
    let s0 := bits entry 27 24
    let s1 := bits entry 31 28
    let p0 := bits entry 9 0
    let p1 := bits entry 23 10
    let q0 := p0 - p0 / 2 ^ s0 + (if b then 1023 / 2 ^ s0 else 0)
    let q1 := p1 - p1 / 2 ^ s1 + (if b then 16383 / 2 ^ s1 else 0)
    q0 % 2 ^ 10 + q1 % 2 ^ 14 * 2 ^ 10 + s0 * 2 ^ 24 + s1 * 2 ^ 28
  else
    let p := bits entry 6 1
    let mps := bit entry 0
    if b = mps then 2 * (if p < 62 then p + 1 else p) + b2n mps
    else 2 * nextLps.getD p 0 + b2n (if p = 0 then !mps else mps)

/-! ### CABAC encode -/

/-- One resolved bit, with the outstanding bits after it. -/
def AcState.emit (a : AcState) (b : Bool) : AcState × List Bool :=
  ({ a with first := false, pending := 0 }, (if a.first then [] else [b]) ++ List.replicate a.pending (!b))

/-- Renormalisation in encode; `n` bounds its steps. -/
def AcState.renormE : Nat → AcState → AcState × List Bool
  | 0, a => (a, [])
  | n + 1, a =>
    if 256 ≤ a.range then (a, [])
    else
      let y := if a.low < 256 then a.emit false
        else if 512 ≤ a.low then ({ a with low := a.low - 512 } : AcState).emit true
        else ({ a with low := a.low - 256, pending := a.pending + 1 }, [])
      let z := ({ y.1 with range := 2 * y.1.range, low := 2 * y.1.low } : AcState).renormE n
      (z.1, y.2 ++ z.2)

/-- A context-coded bin. -/
def AcState.encBin (a : AcState) (codec entry : Nat) (b : Bool) : AcState × List Bool :=
  let m := binModel codec entry a.range
  let r := a.range - m.1
  (if b = m.2 then { a with range := r } else { a with low := a.low + r, range := m.1 } : AcState).renormE 8

/-- A bypass bin. -/
def AcState.encBypass (a : AcState) (b : Bool) : AcState × List Bool :=
  let l := 2 * a.low + (if b then a.range else 0)
  if 1024 ≤ l then ({ a with low := l - 1024 } : AcState).emit true
  else if l < 512 then ({ a with low := l } : AcState).emit false
  else ({ a with low := l - 512, pending := a.pending + 1 }, [])

/-- Bypass bins in order. -/
def AcState.encBypasses (a : AcState) : List Bool → AcState × List Bool
  | [] => (a, [])
  | b :: r =>
    let y := a.encBypass b
    let z := y.1.encBypasses r
    (z.1, y.2 ++ z.2)

/-- A terminating bin; after a 1 the coder waits for FLUSH. -/
def AcState.encTerm (a : AcState) (b : Bool) : AcState × List Bool :=
  if b then ({ a with low := a.low + (a.range - 2), range := 2 }, [])
  else ({ a with range := a.range - 2 } : AcState).renormE 8

/-- FLUSH of CABAC: its last bit is 1, and stands for the stop bit. -/
def AcState.flushBins (a : AcState) : AcState × List Bool :=
  let y := ({ a with range := 2 } : AcState).renormE 8
  let z := y.1.emit (bit y.1.low 9)
  (z.1, y.2 ++ z.2 ++ [bit y.1.low 8, true])

/-! ### CABAC decode -/

/-- Steps of renormalisation from a range. -/
def renormSteps (range : Nat) : Nat := 8 - Nat.log2 (max 1 range)

/-- The window takes the next bits of the stream. -/
def AcState.take (a : AcState) (l : List Bool) (n : Nat) : AcState :=
  { a with low := (l.take n).foldl (fun x b => 2 * x + b2n b) a.low * 2 ^ (n - l.length) }

/-- A context-coded bin: the state, the bits taken, and the bin. -/
def AcState.decBin (a : AcState) (codec entry : Nat) (l : List Bool) : AcState × Nat × Bool :=
  let m := binModel codec entry a.range
  let r := a.range - m.1
  let x : AcState × Bool := if r ≤ a.low then ({ a with low := a.low - r, range := m.1 }, !m.2) else ({ a with range := r }, m.2)
  let n := renormSteps x.1.range
  ({ x.1.take l n with range := x.1.range * 2 ^ n }, n, x.2)

/-- `n` bypass bins, most significant first. -/
def AcState.decBypasses (a : AcState) (l : List Bool) : Nat → AcState × Nat
  | 0 => (a, 0)
  | n + 1 =>
    let y := a.take l 1
    let b := decide (a.range ≤ y.low)
    let z := (if b then { y with low := y.low - a.range } else y : AcState).decBypasses (l.drop 1) n
    (z.1, b2n b * 2 ^ n + z.2)

/-- A terminating bin: no renormalisation after a 1, since the last bit taken is the stop bit. -/
def AcState.decTerm (a : AcState) (l : List Bool) : AcState × Nat × Bool :=
  let r := a.range - 2
  if r ≤ a.low then ({ a with range := r }, 0, true)
  else
    let n := renormSteps r
    ({ ({ a with range := r } : AcState).take l n with range := r * 2 ^ n }, n, false)

/-! ### The multi-symbol coder of AV1 -/

/-- The 16-bit lanes of some entries, and entries from lanes (R209). -/
def lanesOf (entries : List Nat) : List Nat :=
  entries.flatMap fun e => [bits e 15 0, bits e 31 16, bits e 47 32, bits e 63 48]

def ofLanes (k : Nat) (l : List Nat) : List Nat :=
  (List.range k).map fun i => ((List.range 4).map fun j => (l.getD (4 * i + j) 0) % 65536 * 2 ^ (16 * j)).sum

/-- The CDF of `n` symbols in some entries: lane 0 is the adaptation count, and the last value, 32,768, is not stored. -/
def cdfOf (n : Nat) (entries : List Nat) : List Nat := ((lanesOf entries).drop 1).take (n - 1) ++ [32768]

/-- The upper end of symbol `s` of `n` in a range: what lies above the symbols before it, or 0 after the last. -/
def symEdge (range n s : Nat) (cdf : List Nat) : Nat :=
  range / 256 * ((32768 - cdf.getD s 32768) / 64) / 2 + 4 * (n - s - 1)

/-- The entries of a CDF after symbol `s` (R199). -/
def cdfAdapt (n s : Nat) (entries : List Nat) : List Nat :=
  let l := lanesOf entries
  let c := l.headD 0
  let rate := 3 + b2n (decide (15 < c)) + b2n (decide (31 < c)) + min (Nat.log2 n) 2
  let cdf := (List.range (n - 1)).map fun i =>
    let v := l.getD (i + 1) 0
    let t := if s ≤ i then 32768 else 0
    if t < v then v - (v - t) / 2 ^ rate else v + (t - v) / 2 ^ rate
  ofLanes entries.length ((if c < 32 then c + 1 else c) :: cdf)

/-- Shifts that bring a range back to 16 bits. -/
def symShift (range : Nat) : Nat := 15 - Nat.log2 (max 1 range)

/-- A symbol is encoded. -/
def AcState.encSym (a : AcState) (n s : Nat) (cdf : List Nat) : AcState :=
  let u := if s = 0 then a.range else symEdge a.range n (s - 1) cdf
  let v := symEdge a.range n s cdf
  let k := symShift (u - v)
  { a with low := (a.low + (a.range - u)) * 2 ^ k, range := (u - v) * 2 ^ k, pending := a.pending + k }

/-- Literal bits are encoded. -/
def AcState.encLits (a : AcState) : List Bool → AcState
  | [] => a
  | b :: r => (a.encSym 2 (b2n b) [16384, 32768]).encLits r

/-- FLUSH of AV1: the shortest end whose last bit is 1. -/
def AcState.flushSyms (a : AcState) : List Bool :=
  let e := (a.low + 0x3FFF) / 0x4000 + (if (a.low + 0x3FFF) / 0x4000 % 2 = 0 then 1 else 0)
  (List.range (a.pending + 1)).map fun i => bit e (a.pending - i)

/-- The symbol that a window selects; `m` bounds the search. -/
def symFind (value range n : Nat) (cdf : List Nat) : Nat → Nat → Nat
  | 0, s => s
  | m + 1, s => if value < symEdge range n s cdf then symFind value range n cdf m (s + 1) else s

/-- A symbol is decoded: the state, the bits taken, and the symbol. -/
def AcState.decSym (a : AcState) (n : Nat) (cdf : List Nat) (l : List Bool) : AcState × Nat × Nat :=
  let s := symFind a.low a.range n cdf (n - 1) 0
  let u := if s = 0 then a.range else symEdge a.range n (s - 1) cdf
  let v := symEdge a.range n s cdf
  let k := symShift (u - v)
  let m := min k a.left.toNat
  let fresh := (l.take m).foldl (fun x b => 2 * x + b2n b) 0 * 2 ^ (k - min m l.length)
  ({ a with low := (((a.low - v) + 1) * 2 ^ k - 1) ^^^ fresh, range := (u - v) * 2 ^ k, left := a.left - k }, m, s)

/-- `n` literal bits are decoded, most significant first: the state, the bits taken, and their value. -/
def AcState.decLits (a : AcState) (l : List Bool) : Nat → AcState × Nat × Nat
  | 0 => (a, 0, 0)
  | n + 1 =>
    let y := a.decSym 2 [16384, 32768] l
    let z := y.1.decLits (l.drop y.2.1) n
    (z.1, y.2.1 + z.2.1, y.2.2 * 2 ^ n + z.2.2)

/-! ### Starting and ending a coder -/

/-- INIT_CODER in encode. -/
def acInitEnc (codec : Nat) : AcState := if codec = 2 then ⟨0, 32768, 0, false, 0⟩ else ⟨0, 510, 0, true, 0⟩

/-- INIT_CODER in decode: the window takes 9 bits, or 15 in AV1, of a tile that has the rest of the unit, `l`. -/
def acInitDec (codec : Nat) (l : List Bool) : AcState × Nat :=
  if codec = 2 then
    let n := min 15 l.length
    let v := (l.take n).foldl (fun x b => 2 * x + b2n b) 0 * 2 ^ (15 - n)
    (⟨32767 ^^^ v, 32768, 0, false, (l.length : Int) - 15⟩, n)
  else (({ acReset with range := 510 } : AcState).take l 9, 9)

/-- FLUSH in encode: the final bits. -/
def AcState.flush (a : AcState) (codec : Nat) : AcState × List Bool :=
  if codec = 2 then (acReset, a.flushSyms)
  else
    let y := a.flushBins
    (acReset, y.2)

/-- Bits that a Syntax Engine has written, with those that its coder holds pending (R213). -/
def SxeRegs.written (r : SxeRegs) : Nat := r.out.length + r.open_.length + r.ac.pending

/-- A context memory entry as the codec lays it out: every bit outside the layout is 0 (R209). -/
def entryLayout (codec v : Nat) : Nat := if codec = 2 then v % 2 ^ 64 else if codec = 3 then v % 2 ^ 32 else v % 2 ^ 7

end Sys2Proof.Machine
end

