-- ==== Sys2Proof/Machine/Package.lean ====
section
/-! DEFINITION. The bytes that a Segmenter builds (spec/11_packaging_delivery.md): NAL units and OBUs, Common
Encryption, CMAF segments and TS packets. The layout inside a box and a packet is that of ISO/IEC 14496-12, 23001-7 and
13818-1 (PRESUMED, log entry 12). -/

namespace Sys2Proof.Machine

/-! ### Units of an access unit (R277) -/

/-- NAL units of a byte stream with start codes; `cur` is the unit being read, reversed, and `z` the zero bytes just
seen. -/
def splitNal : List Byte → Nat → List Byte → Bool → List (List Byte)
  | [], _, cur, inside => if inside && !cur.isEmpty then [cur.reverse] else []
  | b :: r, z, cur, inside =>
    if b = 0 then splitNal r (z + 1) cur inside
    else if b = 1 ∧ 2 ≤ z then
      (if inside && !cur.isEmpty then [cur.reverse] else []) ++ splitNal r 0 [] true
    else splitNal r 0 (b :: (List.replicate z 0 ++ cur)) inside

/-- An unsigned LEB128 number at the front: value and bytes. -/
def leb128 : Nat → List Byte → Nat × Nat
  | 0, _ => (0, 0)
  | _, [] => (0, 0)
  | n + 1, b :: r =>
    if b.toNat < 128 then (b.toNat, 1)
    else
      let y := leb128 n r
      (b.toNat % 128 + 128 * y.1, y.2 + 1)

/-- OBUs of a temporal unit, each with its header and size field; `n` bounds their number. -/
def splitObu : Nat → List Byte → List (List Byte)
  | 0, _ => []
  | _, [] => []
  | n + 1, b :: r =>
    let ext := if bit b.toNat 2 then 1 else 0
    if bit b.toNat 1 then
      let y := leb128 8 (r.drop ext)
      let len := 1 + ext + y.2 + y.1
      (b :: r).take len :: splitObu n ((b :: r).drop len)
    else [b :: r]

/-- The units of an access unit of a codec; AV1 temporal delimiter OBUs are removed (R277). -/
def unitsOf (codec : Nat) (l : List Byte) : List (List Byte) :=
  if codec = 2 then (splitObu l.length l).filter fun u => bits ((u.headD 0).toNat) 6 3 != 2 else splitNal l 0 [] false

/-! ### Common Encryption (R280, R281) -/

/-- One run of a sample: clear bytes, then protected bytes. -/
structure SubSample where
  clear : List Byte
  prot : List Byte
  deriving DecidableEq, Repr

/-- A unit as it stands in a sample: its 4-byte length prefix (not for AV1), then its bytes. -/
def unitBytes (codec : Nat) (u : List Byte) : List Byte := if codec = 2 then u else beBytes 4 u.length ++ u

/-- The clear and the protected part of a unit (R280): `scheme` 1 'cenc', 2 'cbcs'. -/
def subSample (scheme codec : Nat) (u : List Byte) : SubSample :=
  let all := unitBytes codec u
  match Config.clearPart codec u with
  | none => ⟨all, []⟩
  | some h =>
    let clear := all.length - (u.length - h)
    let prot := all.length - clear
    if codec ≠ 2 ∧ prot < 16 then ⟨all, []⟩
    else
      let c := if scheme = 1 then clear + prot % 16 else clear
      ⟨all.take c, all.drop c⟩

/-- The bytes of a 128-bit block. -/
def blockBytes (b : BitVec 128) : List Byte := beBytes 16 b.toNat

/-- A block of a list of bytes. -/
def bytesBlock (l : List Byte) : BitVec 128 := BitVec.ofNat 128 (beNum (l.take 16))

/-- AES-CTR from block `n` of a stream with an 8-byte IV (R280). -/
def ctrBytes (key iv : Nat) : Nat → Nat → List Byte → List Byte
  | 0, _, _ => []
  | f + 1, n, l =>
    if l.isEmpty then []
    else
      let ks := blockBytes (Config.aesBlock false key (BitVec.ofNat 128 (iv * 2 ^ 64 + n)))
      List.zipWith (· ^^^ ·) (l.take 16) ks ++ ctrBytes key iv f (n + 1) (l.drop 16)

/-- AES-CBC over whole blocks with a pattern: `on` blocks of `on + off` are encrypted, `k` counts blocks; a trailing
partial block stays clear. -/
def cbcBytes (key on off : Nat) : Nat → Nat → BitVec 128 → List Byte → List Byte
  | 0, _, _, l => l
  | f + 1, k, prev, l =>
    if l.length < 16 then l
    else if k % (on + off) < on then
      let c := Config.aesBlock false key (bytesBlock l ^^^ prev)
      blockBytes c ++ cbcBytes key on off f (k + 1) c (l.drop 16)
    else l.take 16 ++ cbcBytes key on off f (k + 1) prev (l.drop 16)

/-- The protected parts of a sample put back, cut to the lengths of `subs`. -/
def refill : List SubSample → List Byte → List SubSample
  | [], _ => []
  | s :: r, l => ⟨s.clear, l.take s.prot.length⟩ :: refill r (l.drop s.prot.length)

/-- A sample's parts encrypted (R280): 'cenc' takes the protected parts as one stream, 'cbcs' each from the constant
IV, video with the pattern 1 of 10. -/
def encryptSample (scheme key iv constIv : Nat) (audio : Bool) (subs : List SubSample) : List SubSample :=
  if scheme = 1 then
    let p := subs.flatMap SubSample.prot
    refill subs (ctrBytes key iv (p.length + 1) 0 p)
  else
    subs.map fun s => ⟨s.clear, cbcBytes key 1 (if audio then 0 else 9) (s.prot.length + 1) 0
      (BitVec.ofNat 128 constIv) s.prot⟩

/-- IV of sample `k` of segment `idx` in 'cenc' (R281). -/
def sampleIv (seed idx k : Nat) : Nat := (seed + idx * 2 ^ 24 + k) % 2 ^ 64

/-! ### CMAF boxes (R277) -/

def fourcc (s : String) : List Byte := s.toList.map fun c => BitVec.ofNat 8 c.toNat

/-- A box. -/
def box (name : String) (body : List Byte) : List Byte := beBytes 4 (8 + body.length) ++ fourcc name ++ body

/-- A full box with version and flags. -/
def fullBox (name : String) (ver flags : Nat) (body : List Byte) : List Byte :=
  box name (beBytes 1 ver ++ beBytes 3 flags ++ body)

/-- A sample ready for its fragment: its parts after encryption, and what 'trun' says of it. -/
structure Placed where
  subs : List SubSample
  dur : Nat
  key : Bool
  cto : Int
  iv : Nat
  deriving DecidableEq, Repr

def Placed.bytes (p : Placed) : List Byte := p.subs.flatMap fun s => s.clear ++ s.prot

/-- Clear runs above 65,535 bytes take entries of their own in 'senc'; `n` bounds their number. -/
def sencRuns : Nat → Nat → Nat → List (Nat × Nat)
  | 0, c, p => [(c, p)]
  | n + 1, c, p => if c < 65536 then [(c, p)] else (65535, 0) :: sencRuns n (c - 65535) p

/-- The entry of a sample in 'senc': its IV in 'cenc', and for video its subsamples. -/
def sencEntry (scheme : Nat) (video : Bool) (p : Placed) : List Byte :=
  let runs := p.subs.flatMap fun s => sencRuns (s.clear.length / 65535) s.clear.length s.prot.length
  (if scheme = 1 then beBytes 8 p.iv else []) ++
  (if video then beBytes 2 runs.length ++ runs.flatMap fun r => beBytes 2 r.1 ++ beBytes 4 r.2 else [])

/-- 'trun' of a fragment: version 1 with sample sizes, durations, flags and signed composition offsets. -/
def trunBox (off : Nat) (l : List Placed) : List Byte :=
  fullBox "trun" 1 0xF01 (beBytes 4 l.length ++ beBytes 4 off ++ l.flatMap fun p =>
    beBytes 4 p.dur ++ beBytes 4 p.bytes.length ++ beBytes 4 (if p.key then 0x02000000 else 0x01010000) ++
    beBytes 4 (unsigned 32 p.cto))

/-- 'moof' of a fragment with `off` as the offset of its data and `aux` as that of its 'senc' entries. -/
def moofBox (seq : Nat) (dts : Int) (scheme : Nat) (video : Bool) (l : List Placed) (off aux : Nat) : List Byte :=
  let entries := l.map (sencEntry scheme video)
  let enc := if scheme = 0 then [] else
    fullBox "saiz" 0 0 (beBytes 1 0 ++ beBytes 4 l.length ++ entries.flatMap fun e => beBytes 1 e.length) ++
    fullBox "saio" 0 0 (beBytes 4 1 ++ beBytes 4 aux) ++
    fullBox "senc" 0 (if video then 2 else 0) (beBytes 4 l.length ++ entries.flatten)
  box "moof" (fullBox "mfhd" 0 0 (beBytes 4 seq) ++
    box "traf" (fullBox "tfhd" 0 0x020000 (beBytes 4 1) ++ fullBox "tfdt" 1 0 (beBytes 8 (unsigned 64 dts)) ++
      trunBox off l ++ enc))

/-- A fragment: 'moof' and 'mdat'. -/
def fragBytes (seq : Nat) (dts : Int) (scheme : Nat) (video : Bool) (l : List Placed) : List Byte :=
  let n := (moofBox seq dts scheme video l 0 0).length
  let aux := n - (l.map (sencEntry scheme video)).flatten.length
  moofBox seq dts scheme video l (n + 8) aux ++ box "mdat" (l.flatMap Placed.bytes)

/-- A sample of a stream placed as sample `k` of its segment. -/
def placeSample (st : Stream) (codec idx key k : Nat) (x : Sample) : Placed :=
  let audio := st.kind == 1
  let iv := sampleIv st.ivSeed idx k
  let subs := if audio then [⟨[], x.data⟩]
    else if st.scheme = 0 then (unitsOf codec x.data).map fun u => ⟨unitBytes codec u, []⟩
    else (unitsOf codec x.data).map (subSample st.scheme codec)
  ⟨if st.scheme = 0 then subs else encryptSample st.scheme key iv st.constIv audio subs, x.dur, x.key, x.pts - x.dts,
    iv⟩

/-- Fragment `n` of a segment, whose first sample is sample `k` (R277). -/
def fragment (st : Stream) (codec : Nat) (g : Segment) (n k : Nat) (l : List Sample) : List Byte :=
  fragBytes ((g.index * 64 + n + 1) % 2 ^ 32) ((l.head?.map Sample.dts).getD 0) st.scheme (st.kind == 0)
    (l.zipIdx.map fun x => placeSample st codec g.index g.key (k + x.2) x.1)

/-- 'styp' with brand 'cmfs'. -/
def stypBox : List Byte := box "styp" (fourcc "cmfs" ++ beBytes 4 0 ++ fourcc "cmfs")

/-- The payload of a segment as it stands: closed fragments and the open one. -/
def Segment.bytes (g : Segment) (st : Stream) (codec : Nat) : List Byte :=
  if st.kind = 2 ∨ g.frag.isEmpty then g.payload
  else g.payload ++ fragment st codec g g.frags (g.stats.length - g.frag.length) g.frag

/-- The CMAF header of a stream (R277). -/
def cmafHeader (st : Stream) (codec w h : Nat) (params : List Byte) : List Byte :=
  box "ftyp" (fourcc "cmfc" ++ beBytes 4 0 ++ fourcc "cmfc") ++
  Config.cmafMoov [st.kind, codec, w, h, st.scheme, st.kid, st.constIv] params (st.entry ++ st.boxes)

/-! ### TS packets (R278) -/

/-- One packet: PID, start of a unit, continuity counter, adaptation field body, payload. -/
def tsPacket (pid : Nat) (start : Bool) (cc : Nat) (adapt : Option (List Byte)) (body : List Byte) : List Byte :=
  let afc := (if adapt.isSome then 2 else 0) + (if body.isEmpty then 0 else 1)
  beBytes 1 0x47 ++ beBytes 2 (b2n start * 0x4000 + pid) ++ beBytes 1 (afc * 16 + cc % 16) ++
  (match adapt with
    | some a => beBytes 1 a.length ++ a
    | none => []) ++ body

/-- The adaptation field that fills a packet with `n` bytes of payload space left over, and carries a PCR. -/
def tsAdapt (pcr : Option Nat) (room used : Nat) : Option (List Byte) :=
  let base := match pcr with
    | some v => beBytes 1 0x10 ++ beBytes 6 (v / 300 % 2 ^ 33 * 2 ^ 15 + 0x7E00 + v % 300)
    | none => []
  let need := room - used
  if base.isEmpty ∧ need = 0 then none
  else if need = 1 ∧ base.isEmpty then some []
  else
    let body := if base.isEmpty then beBytes 1 0 else base
    some (body ++ List.replicate (need - 1 - body.length) 0xFF)

/-- The packets of one PES packet; `n` bounds their number. -/
def tsPackets (pid : Nat) : Nat → Nat → Bool → Option Nat → List Byte → List Byte × Nat
  | 0, cc, _, _, _ => ([], cc)
  | n + 1, cc, first, pcr, l =>
    if l.isEmpty then ([], cc)
    else
      let room := 184
      let head := if pcr.isSome then 8 else 0
      let used := min l.length (room - head)
      let y := tsPackets pid n (cc + 1) false none (l.drop used)
      (tsPacket pid first cc (tsAdapt pcr room used) (l.take used) ++ y.1, y.2)

/-- A 33-bit time stamp of a PES header with its marker bits. -/
def pesStamp (prefix4 v : Nat) : List Byte :=
  beBytes 1 (prefix4 * 16 + v / 2 ^ 30 % 8 * 2 + 1) ++ beBytes 2 (v / 2 ^ 15 % 2 ^ 15 * 2 + 1) ++
  beBytes 2 (v % 2 ^ 15 * 2 + 1)

/-- A PES packet: PTS, and DTS when it differs (R278). -/
def pesPacket (sid : Nat) (video : Bool) (pts dts : Nat) (l : List Byte) : List Byte :=
  let both := pts != dts
  let head := pesStamp (if both then 3 else 2) pts ++ (if both then pesStamp 1 dts else [])
  let len := 3 + head.length + l.length
  beBytes 3 1 ++ beBytes 1 sid ++ beBytes 2 (if video || decide (65535 < len) then 0 else len) ++ beBytes 1 0x80 ++
  beBytes 1 (if both then 0xC0 else 0x80) ++ beBytes 1 head.length ++ head ++ l

/-- A packet that holds a section. -/
def tsSection (pid cc : Nat) (sec : List Byte) : List Byte :=
  tsPacket pid true cc none ((beBytes 1 0 ++ sec ++ List.replicate 184 0xFF).take 184)

/-- Reduction of a tick count to 33 bits (R47). -/
def ticks33 (x : Int) : Nat := unsigned 33 x

def pidPat : Nat := 0x0000
def pidPmt : Nat := 0x1000
def pidVideo : Nat := 0x0100
def pidAudio (k : Nat) : Nat := 0x0101 + k

/-- The video stream_type (R278). -/
def tsVideoType (codec : Nat) : Nat := if codec = 0 then 0x1B else if codec = 1 then 0x24 else 0x33

/-- The continuity counter of a PID. -/
def Segment.ccOf (g : Segment) (pid : Nat) : Nat := SMap.get (fun _ => 0) g.cc pid
def Segment.setCc (g : Segment) (pid cc : Nat) : Segment := { g with cc := SMap.set (fun _ => 0) g.cc pid (cc % 16) }

/-- PAT and PMT appended. -/
def Segment.addPsi (g : Segment) (st : Stream) (codec : Nat) (dts : Int) : Segment :=
  let types := tsVideoType codec :: (List.range st.tracks).map fun k => bits st.tsTypes (8 * k + 7) (8 * k)
  let p := tsSection pidPat (g.ccOf pidPat) Config.tsPat ++ tsSection pidPmt (g.ccOf pidPmt) (Config.tsPmt types)
  { (g.setCc pidPat (g.ccOf pidPat + 1)).setCc pidPmt (g.ccOf pidPmt + 1) with
    payload := g.payload ++ p, psiAt := some dts }

/-- One PES packet appended on a PID. -/
def Segment.addPes (g : Segment) (pid : Nat) (pcr : Option Nat) (pes : List Byte) : Segment :=
  let y := tsPackets pid (pes.length + 1) (g.ccOf pid) true pcr pes
  { g.setCc pid y.2 with payload := g.payload ++ y.1 }

/-- A video access unit appended to a TS segment: PAT and PMT at the start and every PSI_MS, a PCR on the first packet
and so that none lies more than PCR_MS from the one before. -/
def Segment.addVideo (g : Segment) (st : Stream) (codec psiMs pcrMs : Nat) (x : Sample) : Segment :=
  let psi := match g.psiAt with
    | none => true
    | some t => decide (t + (psiMs * 90 : Nat) ≤ x.dts)
  let g1 := if psi then g.addPsi st codec x.dts else g
  let due := match g1.pcrAt with
    | none => true
    | some t => decide (t + (pcrMs * 90 : Nat) < x.dts + (x.dur : Nat))
  let pcr := if due then some (((x.dts * 300 - 2700000) % ((2 ^ 33 * 300 : Nat) : Int)).toNat) else none
  let g2 := g1.addPes pidVideo pcr (pesPacket 0xE0 true (ticks33 x.pts) (ticks33 x.dts) x.data)
  if due then { g2 with pcrAt := some x.dts } else g2

/-- An audio sample appended to a TS segment. -/
def Segment.addAudio (g : Segment) (a : AudioSample) : Segment :=
  g.addPes (pidAudio a.track) none (pesPacket (0xC0 + a.track) false a.pts a.pts a.data)

end Sys2Proof.Machine
end

