-- ==== Sys2Proof/Machine/SegOps.lean ====
section
/-! DEFINITION. The Segmenters (spec/11_packaging_delivery.md R267-R282): streams, cutting, the segment cache, and the
meanings of the stream commands. -/

namespace Sys2Proof.Machine

def stStreamBad : Nat := 0x0140
def stBadSegment : Nat := 0x0141
def stAudioOrder : Nat := 0x0145
def stKeySlot : Nat := 0x0146
def stNoCapacity : Nat := 0x0100
def stUnsupported : Nat := 0x0102

def Dev.stream (d : Dev) (s : Nat) : Option Stream := SMap.find d.dlv.streams s
def Dev.setStream (d : Dev) (s : Nat) (x : Stream) : Dev :=
  { d with dlv := { d.dlv with streams := SMap.insert d.dlv.streams s x } }

/-- A context, if its number is not FREE. -/
def Dev.ctx (d : Dev) (c : Nat) : Option Ctx := SMap.find d.media.ctxs c
def Dev.setCtx (d : Dev) (c : Nat) (x : Ctx) : Dev :=
  { d with media := { d.media with ctxs := SMap.insert d.media.ctxs c x } }

/-- Bytes of a segment buffer by BUF_SIZE (R268). -/
def segBufBytes (b : Nat) : Nat := [131072, 1048576, 8388608, 33554432].getD b 131072

/-- OWNER codes (R410): Segmenter `u`, function `f`. -/
def ownerSeg (u : Nat) : Nat := 0x3000 + u
def ownerFn (f : Nat) : Nat := 0x1000 + f

/-- Codec and size of the context bound to a stream. -/
def Dev.streamCodec (d : Dev) (st : Stream) : Nat × Nat × Nat :=
  match st.ctx.bind d.ctx with
  | some c => (c.codec, c.width, c.height)
  | none => (0, 0, 0)

/-- Access units or samples discarded are counted. -/
def Dev.segDiscarded (d : Dev) (u n : Nat) : Dev := d.count (Reg.SEG_DISCARDED u) n

/-- Buffers of a segment that is not sealed go back (R271). -/
def Dev.segFree (d : Dev) (u : Nat) (l : List Nat) : Dev :=
  l.foldl (fun e h => (e.free h (ownerSeg u) 1).1) d

/-! ### The segment cache (R272, R273) -/

/-- Waiting SEG_NEXT operations take what is ready, oldest first; `n` bounds their number. -/
def Dev.segServe (d : Dev) (s : Nat) : Nat → Dev
  | 0 => d
  | n + 1 => match d.stream s with
    | none => d
    | some st => match st.waits, st.ready with
      | id :: w, x :: r =>
        let d1 := d.setStream s { st with waits := w, ready := r }
        let d2 := match d.op id with
          | some op => if x.record.isEmpty then d1 else d1.opWrite op (Desc.le op.desc 16 8) x.record
          | none => d1
        (d2.finish id ⟨x.status, x.bytes, 0, x.handle⟩).segServe s n
      | _, _ => d

/-- The oldest unclaimed sealed segment leaves when a ninth has sealed (R272). -/
def Dev.segEvict (d : Dev) (s : Nat) : Dev :=
  match d.stream s with
  | none => d
  | some st =>
    let real (x : ReadySeg) := !x.record.isEmpty && !x.init
    if (st.ready.filter real).length ≤ 8 then d
    else match st.ready.find? real with
      | none => d
      | some x =>
        let d1 := d.setStream s { st with ready := st.ready.erase x }
        ((d1.free x.handle (ownerFn st.fn) 1).1).setEvent (Reg.SEG_EVENTS st.seg) 0

/-- Whether standing-order egress takes a stream's segments and pauses while the management cores restart (R480). -/
def Dev.egressPaused (d : Dev) (s : Nat) : Bool :=
  d.mgmt.restarting && d.mgmt.order.any fun o => o.egress.any fun e => e.stream == s

/-- A segment, a header or a refusal becomes ready for SEG_NEXT; a segment that seals while egress pauses is dropped and
counted (R480). -/
def Dev.segPush (d : Dev) (s : Nat) (x : ReadySeg) : Dev :=
  match d.stream s with
  | none => d
  | some st =>
    if d.egressPaused s && !x.record.isEmpty then
      let o := d.mgmt.order.map fun o => { o with dropped := o.dropped + 1 }
      { (d.free x.handle (ownerFn st.fn) 1).1 with mgmt := { d.mgmt with order := o } }
    else
    let d1 := d.setStream s { st with ready := st.ready ++ [x] }
    (d1.segServe s (st.waits.length + 1)).segEvict s

/-- A segment that was discarded: its SEG_NEXT completes with a status. -/
def refusedSeg (status : Nat) : ReadySeg := ⟨status, [], 0, false, 0, 0⟩

/-- FLAGS of a segment record (R273). -/
def segFlags (init trunc late audioLate produced enc : Bool) : Nat :=
  b2n init + 2 * b2n trunc + 4 * b2n late + 8 * b2n audioLate + 16 * b2n produced + 32 * b2n enc

/-- The 64 bytes of a segment record (R273). -/
def segRecord (handle stream flags serial index bytes firstPts frags : Nat) (l : List SampleStat) : List Byte :=
  leBytes 4 handle ++ leBytes 2 stream ++ leBytes 2 flags ++ leBytes 8 serial ++ leBytes 4 index ++ leBytes 4 bytes ++
  leBytes 8 firstPts ++ leBytes 4 ((l.map SampleStat.dur).sum) ++ leBytes 2 l.length ++ leBytes 1 frags ++
  leBytes 1 ((l.map SampleStat.stage).foldl max 0) ++ leBytes 2 (l.filter SampleStat.overran).length ++
  leBytes 2 (l.filter SampleStat.late).length ++ leBytes 20 0

/-- Continuation handles of a segment header, unused ones 0xFFFFFFFF (R271). -/
def segHandles (l : List Nat) : List Byte := l.flatMap (leBytes 4) ++ List.replicate (4 * (48 - l.length)) 0xFF

/-- The payload written to its buffers: from offset 256 of the first, then each continuation from offset 0 (R271). -/
def Dev.segWrite (d : Dev) (size : Nat) : List Nat → List Byte → Dev
  | [], _ => d
  | h :: r, l => (d.dataWrite (d.bufAddr h) (l.take size)).segWrite size r (l.drop size)

/-- A record, its buffers and its payload become a sealed segment of the stream's function (R271, R276, R420). -/
def Dev.segEmit (d : Dev) (st : Stream) (bufs : List Nat) (rec payload : List Byte) : Dev :=
  let h := bufs.headD noHandle
  let more := bufs.drop 1
  let d1 := d.segWrite (segBufBytes st.bufSize) bufs (rec ++ segHandles more ++ payload)
  let d2 := more.foldl (fun e b => e.setBuf b { e.buf b with owner := ownerFn st.fn }) d1
  let d3 := d2.setBuf h { d2.buf h with owner := ownerFn st.fn, more := more }
  { d3 with dlv := { d3.dlv with serial := d3.dlv.serial + 1 } }

/-- Buffers taken so that a segment has `n` of them; none when Bunting has none left (R271). The buffers taken so far
stay with the segment. -/
def Dev.segTake (d : Dev) (st : Stream) : Nat → List Nat → Dev × List Nat × Bool
  | 0, l => (d, l, true)
  | n + 1, l => match d.alloc (segBufBytes st.bufSize) (ownerSeg st.seg) with
    | (e, some h) => e.segTake st n (l ++ [h])
    | (e, none) => (e, l, false)

/-- Buffers that `n` payload bytes need (R271). -/
def segNeed (st : Stream) (n : Nat) : Nat := max 1 (ceilDiv (n + 256) (segBufBytes st.bufSize))

/-- A segment seals (R270-R275). -/
def Dev.segSeal (d : Dev) (s : Nat) (st : Stream) (g : Segment) (trunc : Bool) : Dev :=
  let payload := g.bytes st (d.streamCodec st).1
  let n := segNeed st payload.length
  let d1 := d.segFree st.seg (g.bufs.drop n)
  let late := g.late || g.produced.any d.late
  let overshoot := g.stats.any SampleStat.overran
  let frags := if st.kind = 2 then 1 else g.frags + (if g.frag.isEmpty then 0 else 1)
  let flags := segFlags false trunc late g.audioLate g.produced.isSome (st.scheme != 0)
  let rec_ := segRecord (g.bufs.headD noHandle) s flags (d1.dlv.serial + 1) g.index payload.length (ticks33 g.firstPts)
    frags g.stats
  let d2 := (d1.segEmit st (g.bufs.take n) rec_ payload).count (Reg.SEG_SEALED st.seg) 1
  let status := worst [when_ overshoot stOvershoot, when_ late stLate]
  let d3 := if trunc then d2.setEvent (Reg.SEG_EVENTS st.seg) 1 else d2
  d3.segPush s ⟨status, rec_, g.bufs.headD noHandle, false, payload.length, g.firstPts⟩

/-- An open segment is discarded whole: its buffers go back and its units are counted. -/
def Dev.segDrop (d : Dev) (st : Stream) (g : Segment) : Dev :=
  (d.segFree st.seg g.bufs).segDiscarded st.seg g.stats.length

/-- What an open segment leaves behind when Bunting has no buffer for it (R271). -/
def Dev.segNoBuffer (d : Dev) (s : Nat) (st : Stream) (g : Segment) : Dev :=
  ((d.segDrop st g).setEvent (Reg.SEG_EVENTS st.seg) 2).segPush s (refusedSeg stNoBuffer)

/-- What stays of a segment that would need a fiftieth buffer: its closed fragments (R271); where a segment is one fragment or TS
packets, the units it holds (DESIGN CHOICE, log entry 95). -/
def Segment.whole (g : Segment) (st : Stream) : Segment :=
  if st.kind = 2 ∨ st.fragPics = 0 then g
  else { g with frag := [], stats := g.stats.take (g.stats.length - g.frag.length) }

/-- A segment grown from `g` to `g'` takes the buffers it needs; the result is the segment that goes on, none when it
has sealed TRUNCATED or has been discarded (R271). -/
def Dev.segGrow (d : Dev) (s : Nat) (st : Stream) (g g' : Segment) : Dev × Option Segment :=
  let n := segNeed st (g'.bytes st (d.streamCodec st).1).length
  if 49 < n then
    let w := g.whole st
    let lost := g'.stats.length - w.stats.length
    if w.stats.isEmpty then (((d.segFree st.seg g.bufs).segDiscarded st.seg lost), none)
    else ((d.segDiscarded st.seg lost).segSeal s st w true, none)
  else
    let y := d.segTake st (n - g'.bufs.length) g'.bufs
    if y.2.2 then (y.1, some { g' with bufs := y.2.1 })
    else (y.1.segNoBuffer s st { g' with bufs := y.2.1 }, none)

/-! ### Opening and filling (R270, R277, R278, R282) -/

/-- A CMAF header with these parameter sets is reported (R273). -/
def Dev.segHeader (d : Dev) (s : Nat) (st : Stream) (params : List Byte) : Dev :=
  let c := d.streamCodec st
  let payload := cmafHeader st c.1 c.2.1 c.2.2 params
  let y := d.segTake st (segNeed st payload.length) []
  let d1 := match y.1.stream s with
    | some x => y.1.setStream s { x with params := some params }
    | none => y.1
  if !y.2.2 then ((d1.segFree st.seg y.2.1).setEvent (Reg.SEG_EVENTS st.seg) 2).segPush s (refusedSeg stNoBuffer)
  else
    let h := y.2.1.headD noHandle
    let rec_ := segRecord h s (segFlags true false false false false (st.scheme != 0)) (d1.dlv.serial + 1) 0xFFFFFFFF
      payload.length 0 1 []
    (d1.segEmit st y.2.1 rec_ payload).segPush s ⟨stOk, rec_, h, true, payload.length, 0⟩

/-- An empty segment. -/
def segNew (index : Nat) (pts : Int) (produced : Option Nat) (key : Nat) : Segment :=
  { index := index, bufs := [], payload := [], frag := [], frags := 0, firstPts := pts, topPts := pts, stats := [],
    audioLate := false, produced := produced, key := key, cc := [], psiAt := none, pcrAt := none }

/-- A stream opens a segment with this index: a key change takes effect, the slot is checked under the current
protection, and a CMAF header goes first when it has changed (R273, R282). -/
def Dev.segOpen (d : Dev) (s index : Nat) (pts : Int) (produced : Option Nat) (params : List Byte) : Dev :=
  match d.stream s with
  | none => d
  | some st0 =>
    let st := match st0.newKey with
      | some (i, slot, kid) =>
        if i ≤ index then { st0 with keySlot := slot, kid := kid, newKey := none, params := none } else st0
      | none => st0
    let owns := d.owns FnState.keySlots st.issuer (d.fnLevel st.issuer) st.keySlot
    let key := SMap.find d.mgmt.keys st.keySlot
    let bad := if st.scheme = 0 then 0 else worst [when_ (!owns) stProt, when_ (owns && key.isNone) stKeySlot]
    let d1 := d.setStream s { st with open_ := none, count := st.count + 1 }
    if bad ≠ 0 then (d1.setEvent (Reg.SEG_EVENTS st.seg) 4).segPush s (refusedSeg bad)
    else
      let d2 := if st.kind ≠ 2 ∧ st.params ≠ some params then d1.segHeader s st params else d1
      match d2.stream s with
      | none => d2
      | some x =>
        let seg0 := segNew index pts produced (key.getD 0)
        let seg := if st.kind = 2 then seg0 else { seg0 with payload := stypBox }
        d2.setStream s { x with open_ := some seg }

/-- A sample added to a CMAF segment; a full fragment closes, the 64th takes the rest (R267, R277). -/
def Segment.addSample (g : Segment) (st : Stream) (codec : Nat) (x : Sample) (stat : SampleStat) : Segment :=
  let full := decide (0 < st.fragPics) && decide (st.fragPics ≤ g.frag.length) && decide (g.frags < 63)
  let g1 := if full then
      { g with payload := g.payload ++ fragment st codec g g.frags (g.stats.length - g.frag.length) g.frag,
               frag := [], frags := g.frags + 1 }
    else g
  { g1 with frag := g1.frag ++ [x], stats := g1.stats ++ [stat], topPts := max g1.topPts x.pts }

/-- Signed distance of a 33-bit PTS from an unwrapped one. -/
def ptsDelta (a : Nat) (b : Int) : Int := signed 33 (unsigned 33 ((a : Int) - b))

/-- Whether every track has supplied a sample at or beyond a PTS (R279). -/
def Stream.audioThere (st : Stream) (cut : Int) : Bool :=
  (List.range st.tracks).all fun k => match st.lastPts.getD k none with
    | some p => decide (0 ≤ ptsDelta p cut)
    | none => false

/-- Audio of a TS stream that belongs to a segment goes into it, oldest first. -/
def Dev.segAudioInto (d : Dev) (s : Nat) (st : Stream) : Segment → List AudioSample → Dev × Option Segment
  | g, [] => (d, some g)
  | g, a :: r =>
    match d.segGrow s st g (g.addAudio a) with
    | (e, some g') => e.segAudioInto s st g' r
    | (e, none) => (e.segDiscarded st.seg (r.length + 1), none)

/-- Held audio that lies before a PTS leaves the queue for segment `g`. -/
def Dev.segMux (d : Dev) (s : Nat) (g : Segment) (p : AudioSample → Bool) : Dev × Option Segment :=
  match d.stream s with
  | none => (d, none)
  | some st =>
    let mine := st.audio.filter p
    (d.setStream s { st with audio := st.audio.filter fun a => !p a }).segAudioInto s st g mine

/-- Segments whose cut has arrived seal in order, as soon as their audio is complete, or, with `all`, now (R279);
`n` bounds their number. -/
def Dev.segClose (d : Dev) (s : Nat) (all : Bool) : Nat → Dev
  | 0 => d
  | n + 1 => match d.stream s with
    | none => d
    | some st => match st.closing with
      | [] => d
      | (g, cut, due) :: r =>
        if all || st.audioThere cut || decide (due ≤ d.tb.dt) then
          ((d.setStream s { st with closing := r }).segSeal s st g false).segClose s all n
        else d

/-- The open segment ends at a cut with this PTS; none at the end of the stream (R270, R279). -/
def Dev.segCut (d : Dev) (s : Nat) (cut : Option Int) : Dev :=
  match d.stream s with
  | none => d
  | some st => match st.open_ with
    | none => d
    | some g =>
      let d1 := d.setStream s { st with open_ := none }
      if g.stats.isEmpty then d1.segFree st.seg g.bufs
      else if st.kind = 2 ∧ 0 < st.tracks then
        let before (a : AudioSample) : Bool := match cut with
          | some c => decide (ptsDelta a.pts c < 0)
          | none => true
        match d1.segMux s g before with
        | (e, none) => e
        | (e, some g') => match e.stream s with
          | none => e
          | some x =>
            let due := match cut with
              | some _ => e.tb.dt + x.audioWait * 1000 * unitsPerUs
              | none => 0
            (e.setStream s { x with closing := x.closing ++ [(g', cut.getD 0, due)] }).segClose s false
              (x.closing.length + 1)
      else d1.segSeal s st g false

/-- The cut at instant `t` seals the open segment LATE when a forward step of DT has missed the boundary that it stands
for (R42). -/
def Dev.segLate (d : Dev) (s t : Nat) : Dev :=
  match d.stream s with
  | none => d
  | some st =>
    if st.missed.any fun b => decide (b ≤ t) then
      d.setStream s { st with missed := none, open_ := st.open_.map fun g => { g with late := true } }
    else d

/-- A segment with one more sample replaces the open one. -/
def Dev.segKeep (d : Dev) (s : Nat) (g : Option Segment) : Dev :=
  match d.stream s with
  | none => d
  | some st => d.setStream s { st with open_ := g }

/-- A unit goes into the stream's open segment; with none open it is discarded (R270, R271). -/
def Dev.segAdd (d : Dev) (s : Nat) (x : Sample) (stat : SampleStat) : Dev :=
  match d.stream s with
  | none => d
  | some st => match st.open_ with
    | none => d.segDiscarded st.seg 1
    | some g =>
      let codec := (d.streamCodec st).1
      let g' := if st.kind = 2 then
          let v := g.addVideo st codec (d.fld (Reg.SEG_PARAMS st.seg) 15 8) (d.fld (Reg.SEG_PARAMS st.seg) 7 0) x
          { v with stats := v.stats ++ [stat], topPts := max v.topPts x.pts }
        else g.addSample st codec x stat
      let y := d.segGrow s st g g'
      match y.2 with
      | none => y.1.segKeep s none
      | some g2 =>
        if st.kind = 2 ∧ 0 < st.tracks then
          let z := y.1.segMux s g2 fun a => decide (ptsDelta a.pts g2.topPts ≤ 0)
          z.1.segKeep s z.2
        else y.1.segKeep s (some g2)

/-- The instant of an access unit's PTS, by the origin of its context (R47). -/
def Dev.unitDt (d : Dev) (st : Stream) (pts : Int) : Nat :=
  ((((st.ctx.bind d.ctx).map Ctx.origin).getD 0) + pts * (unitsPerSec : Nat) / 90000).toNat

/-- An access unit reaches its Segmenter (R270). -/
def Dev.packageAu (d : Dev) (s : Nat) (au : AccUnit) : Dev :=
  match d.stream s with
  | none => d
  | some st =>
    if d.flag (Reg.SEG_CTRL st.seg) 0 = false then (if au.mark then d else d.segDiscarded st.seg 1)
    else if au.mark then d.segCut s none
    else
      let opens := if st.cutKey then au.key else au.segStart
      let index := if st.cutKey then st.count % 2 ^ 32 else au.segIndex
      let d1 := if opens then
          ((d.segLate s (d.unitDt st au.pts)).segCut s (some au.pts)).segOpen s index au.pts au.produced
            (Config.paramSets (d.streamCodec st).1 au.data)
        else d
      let d2 := d1.segAdd s ⟨au.data, au.pts, au.dts, au.dur, au.key⟩ ⟨au.dur, au.stage, au.status == stOvershoot, au.late⟩
      if au.ends then d2.segCut s none else d2

/-! ### Audio (R279) -/

/-- The largest multiple of a period that is not later than an instant (R146). -/
def boundaryOf (ms t : Nat) : Nat := t / (max ms 1 * 1000 * unitsPerUs) * (max ms 1 * 1000 * unitsPerUs)

/-- The unwrapped ticks of a PTS, nearest the present media time (R270). -/
def unwrapPts (now : Nat) (origin : Int) (pts : Nat) : Int :=
  let t : Int := ((now : Int) - origin) * 90000 / (unitsPerSec : Nat)
  t + ptsDelta pts t

/-- A sample of an AUDIO_CMAF stream, whose descriptor was fetched at `at_` (R270): it cuts at the boundaries of R146. -/
def Dev.audioCmaf (d : Dev) (s at_ : Nat) (a : AudioSample) : Dev :=
  match d.stream s with
  | none => d
  | some st =>
    let p := unwrapPts at_ st.origin a.pts
    let t := ((st.origin : Int) + p * (unitsPerSec : Nat) / 90000).toNat
    let b := boundaryOf st.segMs t
    let d1 := d.setStream s { st with lastBoundary := some (max b (st.lastBoundary.getD b)) }
    let opens := st.lastBoundary.any fun l => decide (l < b)
    let d2 := if opens then
        ((d1.segLate s t).segCut s (some p)).segOpen s (b / (max st.segMs 1 * 1000 * unitsPerUs) % 2 ^ 32) p none []
      else d1
    d2.segAdd s ⟨a.data, p, p, a.dur, true⟩ ⟨a.dur, 0, false, false⟩

/-- A sealed segment that no SEG_NEXT has claimed takes AUDIO_LATE, in its record and in its header. -/
def Dev.markAudioLate (d : Dev) (s : Nat) (pts : Nat) : Dev :=
  match d.stream s with
  | none => d
  | some st =>
    let own := st.ready.filter fun x => !x.record.isEmpty && !x.init && decide (0 ≤ ptsDelta pts x.firstPts)
    match own.getLast? with
    | none => d
    | some x =>
      let flags := leNum ((x.record.drop 6).take 2)
      let rec_ := x.record.take 6 ++ leBytes 2 (putBits flags 3 3 1) ++ x.record.drop 8
      let d1 := d.setStream s { st with ready := st.ready.map fun y => if y = x then { x with record := rec_ } else y }
      d1.dataWrite (d1.bufAddr x.handle) rec_

/-- A sample of a TS stream (R279): the device and the status. It goes to the newest segment that it does not precede; one that comes
before the stream has any segment for it is discarded (DESIGN CHOICE, log entry 96). -/
def Dev.audioTs (d : Dev) (s : Nat) (a : AudioSample) : Dev × Nat :=
  match d.stream s with
  | none => (d, stOk)
  | some st =>
    let ahead (p : Int) : Bool := decide (0 ≤ ptsDelta a.pts p)
    match st.open_.filter fun g => ahead g.firstPts with
    | some g =>
      let d1 := d.setStream s { st with audio := st.audio ++ [a] }
      let z := d1.segMux s g fun x => decide (ptsDelta x.pts g.topPts ≤ 0)
      ((z.1.segKeep s z.2).segClose s false (st.closing.length + 1), stOk)
    | none => match (st.closing.filter fun c => ahead c.1.firstPts).getLast? with
      | some (g0, cut, due) =>
        match d.segGrow s st g0 (g0.addAudio a) with
        | (e, y) => match e.stream s with
          | none => (e, stOk)
          | some x =>
            let cl := match y with
              | some g1 => x.closing.map fun c => if c = (g0, cut, due) then (g1, cut, due) else c
              | none => x.closing.erase (g0, cut, due)
            ((e.setStream s { x with closing := cl }).segClose s false (cl.length + 1), stOk)
      | none =>
        if st.count ≤ b2n st.open_.isSome then (d.segDiscarded st.seg 1, stOk)
        else (((d.segDiscarded st.seg 1).markAudioLate s a.pts).setEvent (Reg.SEG_EVENTS st.seg) 3, stLate)

/-! ### Contexts and streams -/

/-- What refuses binding a context of a codec to a stream (R268). -/
def Dev.bindStatus (d : Dev) (s codec : Nat) : Nat :=
  match d.stream s with
  | none => stStreamBad
  | some st => when_ (st.kind == 1 || st.ctx.isSome || (st.kind == 2 && codec == 2)) stStreamBad

/-- A context is bound to its stream. -/
def Dev.bindStream (d : Dev) (s c : Nat) : Dev :=
  match d.stream s with
  | none => d
  | some st => d.setStream s { st with ctx := some c }

/-- The stream that a context is bound to. -/
def Dev.streamOf (d : Dev) (c : Nat) : Option Nat := (d.dlv.streams.find? fun e => e.2.ctx == some c).map Prod.fst

/-- Open and closing segments of a stream are discarded. -/
def Dev.segDiscardOpen (d : Dev) (s : Nat) : Dev :=
  match d.stream s with
  | none => d
  | some st =>
    let d1 := d.setStream s { st with open_ := none, closing := [], audio := [] }
    ((st.open_.toList ++ st.closing.map Prod.fst).foldl (fun e g => e.segDrop st g) d1).segDiscarded st.seg
      st.audio.length

/-- A stream's context becomes FAILED (R274). -/
def Dev.segContextFailed (d : Dev) (c : Nat) : Dev :=
  match d.streamOf c with
  | none => d
  | some s => (d.segDiscardOpen s).segPush s (refusedSeg stCtxFailed)

/-- The stream is no longer bound. -/
def Dev.unbind (d : Dev) (s : Nat) : Dev :=
  match d.stream s with
  | none => d
  | some st => d.setStream s { st with ctx := none }

/-- A stream's context is destroyed: the open segment seals at the last access unit packaged (R274). -/
def Dev.segUnbind (d : Dev) (c : Nat) : Dev :=
  match d.streamOf c with
  | none => d
  | some s =>
    let d1 := d.segCut s none
    match d1.stream s with
    | none => d1
    | some st => (d1.segClose s true (st.closing.length + 1)).unbind s

/-- SEG_CTRL.ENABLE falls: every open segment of the Segmenter is discarded. -/
def Dev.segDisable (d : Dev) (u : Nat) : Dev :=
  (SMap.keys d.dlv.streams).foldl (fun e s =>
    if (e.stream s).any fun st => st.seg == u then e.segDiscardOpen s else e) d

/-- Everything a stream holds is released and it is gone; `answer` completes its SEG_NEXT operations. -/
def Dev.segRelease (d : Dev) (s : Nat) (answer : Bool) : Dev :=
  match d.stream s with
  | none => d
  | some st =>
    let d1 := d.segDiscardOpen s
    let d2 := st.ready.foldl (fun e x => if x.record.isEmpty then e else (e.free x.handle (ownerFn st.fn) 1).1) d1
    let d3 := { d2 with dlv := { d2.dlv with streams := SMap.erase d2.dlv.streams s } }
    if answer then st.waits.foldl (fun e id => e.finish id (resOf stStreamBad)) d3 else d3

/-! ### Meanings -/

/-- The stream number of a descriptor. -/
def streamNum (x : Desc) : Nat := Desc.field x 8 12 0

/-- Whether a function may use a stream (R268): streams share the context numbering modulo 4,096. -/
def Dev.ownsStream (d : Dev) (op : Op) (s : Nat) : Bool := d.owns FnState.ctxs op.fn op.level (s % 4096)

/-- A command of a Delivery ring: `priv` refuses level 3 (R286), `fmt` is its format. -/
def Dev.deliveryGate (d : Dev) (op : Op) (priv fmt : Bool) : Nat :=
  d.gate op 1 false false (fmt && noLength op.desc) (!priv || decide (op.level ≤ 2))

/-- A STREAM_CREATE's own format (R267, R268). -/
def streamFormat (x : Desc) : Bool :=
  let kind := Desc.byte x 10
  let flags := Desc.byte x 15
  Desc.field x 8 15 13 == 0 && decide (kind ≤ 2) && decide (Desc.byte x 11 ≤ 8) && decide (Desc.byte x 12 ≤ 2) &&
  decide (Desc.byte x 14 ≤ 3) && decide (bits flags 2 0 ≤ 4) && bits flags 6 3 == 0 &&
  decide (Desc.le x 16 2 < 4096) && (Desc.byte x 12 != 0 || Desc.le x 16 2 == 0) &&
  (if kind = 2 then decide (Desc.le x 18 2 ≤ 1000) else Desc.le x 18 2 == 0 && bits flags 2 0 == 0) &&
  (if kind = 1 then decide (100 ≤ Desc.le x 20 4) && decide (Desc.le x 20 4 ≤ 60000) && dt96Ok (Desc.le x 24 12)
   else Desc.le x 20 4 == 0 && Desc.le x 24 12 == 0) &&
  (kind != 2 || Desc.le x 36 16 == 0) &&
  decide (64 ≤ Desc.le x 60 2) && decide (Desc.le x 60 2 ≤ 4096) && zeroAt x 62 2

/-- Whether an init data block holds only what its stream uses (R269). -/
def initFormat (kind scheme tracks : Nat) (b : List Byte) : Bool :=
  let num (k n : Nat) := leNum ((b.drop k).take n)
  (scheme == 1 || num 0 8 == 0) && (scheme == 2 || num 8 16 == 0) &&
  num 24 4 / 2 ^ (8 * (if kind = 2 then tracks else 0)) == 0 && (kind == 1 || num 28 2 == 0) &&
  (kind != 2 || num 30 2 == 0) && num 32 32 == 0 && num 28 2 + num 30 2 == b.length - 64

/-- The Segmenter of a stream: the one named, or the one with the fewest streams (R268). -/
def Dev.segPick (d : Dev) (k : Nat) : Nat :=
  let load (u : Nat) := (d.dlv.streams.filter fun e => e.2.seg == u).length
  if k < 8 then k else (List.range 8).foldl (fun b u => if load u < load b then u else b) 0

/-- What refuses a STREAM_CREATE (R267-R269) with init data `b`; `pre` is what its address earns. A number that has a stream
earns MALFORMED_DESC, a full Segmenter NO_CAPACITY (DESIGN CHOICE, log entry 94). -/
def Dev.streamStatus (e : Dev) (op : Op) (b : List Byte) (pre : Nat) : Nat :=
  let x := op.desc
  let n := streamNum x
  let kind := Desc.byte x 10
  let scheme := Desc.byte x 12
  let tracks := Desc.field x 15 2 0
  let seg := e.segPick (Desc.byte x 11)
  worst [e.deliveryGate op true (streamFormat x),
    when_ (e.stream n).isSome stMalformed, when_ (!initFormat kind scheme tracks b) stMalformed,
    when_ (kind == 2 && scheme != 0) stUnsupported,
    when_ (!e.ownsStream op n) stProt, pre,
    when_ (scheme != 0 && !e.owns FnState.keySlots op.fn op.level (Desc.le x 16 2)) stProt,
    when_ (decide (1024 ≤ (e.dlv.streams.filter fun y => y.2.seg == seg).length)) stNoCapacity]

/-- A STREAM_CREATE acts (R267-R269) on init data `b`; `pre` is what its address earns. -/
def Dev.streamRun (e : Dev) (op : Op) (b : List Byte) (pre : Nat) : Dev × Result :=
  let x := op.desc
  let n := streamNum x
  let kind := Desc.byte x 10
  let scheme := Desc.byte x 12
  let tracks := Desc.field x 15 2 0
  let num (k n : Nat) := leNum ((b.drop k).take n)
  let seg := e.segPick (Desc.byte x 11)
  let st := e.streamStatus op b pre
  if st ≠ 0 then (e, resOf st)
  else
    let y : Stream :=
      { fn := e.createdFor FnState.ctxs op (n % 4096), issuer := op.fn, kind := kind, seg := seg, scheme := scheme,
        fragPics := Desc.byte x 13, bufSize := Desc.byte x 14, tracks := tracks, cutKey := Desc.field x 15 7 7 == 1,
        keySlot := Desc.le x 16 2, audioWait := Desc.le x 18 2, segMs := Desc.le x 20 4,
        origin := ofDt96 (Desc.le x 24 12), kid := beNum (leBytes 16 (Desc.le x 36 16)), ivSeed := num 0 8,
        constIv := beNum ((b.drop 8).take 16), tsTypes := num 24 4, entry := (b.drop 64).take (num 28 2),
        boxes := b.drop (64 + num 28 2), ctx := none, open_ := none, closing := [], ready := [], waits := [],
        count := 0, lastPts := List.replicate (if kind = 2 then tracks else 1) none, audio := [], newKey := none,
        params := none, lastBoundary := none }
    (e.setStream n y, ⟨stOk, 0, seg, 0⟩)

/-- What the address of a STREAM_CREATE's init data earns. -/
def Dev.initStatus (e : Dev) (op : Op) : Nat :=
  let addr := Desc.le op.desc 52 8
  let len := Desc.le op.desc 60 2
  worst [when_ (!e.windowHas op.fn op.level addr len) stProt, e.readStatus addr len]

/-- STREAM_CREATE (R267-R269). -/
def execStreamCreate (o : RingOp) (s : State) : Host.Outcome State Fault Refusal :=
  s.act fun d => d.runOp o freeKey fun e op =>
    let addr := Desc.le op.desc 52 8
    let len := Desc.le op.desc 60 2
    let y := e.streamRun op (e.dataRead addr len) (e.initStatus op)
    (if y.2.status = 0 then y.1 else y.1.poisonRead addr len, y.2)

/-- What refuses a STREAM_DESTROY (R282). -/
def Dev.streamDestroyStatus (e : Dev) (op : Op) : Nat :=
  let x := op.desc
  let n := streamNum x
  worst [e.deliveryGate op true (Desc.field x 8 15 13 == 0 && zeroAt x 10 54),
    when_ (!e.ownsStream op n) stProt, when_ (!(e.stream n).any fun y => y.ctx.isNone) stStreamBad]

/-- STREAM_DESTROY (R282). -/
def execStreamDestroy (o : RingOp) (s : State) : Host.Outcome State Fault Refusal :=
  s.act fun d => d.runOp o freeKey fun e op =>
    let st := e.streamDestroyStatus op
    if st ≠ 0 then (e, resOf st) else (e.segRelease (streamNum op.desc) true, resOf stOk)

/-- What refuses a STREAM_KEY (R282). -/
def Dev.streamKeyStatus (e : Dev) (op : Op) : Nat :=
  let x := op.desc
  let n := streamNum x
  let fmt := Desc.field x 8 15 13 == 0 && zeroAt x 10 2 && decide (Desc.le x 12 2 < 4096) && zeroAt x 14 2 &&
    zeroAt x 36 28
  worst [e.deliveryGate op true fmt, when_ (!e.ownsStream op n) stProt,
    when_ (!e.owns FnState.keySlots op.fn op.level (Desc.le x 12 2)) stProt,
    when_ (!(e.stream n).any fun y => y.scheme != 0) stStreamBad]

/-- STREAM_KEY (R282). -/
def execStreamKey (o : RingOp) (s : State) : Host.Outcome State Fault Refusal :=
  s.act fun d => d.runOp o freeKey fun e op =>
    let x := op.desc
    let n := streamNum x
    let st := e.streamKeyStatus op
    if st ≠ 0 then (e, resOf st)
    else match e.stream n with
      | none => (e, resOf stStreamBad)
      | some y =>
        (e.setStream n { y with newKey := some (Desc.le x 16 4, Desc.le x 12 2, beNum (leBytes 16 (Desc.le x 20 16))) },
          resOf stOk)

/-- What refuses an AUDIO, its order apart (R279). -/
def Dev.audioStatus (e : Dev) (op : Op) : Nat :=
  let x := op.desc
  let n := streamNum x
  let len := Desc.le x 12 4
  let addr := Desc.le x 16 8
  let sel := e.stream n
  let tracks := (sel.map fun y => if y.kind = 2 then y.tracks else 1).getD 256
  let fmt := Desc.field x 8 15 13 == 0 && zeroAt x 11 1 && decide (Desc.le x 24 8 < 2 ^ 33) && zeroAt x 36 28 &&
    decide (len ≤ 1048576) && decide (Desc.byte x 10 < tracks)
  worst [e.deliveryGate op false fmt, when_ (!e.ownsStream op n) stProt,
    when_ (!e.windowHas op.fn op.level addr len) stProt,
    when_ (!sel.any fun y => y.kind != 0) stStreamBad, e.readStatus addr len]

/-- AUDIO (R279). -/
def execAudio (o : RingOp) (s : State) : Host.Outcome State Fault Refusal :=
  s.act fun d => d.runOp o freeKey fun e op =>
    let x := op.desc
    let n := streamNum x
    let track := Desc.byte x 10
    let len := Desc.le x 12 4
    let addr := Desc.le x 16 8
    let pts := Desc.le x 24 8
    let sel := e.stream n
    let last := (sel.bind fun y => y.lastPts.getD track none)
    let st := e.audioStatus op
    if st ≠ 0 then (e.poisonRead addr len, resOf st)
    else if len = 0 then (e, resOf stZero)
    else if last.any fun p => decide (ptsDelta pts p ≤ 0) then (e, resOf stAudioOrder)
    else match sel with
      | none => (e, resOf stStreamBad)
      | some y =>
        let a : AudioSample := ⟨track, pts, Desc.le x 32 4, e.dataRead addr len⟩
        let e1 := e.setStream n { y with lastPts := y.lastPts.set track (some pts) }
        if e.flag (Reg.SEG_CTRL y.seg) 0 = false then (e1.segDiscarded y.seg 1, ⟨stOk, len, 0, 0⟩)
        else if y.kind = 1 then (e1.audioCmaf n op.at_ a, ⟨stOk, len, 0, 0⟩)
        else
          let z := e1.audioTs n a
          (z.1, ⟨z.2, len, 0, 0⟩)

/-- What refuses a SEG_NEXT (R273). -/
def Dev.segNextStatus (e : Dev) (op : Op) : Nat :=
  let x := op.desc
  let fmt := Desc.field x 8 15 13 == 0 && zeroAt x 10 6 && Desc.le x 16 8 % 64 == 0 && zeroAt x 24 40
  worst [e.deliveryGate op false fmt, when_ (!e.ownsStream op (streamNum x)) stProt,
    when_ (e.stream (streamNum x)).isNone stStreamBad]

/-- SEG_NEXT (R273): it completes when the stream's oldest unclaimed segment is sealed. -/
def execSegNext (o : RingOp) (s : State) : Host.Outcome State Fault Refusal :=
  s.act fun d => d.runLater o freeKey fun e op =>
    let n := streamNum op.desc
    let st := e.segNextStatus op
    match e.stream n with
    | none => (e, some (resOf st))
    | some y =>
      if st ≠ 0 then (e, some (resOf st))
      else later ((e.setStream n { y with waits := y.waits ++ [op.id] }).segServe n (y.waits.length + 1))

/-- The SERIAL that the segment header at a handle holds (R271, R273). -/
def Dev.segSerial (d : Dev) (h : Nat) : Nat := leNum (d.dataRead (d.bufAddr h + 8) 8)

/-- What refuses a SEG_DROP before its buffer is asked for (R276). -/
def Dev.segDropStatus (e : Dev) (op : Op) : Nat :=
  let x := op.desc
  let h := Desc.le x 12 4
  worst [e.deliveryGate op false (zeroAt x 8 4 && zeroAt x 24 40), when_ (!e.handleOk h) stBufHandle,
    when_ (e.handleOk h && e.segSerial h != Desc.le x 16 8) stBadSegment]

/-- SEG_DROP (R276, R417, R418). -/
def execSegDrop (o : RingOp) (s : State) : Host.Outcome State Fault Refusal :=
  s.act fun d => d.runOp o freeKey fun e op =>
    let h := Desc.le op.desc 12 4
    let st := e.segDropStatus op
    if st ≠ 0 then (e, resOf st)
    else
      let y := e.free h (ownerFn op.fn) (if op.fn = 0 then op.level else 2)
      if y.2.1 ≠ 0 then (y.1, resOf y.2.1) else (y.1, ⟨stOk, 0, b2n y.2.2, 0⟩)

/-- ACCESS_UNIT_PACKAGE (R270): the stream's Segmenter takes its context's next access unit. -/
def execAccessUnitPackage (stream : Nat) (s : State) : Host.Outcome State Fault Refusal :=
  s.act fun d =>
    match (d.stream stream).bind Stream.ctx with
    | none => d
    | some c => match d.ctx c with
      | none => d
      | some x => match x.out with
        | [] => d
        | au :: r =>
          let d1 := (d.setCtx c { x with out := r }).packageAu stream au
          match au.finishes with
          | some (id, status, done) =>
            d1.finish id ⟨if au.produced.any d1.late then max status stLate else status, done, 0, 0⟩
          | none => d1

/-- AUDIO_WAIT_TIMEOUT (R279): AUDIO_WAIT_MS after the cut, the oldest waiting segment seals. -/
def execAudioWaitTimeout (stream : Nat) (s : State) : Host.Outcome State Fault Refusal :=
  s.act fun d =>
    match d.stream stream with
    | none => d
    | some st => match st.closing with
      | [] => d
      | (_, _, due) :: _ => (d.advanceTo due).segClose stream false st.closing.length

end Sys2Proof.Machine
end

