-- ==== Sys2Proof/Machine/TileOps.lean ====
section
/-! DEFINITION. The shared operations of contexts, groups and tiles (spec/05_coding_contexts.md): capacity, failure of
a context, leaving a group, and the pairs. -/

namespace Sys2Proof.Machine

def stBadState : Nat := 0x0101
def stGroupFull : Nat := 0x0103
def stHalyard : Nat := 0x0104
def stSideMismatch : Nat := 0x0105
def stDestroyed : Nat := 0x0106
def stGroupMismatch : Nat := 0x0107
def stAuTooLarge : Nat := 0x0108
def stSourceFailed : Nat := 0x0109
def stRcRefused : Nat := 0x0130

/-! ### Things at rest -/

def srcReset : Source :=
  { fmt := none, pics := [], count := 0, lastKey := none, lastBoundary := none, lastDt := none, keyNow := [],
    ended := false, prev := [], prevHalf := [], lastMean := none, side := none, sideCount := 0 }

def decReset : DecState :=
  { parts := [], ingest := [], losses := [], pesPts := [], arrival := 0, arrivals := [], refs := [], held := [],
    started := false, noRasl := false, recovery := none, refused := false, sets := [], badSets := [], errors := [], closed := none,
    eosAt := none, params := [], lastPts := none, paused := false, openAt := none }

def sxeRegsReset : SxeRegs :=
  { regs := List.replicate 16 0, cnts := List.replicate 4 0, z := false, n := false, c := false, bin := false,
    ac := acReset, ctxMem := [], out := [], open_ := [], epb := true, unit := [], unitPos := 0, last16 := 0, unitEnd := 0,
    streamPos := 0, cur := [], recPos := 0, recIdx := 0, staged := [], streamError := 0, errs := [], budgetOut := false }

def sxeReset : Sxe :=
  { com := sxeRegsReset, sh := sxeRegsReset, stack := [], pc := 0, entry := 0, word := 0, committed := false,
    issued := 0, faults := 0, stop := false, rowEnd := false, parked := false, running := false, rowFrom := 0,
    rowBits := 0, used := 0, ppx := 0 }

def cbReset : CoupBuf :=
  { recs := [], high := 0, pos := ⟨0, 0, 0, 0⟩, prodStarts := 0, prodEnds := 0, consStarts := 0, consEnds := 0 }

/-- An idle pair. -/
def pairReset : Pair := ⟨none, 0, false, cbReset, sxeReset, ⟨0, 0, [], [], []⟩, []⟩

/-- A Syntax Engine at the start of a region: emulation prevention is on where the codec has it (R210). -/
def sxeStart (codec : Nat) : Sxe :=
  { sxeReset with com := { sxeRegsReset with epb := codec != 2 }, sh := { sxeRegsReset with epb := codec != 2 } }

/-- Pair `n` of tile `t` (R16). -/
def Dev.pair (d : Dev) (k : Nat) : Pair := SMap.get (fun _ => pairReset) d.media.pairs k
def Dev.setPair (d : Dev) (k : Nat) (x : Pair) : Dev :=
  { d with media := { d.media with pairs := SMap.set (fun _ => pairReset) d.media.pairs k x } }

def Dev.group (d : Dev) (g : Nat) : Option Group := SMap.find d.media.groups g
def Dev.setGroup (d : Dev) (g : Nat) (x : Group) : Dev :=
  { d with media := { d.media with groups := SMap.insert d.media.groups g x } }

/-! ### Pairs -/

/-- A pair takes a region, or becomes idle; PXE_BUSY, SXE_BUSY and CB_FILL follow. One that becomes idle is between two
pictures, its safe point (R97). -/
def Dev.assignPair (d : Dev) (k : Nat) (c : Option Nat) (region : Nat) : Dev :=
  let t := k / 16
  let codec := ((c.bind d.ctx).map Ctx.codec).getD 0
  let x : Pair := { pairReset with ctx := c, region := region, sxe := sxeStart codec }
  let e := (((d.setPair k x).setFlag (Reg.PXE_BUSY t) (k % 16) c.isSome).setFlag (Reg.SXE_BUSY t) (k % 16) c.isSome).setReg
    (Reg.CB_FILL t (k % 16)) 0
  if c.isNone then e.safePoint (36 + t) (k % 16) else e

/-- Every pair that runs a region of context `c` becomes idle. -/
def Dev.freePairs (d : Dev) (c : Nat) : Dev :=
  (SMap.keys d.media.pairs).foldl (fun e k => if (e.pair k).ctx = some c then e.assignPair k none 0 else e) d

/-- Idle pairs of a tile, in rising order; an SXE that has a new patch to take takes it first (R218). -/
def Dev.idlePairs (d : Dev) (t : Nat) : List Nat :=
  (List.range 16).filterMap fun n =>
    if (d.pair (16 * t + n)).ctx.isNone && !d.media.oldPatch.contains (16 * t + n) then some (16 * t + n) else none

/-- The running or ready pictures of a context leave its tile. -/
def Dev.dropJobs (d : Dev) (c : Nat) (running : Bool) : Dev :=
  match d.ctx c with
  | none => d
  | some x =>
    let t := d.tile x.tile
    d.setTile x.tile { t with jobs := t.jobs.filter fun j => j.ctx != c || (j.running && !running) }

/-- Saved region states of a context go. -/
def Dev.dropSaved (d : Dev) (c : Nat) : Dev :=
  { d with media := { d.media with saved := d.media.saved.filter fun e => e.1 / 16 != c } }

/-- Rung sources of a context go. -/
def Dev.dropRungs (d : Dev) (c : Nat) : Dev :=
  { d with media := { d.media with rungs := d.media.rungs.filter fun e => e.1 % 4096 != c } }

/-! ### Capacity (R116, R118) -/

/-- C and the ANE pool at the current point (R116). -/
def Dev.capPxe (d : Dev) (t : Nat) : Nat := d.fld (Reg.TILE_CAPACITY t) 15 0
def Dev.capAne (d : Dev) (t : Nat) : Nat := d.fld (Reg.TILE_CAPACITY t) 31 16

/-- The ON_DEMAND reserve. -/
def Dev.odReserve (d : Dev) (t : Nat) : Nat := d.capPxe t * d.fld (Reg.TILE_CTRL t) 15 8 / 100

/-- Unadmitted capacity of a tile for a class (R118): LIVE share, reserve, or both together for BULK. -/
def Dev.unadmitted (d : Dev) (t cls : Nat) : Int :=
  let c : Int := d.capPxe t
  let r : Int := d.odReserve t
  let l : Int := d.reg (Reg.TILE_ADMITTED_LIVE t)
  let o : Int := d.reg (Reg.TILE_ADMITTED_OD t)
  if cls = 0 then c - r - l else if cls = 1 then r - o else c - l - o

/-- Whether a Pixel Engine cost is admitted. -/
def Dev.admits (d : Dev) (t cls cost : Nat) : Bool := cls == 2 || decide ((cost : Int) ≤ d.unadmitted t cls)

/-- Whether an ANE cost is admitted. -/
def Dev.admitsAne (d : Dev) (t cost : Nat) : Bool := decide (d.reg (Reg.TILE_ADMITTED_ANE t) + cost ≤ d.capAne t)

/-- The admitted sum of a class; BULK is charged nowhere (R107). -/
def Dev.charge (d : Dev) (t cls : Nat) (cost : Int) : Dev :=
  let a := if cls = 0 then Reg.TILE_ADMITTED_LIVE t else Reg.TILE_ADMITTED_OD t
  if cls = 2 then d else d.setReg a ((d.reg a : Int) + cost).toNat

/-- The admitted ANE sum. -/
def Dev.chargeAne (d : Dev) (t : Nat) (cost : Int) : Dev :=
  d.setReg (Reg.TILE_ADMITTED_ANE t) ((d.reg (Reg.TILE_ADMITTED_ANE t) : Int) + cost).toNat

/-- The tile with the most unadmitted capacity of a class among those that `p` allows, the lowest on a tie. -/
def Dev.bestTile (d : Dev) (cls : Nat) (p : Nat → Bool) : Option Nat :=
  (List.range 4).foldl (fun b t =>
    if p t then
      match b with
      | none => some t
      | some x => if d.unadmitted x cls < d.unadmitted t cls then some t else some x
    else b) none

/-! ### Operations of a context -/

/-- Waiting operations that `p` chooses complete, in the order they were taken. -/
def Dev.endOps (d : Dev) (p : Op → Bool) (r : Op → Result) : Dev :=
  (d.host.ops.filter fun o => o.result.isNone && p o).foldl (fun e o => e.finish o.id (r o)) d

/-- Pictures that every member has encoded or left, and whose decisions have been given, leave a group; their PICTURE
completes (R123, R130). -/
def Dev.releasePics (d : Dev) (g : Nat) : Dev :=
  match d.group g with
  | none => d
  | some x =>
    let done (p : SrcPic) : Bool := p.given && p.waiting.isEmpty
    let gone := x.src.pics.filter done
    let d1 := d.setGroup g { x with src := { x.src with pics := x.src.pics.filter fun p => !done p } }
    gone.foldl (fun e p => match p.op with
      | some id => e.finish id ⟨stOk, 1, 0, 0⟩
      | none => e) d1

/-- A member leaves its group (R122): pictures no longer wait for it. -/
def Dev.memberLeft (d : Dev) (c : Nat) : Dev :=
  match (d.ctx c).bind Ctx.group with
  | none => d
  | some g => match d.group g with
    | none => d
    | some x =>
      let src := { x.src with pics := x.src.pics.map fun p => { p with waiting := p.waiting.filter (· != c) } }
      (d.setGroup g { x with members := x.members.filter (· != c), src := src,
                             produces := x.produces.filter fun p => p.ctx != c }).releasePics g

/-- The group that a DECODE context feeds. -/
def Dev.groupOfSource (d : Dev) (c : Nat) : Option Nat :=
  (d.media.groups.find? fun e => e.2.srcCtx == some c).map Prod.fst

/-- A group's source has failed (R123, R129): pending operations of the members and waiting KEY_NOWs complete. -/
def Dev.sourceFailed (d : Dev) (c : Nat) : Dev :=
  match d.groupOfSource c with
  | none => d
  | some g => match d.group g with
    | none => d
    | some x =>
      let keys := x.src.keyNow.map KeyReq.op
      let d1 := d.setGroup g { x with failed := true, src := { x.src with keyNow := [], pics := [] }, produces := [],
                                      decodes := [] }
      let d2 := d1.endOps (fun o => x.members.any fun m => o.key == keyCtx m) fun _ => resOf stSourceFailed
      let d3 := keys.foldl (fun e id => e.finish id (resOf stSourceFailed)) d2
      x.members.foldl (fun e m => match e.ctx m with
        | some y => e.setCtx m { y with getAus := [] }
        | none => e) d3

/-- A context becomes FAILED (R109): the running picture stops, its pending operations complete with CONTEXT_FAILED and
DETAIL; `hit` is an operation that meets MEM_POISONED as well (R181). The bits appended for the running picture and the region
states last written back stay (R207). -/
def Dev.ctxFail (d : Dev) (c cause detail : Nat) (hit : Option Nat) : Dev :=
  match d.ctx c with
  | none => d
  | some x =>
    if x.state = 3 ∨ x.state = 4 then d
    else
      let d1 := ((d.dropJobs c true).freePairs c).dropRungs c
      let d2 := d1.setCtx c { x with state := 3, cause := cause, detail := detail, out := [], gop := [], getAus := [],
                                     ahead := [], hidden := [] }
      let d3 := d2.endOps (fun o => o.key == keyCtx c) fun o =>
        ⟨if hit = some o.id then max stCtxFailed stPoison else stCtxFailed, 0, detail, 0⟩
      let d4 := (d3.setEvent (Reg.TILE_EVENTS x.tile) 2).raise (72 + 32 * x.tile) (cause * 2 ^ 16 + c)
      ((d4.memberLeft c).sourceFailed c).segContextFailed c

/-! ### The context cache (R111) -/

/-- Whether a running picture of a context would address a tile or stack that has stopped (R20, R109): its tile, its group's
home tile, its reference buffers, or the bitstream data it reads. -/
def Dev.ctxLost (d : Dev) (x : Ctx) : Bool :=
  (d.tile x.tile).stopped || ((x.group.bind d.group).any fun g => (d.tile g.tile).stopped) ||
  (x.buffers.any fun h => d.rangeLost (d.bufAddr h) (bufSize h)) ||
  (x.dec.parts.head?.any fun p => d.rangeLost p.addr p.len)

/-- Whether a context has a running or ready picture. -/
def Tile.active (t : Tile) (c : Nat) : Bool := t.jobs.any fun j => j.ctx == c

/-- The context whose cache entry is written back to make room for context `c`; none when there is room. -/
def Tile.replaces (t : Tile) (c : Nat) : Option Nat :=
  if t.cache.contains c || decide (t.cache.length < 128) then none else t.cache.find? fun y => !t.active y

/-- A context's state is in the tile's cache, last in its order; a replaced entry is written back. None when every one
of the 128 slots holds a context with a running or ready picture. -/
def Tile.load (t : Tile) (c : Nat) : Option Tile :=
  if t.cache.contains c then some { t with cache := t.cache.filter (· != c) ++ [c] }
  else if t.cache.length < 128 then some { t with cache := t.cache ++ [c] }
  else match t.cache.find? fun y => !t.active y with
    | some y => some { t with cache := t.cache.filter (· != y) ++ [c] }
    | none => none

/-! ### Formats -/

/-- A command of a Job ring: `priv` refuses level 3 (R125), `fmt` is its format; LENGTH is reserved unless `len`. -/
def Dev.jobGate (d : Dev) (op : Op) (priv len force fmt : Bool) : Nat :=
  d.gate op 0 false force (fmt && (len || noLength op.desc)) (!priv || decide (op.level ≤ 2))

/-- The context number of a descriptor, and the order class of its operations (R74). -/
def ctxNum (x : Desc) : Nat := Desc.field x 8 11 0
def ctxKey (op : Op) : Nat := keyCtx (ctxNum op.desc)

/-- The ring context number field has no reserved bit set. -/
def ctxField (x : Desc) : Bool := Desc.field x 8 15 12 == 0

/-- Whether an operation may name a context (R125). -/
def Dev.ownsCtx (d : Dev) (op : Op) (c : Nat) : Bool := d.owns FnState.ctxs op.fn op.level c

/-- Whether an operation may name a group: one that its function created (R125). -/
def Dev.ownsGroup (d : Dev) (op : Op) (g : Nat) : Bool :=
  decide (op.level ≤ 1) || match d.group g with
    | some x => x.fn == op.fn
    | none => true

end Sys2Proof.Machine
end

