-- ==== Sys2Proof/Machine/CtxOps.lean ====
section
/-! DEFINITION. Creating and destroying contexts and ladder groups, KEY_NOW, GET_AU and BITSTREAM
(spec/05_coding_contexts.md, spec/10_decoding.md). -/

namespace Sys2Proof.Machine

/-! ### CREATE_CONTEXT (R112-R118, R126, R127) -/

/-- The fields of a CREATE_CONTEXT descriptor. -/
structure NewCtx where
  ctx : Nat
  kind : Nat
  cls : Nat
  codec : Nat
  profile : Nat
  level : Nat
  preset : Nat
  width : Nat
  height : Nat
  rateNum : Nat
  rateDen : Nat
  group : Nat
  tile : Nat
  maxSplit : Nat
  depth : Nat
  chroma : Nat
  output : Nat
  stream : Nat
  latencyUs : Nat
  origin : Nat
  ingest : Nat
  speed : Nat
  deriving DecidableEq, Repr

def newCtx (x : Desc) : NewCtx :=
  { ctx := ctxNum x, kind := Desc.byte x 10, cls := Desc.byte x 11, codec := Desc.byte x 12,
    profile := Desc.byte x 13, level := Desc.byte x 14, preset := Desc.byte x 15, width := Desc.le x 16 2,
    height := Desc.le x 18 2, rateNum := Desc.le x 20 4, rateDen := Desc.le x 24 2, group := Desc.le x 26 2,
    tile := Desc.byte x 28, maxSplit := Desc.byte x 29, depth := Desc.field x 30 3 0, chroma := Desc.field x 30 5 4,
    output := Desc.byte x 31, stream := Desc.le x 32 4, latencyUs := Desc.le x 36 4, origin := Desc.le x 40 12,
    ingest := Desc.le x 52 4, speed := Desc.le x 56 2 }

/-- SPEED in units of 1/16, 0 taken as 16 (R127). -/
def NewCtx.spd (n : NewCtx) : Nat := if n.speed = 0 then 16 else n.speed

/-- Whether the descriptor names a group. -/
def NewCtx.grouped (n : NewCtx) : Bool := n.kind == 1 && n.group != 0xFFFF

/-- Cost in hundredths of a cycle per pixel: three times the table for a standalone encode, 0.25 for analysis
(R112-R114). -/
def NewCtx.cpp (n : NewCtx) : Nat :=
  if n.kind = 2 then 25
  else cppTenths (n.kind == 1) n.codec n.profile n.depth n.preset * 10 * (if n.kind = 1 ∧ !n.grouped then 3 else 1)

/-- The admitted cost (R116). -/
def NewCtx.cost (n : NewCtx) : Nat := admitted n.width n.height n.rateNum n.rateDen n.spd n.cpp

/-- Reserved fields, encodings and ranges (R8, R126, R127). -/
def NewCtx.formatOk (n : NewCtx) (x : Desc) : Bool :=
  let od := n.cls == 1 && n.kind != 2
  ctxField x && Desc.field x 30 7 6 == 0 && zeroAt x 58 6 && decide (n.kind ≤ 2) && decide (n.cls ≤ 2) &&
  decide (n.tile ≤ 4) && n.rateNum != 0 && n.rateDen != 0 && dt96Ok n.origin &&
  (if n.cls = 0 then decide (1000 ≤ n.latencyUs) && decide (n.latencyUs ≤ 10000000) else n.latencyUs == 0) &&
  (od || n.speed == 0) &&
  (if n.kind = 1 then
    decide (n.preset ≤ 2) && (n.group == 0xFFFF || decide (n.group < 512)) && decide (n.output ≤ 1) &&
      (if n.output = 1 then decide (n.stream < 8192) else n.stream == 0) && n.ingest == 0
   else n.group == 0 && n.output == 0 && n.stream == 0) &&
  (if n.kind = 2 then
    n.codec == 0 && n.profile == 0 && n.level == 0 && n.preset == 0 && n.maxSplit == 0 && Desc.byte x 30 == 0 &&
      n.ingest == 0
   else decide (1 ≤ n.maxSplit) && decide (n.maxSplit ≤ 16)) &&
  (n.kind != 0 || n.ingest == 0xFFFFFFFF || decide (n.ingest < 1024))

/-- What is outside support (R126, R127, R163, R176). -/
def NewCtx.supported (n : NewCtx) : Bool :=
  let size := decide (64 ≤ n.width) && decide (n.width ≤ 8192) && n.width % 2 == 0 && decide (64 ≤ n.height) &&
    decide (n.height ≤ 4320) && n.height % 2 == 0
  let lev := findLevel n.codec n.level
  size && (n.rateDen == 0 || decide (n.rateNum ≤ 240 * n.rateDen)) && (n.kind == 1 || n.preset == 0) &&
  (n.speed == 0 || n.cls != 1 || n.kind == 2 || (decide (16 ≤ n.speed) && decide (n.speed ≤ 256))) &&
  (n.kind == 2 || (decide (n.codec ≤ 3) && profileOk (n.kind == 1) n.codec n.profile n.depth n.chroma n.level &&
    lev.isSome && (n.kind == 1 || lev.any (fitsLevel n.codec n.width n.height))))

/-- Whether a group takes a member (R121, R123, R129, R141, R149); 0 when it does. -/
def Dev.joinStatus (d : Dev) (op : Op) (n : NewCtx) : Nat :=
  if !n.grouped then 0
  else match d.group n.group with
    | none => stBadState
    | some g =>
      worst [when_ (!d.ownsGroup op n.group) stProt, when_ g.failed stBadState,
        when_ (decide (64 ≤ g.members.length)) stGroupFull,
        when_ (g.cls != n.cls || n.rateNum * g.rateDen != g.rateNum * n.rateDen ||
          decide (g.width < n.width) || decide (g.height < n.height) || g.speed.any (· != n.spd) ||
          g.origin.any (· != ((ofDt96 n.origin : Nat) : Int))) stGroupMismatch]

/-- Regions on a tile at its current clock (R115, R166); none when MAX_SPLIT, 16 or a column's width forbids it. -/
def NewCtx.regions (n : NewCtx) (hz : Nat) : Option Nat :=
  if n.kind = 2 then some 0
  else
    let s := splitOf n.width n.height n.rateNum n.rateDen n.spd n.cpp hz
    let r := if n.kind = 1 then encodeRegions n.codec n.width s else s
    let cols := if n.kind = 1 then 0 else ((findLevel n.codec n.level).map (decodeColumns n.codec n.width)).getD 0
    if n.maxSplit < r ∨ 16 < r ∨ (n.kind = 1 ∧ columnsOk n.codec n.width r = false) ∨ (0 < cols ∧ cols < r) then none
    else some r

/-- Halyard traffic of a rendition off its home tile, in bytes/s: 2.0 bytes per pixel, 1.625 for 8-bit (R21). -/
def NewCtx.traffic (n : NewCtx) : Nat :=
  if n.cls = 2 then 0
  else ceilDiv (n.width * n.height * n.rateNum * n.spd * (if n.depth = 8 then 1625 else 2000)) (n.rateDen * 16 * 1000)

/-- Guaranteed rendition traffic from group homes that `p` chooses, given home and encoding tile. -/
def Dev.traffic (d : Dev) (p : Nat → Nat → Bool) : Nat :=
  d.media.ctxs.foldl (fun s e => match e.2.group.bind d.group with
    | some g => if p g.tile e.2.tile then s + e.2.halyard else s
    | none => s) 0

/-- Whether two tiles are diagonal (R18). -/
def diagonal (a b : Nat) : Bool := (a + 2) % 4 == b

/-- Whether the Halyard limits allow a rendition of home tile `h` on tile `t` (R21). -/
def Dev.halyardOk (d : Dev) (n : NewCtx) (h t : Nat) : Bool :=
  h == t ||
    (if diagonal h t then
      decide (d.traffic (fun a b => a == h && diagonal a b) + n.traffic ≤ 256000000000) &&
      decide (d.traffic (fun a b => b == t && diagonal a b) + n.traffic ≤ 256000000000)
     else decide (d.traffic (fun a b => a == h && b == t) + n.traffic ≤ 192000000000))

/-- Whether a tile has the capacity for a context (R115, R116). -/
def Dev.tileTakes (d : Dev) (n : NewCtx) (t : Nat) : Bool :=
  if n.kind = 2 then n.cls == 2 || d.admitsAne t n.cost
  else d.admits t n.cls n.cost && (n.regions (tileHz (d.tile t).point)).isSome

/-- Tiles to try, in order (R118). -/
def Dev.candidates (d : Dev) (n : NewCtx) : List Nat :=
  if n.tile < 4 then [n.tile]
  else match (if n.grouped then d.group n.group else none) with
    | some g =>
      let h := g.tile
      h :: ((List.range 4).filter fun t => t != h && !diagonal h t) ++ [(h + 2) % 4]
    | none => (d.bestTile n.cls fun _ => true).toList

/-- The tile a context is placed on, or the status (R118). -/
def Dev.place (d : Dev) (n : NewCtx) : Nat ⊕ Nat :=
  let home := if n.grouped then (d.group n.group).map Group.tile else none
  let hal (t : Nat) : Bool := match home with
    | some h => d.halyardOk n h t
    | none => true
  let l := (d.candidates n).filter (d.tileTakes n)
  match l.find? hal with
  | some t => .inl t
  | none => .inr (if l.isEmpty then stNoCapacity else stHalyard)

/-- Reference buffers taken for a context; none when Bunting cannot supply them all, with those taken given back
(R179). -/
def Dev.takeRefs (d : Dev) (owner : Nat) : Nat → List Nat → Dev × Option (List Nat)
  | 0, l => (d, some l)
  | n + 1, l => match d.alloc 1048576 owner with
    | (e, some h) => e.takeRefs owner n (l ++ [h])
    | (e, none) => (l.foldl (fun y h => (y.free h owner 1).1) e, none)

/-- Buffers that a context reserves (R176, R178). -/
def NewCtx.buffers (n : NewCtx) : Nat :=
  match findLevel n.codec n.level with
  | some l => if n.kind = 2 then 0 else
      refPictures n.kind n.codec n.preset n.width n.height l * refBuffers n.width n.height n.chroma
  | none => 0

/-- The context that a descriptor creates on tile `t`. -/
def NewCtx.make (n : NewCtx) (fn t regions halyard : Nat) (bufs : List Nat) : Ctx :=
  { fn := fn, kind := n.kind, cls := n.cls, codec := n.codec, profile := n.profile, level := n.level,
    preset := n.preset, width := n.width, height := n.height, rateNum := n.rateNum, rateDen := n.rateDen,
    group := if n.grouped then some n.group else none, tile := t, maxSplit := n.maxSplit, depth := n.depth,
    chroma := n.chroma, output := n.output, stream := n.stream, latencyUs := n.latencyUs, origin := ofDt96 n.origin,
    ingest := n.ingest, speed := n.spd, cost := n.cost, halyard := halyard, regions := regions,
    state := if n.kind = 1 then 1 else 2, cause := 0, detail := 0, buffers := bufs, rc := none, dec := decReset,
    out := [], sides := [], getAus := [], bits := 0, coded := [], colour := none, keyN := 0, auCount := 0, firstPts := 0, ptsList := [],
    hidden := [],
    ahead := [], show_ := [], joining := n.grouped, gop := [], src := srcReset }

/-- A context is created on tile `t` (R116, R121, R126, R141). A BULK ANALYSE context is not charged: R107 and R116 admit BULK
against nothing, while R114 charges every ANALYSE context. A BULK group's analysis is charged, as R128 has it (DEDUCED, log
entry 74). -/
def Dev.create (d : Dev) (op : Op) (n : NewCtx) (t : Nat) : Dev × Result :=
  let y := d.takeRefs (0x2000 + n.ctx) n.buffers []
  match y.2 with
  | none => (y.1, resOf stNoBuffer)
  | some bufs =>
    let r := (n.regions (tileHz (d.tile t).point)).getD 1
    let home := if n.grouped then (d.group n.group).map Group.tile else none
    let hal := if home.any (· != t) then n.traffic else 0
    let d1 := y.1.setCtx n.ctx (n.make (d.createdFor FnState.ctxs op n.ctx) t r hal bufs)
    let d2 := if n.kind = 2 then (if n.cls = 2 then d1 else d1.chargeAne t n.cost) else d1.charge t n.cls n.cost
    let d3 := match (if n.grouped then d2.group n.group else none) with
      | some g => d2.setGroup n.group { g with
          members := g.members ++ [n.ctx],
          origin := some (g.origin.getD (ofDt96 n.origin)), speed := some (g.speed.getD n.spd) }
      | none => d2
    let d4 := if n.kind = 1 ∧ n.output = 1 then d3.bindStream n.stream n.ctx else d3
    (d4, ⟨stOk, 0, t, n.cost⟩)

/-! ### Output of a context (R132, R156, R252) -/

/-- Whether GET_AU of a context returns sidecars (R156, R255); none when it is refused. -/
def Dev.auSidecars (d : Dev) (c : Nat) (x : Ctx) : Option Bool :=
  if x.kind = 2 then some true
  else if x.kind = 1 then (if x.output = 1 then none else some false)
  else match (d.groupOfSource c).bind d.group with
    | some g => if g.saveSide then some true else none
    | none => some false

/-- Orders of the pictures that occupy a decode context's buffers (R254). -/
def Ctx.occupied (x : Ctx) : List Nat :=
  ((x.dec.refs.filter RefPic.needed).map RefPic.order ++ x.dec.held.map AccUnit.order ++ x.out.map AccUnit.order).eraseDups

/-- Pictures that a context's buffers hold (R176). -/
def Ctx.pictures (x : Ctx) : Nat :=
  match findLevel x.codec x.level with
  | some l => refPictures x.kind x.codec x.preset x.width x.height l
  | none => 0

/-- Whether a decode context has no free buffer and pictures await GET_AU (R254). -/
def Ctx.outputFull (x : Ctx) : Bool := !x.out.isEmpty && decide (x.pictures ≤ x.occupied.length)

/-- Waiting GET_AU operations take what is finished; `n` bounds their number. An access unit above CAPACITY stays. -/
def Dev.auServe (d : Dev) (c : Nat) : Nat → Dev
  | 0 => d
  | n + 1 => match d.ctx c with
    | none => d
    | some x =>
      let side := (d.auSidecars c x).getD false
      match x.getAus, (if side then x.sides else x.out) with
      | id :: w, au :: r => match d.op id with
        | none => (d.setCtx c { x with getAus := w }).auServe c n
        | some op =>
          if Desc.le op.desc 12 4 < au.data.length then
            ((d.setCtx c { x with getAus := w }).finish id ⟨stAuTooLarge, 0, 0, au.data.length⟩).auServe c n
          else
            let y := if side then { x with getAus := w, sides := r }
              else
                let z := { x with getAus := w, out := r }
                { z with dec := { z.dec with paused := z.dec.paused && z.outputFull } }
            let d1 := (d.setCtx c y).opWrite op (Desc.le op.desc 16 8) au.data
            (d1.finish id ⟨au.status, au.data.length, au.detail, ticks33 au.pts % 2 ^ 32⟩).auServe c n
      | _, _ => d

/-- A finished access unit, picture or sidecar of a context. -/
def Dev.auPut (d : Dev) (c : Nat) (au : AccUnit) : Dev :=
  match d.ctx c with
  | none => d
  | some x => (d.setCtx c { x with out := x.out ++ [au] }).auServe c (x.getAus.length + 1)

/-! ### Meanings -/

/-- What refuses a CREATE_CONTEXT before it is placed (R126). -/
def Dev.contextStatus (e : Dev) (op : Op) : Nat :=
  let n := newCtx op.desc
  worst [e.jobGate op true false false (n.formatOk op.desc), when_ (!e.ownsCtx op n.ctx) stProt,
    when_ (n.kind == 1 && n.output == 1 && !e.ownsStream op n.stream) stProt,
    when_ (e.ctx n.ctx).isSome stBadState, when_ (!n.supported) stUnsupported, e.joinStatus op n,
    if n.kind = 1 ∧ n.output = 1 then e.bindStatus n.stream n.codec else 0]

/-- A CREATE_CONTEXT acts (R126). -/
def Dev.contextRun (e : Dev) (op : Op) : Dev × Result :=
  let st := e.contextStatus op
  if st ≠ 0 then (e, resOf st)
  else match e.place (newCtx op.desc) with
    | .inr bad => (e, resOf bad)
    | .inl t => e.create op (newCtx op.desc) t

/-- CREATE_CONTEXT (R126). -/
def execCreateContext (o : RingOp) (s : State) : Host.Outcome State Fault Refusal :=
  s.act fun d => d.runOp o ctxKey fun e op => e.contextRun op

/-- A context goes to DRAINING (R108, R129): unwritten output goes, pending operations but `self` complete with
CONTEXT_DESTROYED, and its group goes on without it. -/
def Dev.ctxDestroy (d : Dev) (c self : Nat) (x : Ctx) : Dev :=
  let y := { x with state := 4, out := [], sides := [], getAus := [], gop := [], ahead := [], hidden := [] }
  let e1 := (d.segUnbind c).setCtx c y
  let e2 := e1.endOps (fun p => p.key == keyCtx c && p.id != self) fun _ => resOf stDestroyed
  let e3 := (e2.dropJobs c false).memberLeft c
  match e3.groupOfSource c with
  | none => e3
  | some g => match e3.group g with
    | none => e3
    | some y => e3.setGroup g { y with srcCtx := none, src := { y.src with ended := true } }

/-- A context becomes FREE (R108, R129): its buffers and its cost return. -/
def Dev.ctxFree (d : Dev) (c : Nat) (x : Ctx) : Dev :=
  let d1 := x.buffers.foldl (fun e h => (e.free h (0x2000 + c) 1).1) (((d.freePairs c).dropSaved c).dropRungs c)
  let t := d1.tile x.tile
  let d2 := d1.setTile x.tile { t with cache := t.cache.filter (· != c) }
  let d3 := if x.kind = 2 then (if x.cls = 2 then d2 else d2.chargeAne x.tile (-(x.cost : Int)))
    else d2.charge x.tile x.cls (-(x.cost : Int))
  { d3 with media := { d3.media with ctxs := SMap.erase d3.media.ctxs c } }

/-- What refuses a DESTROY_CONTEXT (R108, R129). -/
def Dev.destroyContextStatus (e : Dev) (op : Op) : Nat :=
  let c := ctxNum op.desc
  worst [e.jobGate op true false false (ctxField op.desc && zeroAt op.desc 10 54),
    when_ (!e.ownsCtx op c) stProt,
    when_ (!(e.ctx c).any fun x => x.state == 1 || x.state == 2 || x.state == 3) stBadState]

/-- DESTROY_CONTEXT (R108, R129): CONTEXT_DRAINED completes it. -/
def execDestroyContext (o : RingOp) (s : State) : Host.Outcome State Fault Refusal :=
  s.act fun d => d.runLater o ctxKey fun e op =>
    let c := ctxNum op.desc
    let st := e.destroyContextStatus op
    match e.ctx c with
    | none => (e, some (resOf st))
    | some x => if st ≠ 0 then (e, some (resOf st)) else later (e.ctxDestroy c op.id x)

/-- CONTEXT_DRAINED (R108): with no running picture and no other pending operation the context becomes FREE. -/
def execContextDrained (ctx : Nat) (s : State) : Host.Outcome State Fault Refusal :=
  s.act fun d =>
    match d.ctx ctx with
    | none => d
    | some x =>
      if x.state ≠ 4 ∨ (d.tile x.tile).active ctx ∨
          (d.host.ops.any fun o => o.key == keyCtx ctx && opcodeOf o.desc != 0x21) then d
      else (d.ctxFree ctx x).endOps (fun o => o.key == keyCtx ctx && opcodeOf o.desc == 0x21) fun _ => resOf stOk

/-- A CREATE_GROUP's own format (R128, R155). -/
def groupFormat (x : Desc) : Bool :=
  let src := Desc.byte x 10
  let flags := Desc.byte x 15
  let onDt := bit flags 0
  Desc.field x 8 15 9 == 0 && decide (src ≤ 1) && decide (Desc.byte x 11 ≤ 32) && decide (Desc.byte x 14 ≤ 4) &&
  bits flags 7 3 == 0 && zeroAt x 31 33 && decide (Desc.byte x 30 ≤ 2) &&
  (if src = 0 then decide (Desc.le x 12 2 < 4096) else Desc.le x 12 2 == 0) &&
  (if onDt then decide (100 ≤ Desc.le x 16 4) && decide (Desc.le x 16 4 ≤ 60000) else Desc.le x 16 4 == 0) &&
  (if src = 1 then Desc.le x 24 4 != 0 && Desc.le x 28 2 != 0 else Desc.le x 20 10 == 0) &&
  !(bit flags 1 && bit flags 2) && (!bit flags 2 || Desc.byte x 30 == 1) &&
  (!bit flags 1 || (src == 0 && onDt))

/-- Whether a source size and rate are within support (R126, R128). -/
def sourceOk (w h num den : Nat) : Bool :=
  decide (64 ≤ w) && decide (w ≤ 8192) && w % 2 == 0 && decide (64 ≤ h) && decide (h ≤ 4320) && h % 2 == 0 &&
  (den == 0 || decide (num ≤ 240 * den))

/-- What refuses a CREATE_GROUP before it is placed (R128). -/
def Dev.groupStatus (e : Dev) (op : Op) : Nat :=
  let x := op.desc
  let src := Desc.byte x 10
  let sc := Desc.le x 12 2
  let c := if src = 0 then e.ctx sc else none
  worst [e.jobGate op true false false (groupFormat x), when_ (e.group (Desc.field x 8 8 0)).isSome stBadState,
    when_ (src == 1 && !sourceOk (Desc.le x 20 2) (Desc.le x 22 2) (Desc.le x 24 4) (Desc.le x 28 2)) stUnsupported,
    when_ (src == 0 && (!(c.any fun y => y.state == 2) || (e.groupOfSource sc).isSome)) stBadState,
    when_ (src == 0 && c.any fun y => y.kind != 0 || y.cls != Desc.byte x 30) stGroupMismatch,
    when_ (src == 0 && Desc.byte x 14 != 4 && c.any fun y => y.tile != Desc.byte x 14) stGroupMismatch,
    when_ (src == 0 && !e.ownsCtx op sc) stProt]

/-- A CREATE_GROUP acts (R128). -/
def Dev.groupRun (e : Dev) (op : Op) : Dev × Result :=
  let x := op.desc
  let g := Desc.field x 8 8 0
  let src := Desc.byte x 10
  let cls := Desc.byte x 30
  let sc := Desc.le x 12 2
  let flags := Desc.byte x 15
  let c := if src = 0 then e.ctx sc else none
  let w := if src = 1 then Desc.le x 20 2 else (c.map Ctx.width).getD 0
  let h := if src = 1 then Desc.le x 22 2 else (c.map Ctx.height).getD 0
  let num := if src = 1 then Desc.le x 24 4 else (c.map Ctx.rateNum).getD 0
  let den := if src = 1 then Desc.le x 28 2 else (c.map Ctx.rateDen).getD 1
  -- a group's analysis is charged at its source's pixel rate (R114)
  let spd := (c.map Ctx.speed).getD 16
  let cost := if bit flags 2 then 0 else admitted w h num den spd 25
  let st0 := e.groupStatus op
  let home := if Desc.byte x 14 < 4 then some (Desc.byte x 14)
    else if src = 0 then c.map Ctx.tile else e.bestTile cls fun t => e.admitsAne t cost
  if st0 ≠ 0 then (e, resOf st0)
  else match home with
    | none => (e, resOf stNoCapacity)
    | some t =>
      if e.admitsAne t cost = false then (e, resOf stNoCapacity)
      else
        let y : Group :=
          { fn := op.fn, source := src, lookahead := Desc.byte x 11, srcCtx := if src = 0 then some sc else none,
            tile := t, segOnDt := bit flags 0, saveSide := bit flags 1, useSide := bit flags 2,
            segMs := Desc.le x 16 4, width := w, height := h, rateNum := num, rateDen := den, cls := cls,
            cost := cost, members := [], origin := if src = 0 then c.map Ctx.origin else none,
            speed := if src = 0 then c.map Ctx.speed else none, failed := false, src := srcReset, produces := [],
            decodes := [] }
        ((e.setGroup g y).chargeAne t cost, ⟨stOk, 0, 0, cost⟩)

/-- CREATE_GROUP (R128). -/
def execCreateGroup (o : RingOp) (s : State) : Host.Outcome State Fault Refusal :=
  s.act fun d => d.runOp o freeKey fun e op => e.groupRun op

/-- The format of an operation whose only field is GROUP in bytes 8 and 9. -/
def groupOnly (x : Desc) : Bool := Desc.field x 8 15 9 == 0 && zeroAt x 10 54

/-- A group is destroyed (R129). -/
def Dev.groupDestroy (d : Dev) (g : Nat) (x : Group) : Dev :=
  let e1 := x.src.keyNow.foldl (fun y k => y.finish k.op (resOf stDestroyed)) d
  let e2 := x.src.pics.foldl (fun y p => match p.op with
    | some id => y.finish id ⟨stOk, 1, 0, 0⟩
    | none => y) e1
  ({ e2 with media := { e2.media with groups := SMap.erase e2.media.groups g } }).chargeAne x.tile (-(x.cost : Int))

/-- What refuses a DESTROY_GROUP (R129). -/
def Dev.destroyGroupStatus (e : Dev) (op : Op) : Nat :=
  let g := Desc.field op.desc 8 8 0
  worst [e.jobGate op true false false (groupOnly op.desc), when_ (!e.ownsGroup op g) stProt,
    when_ (!(e.group g).any fun x => x.members.isEmpty) stBadState]

/-- DESTROY_GROUP (R129). -/
def execDestroyGroup (o : RingOp) (s : State) : Host.Outcome State Fault Refusal :=
  s.act fun d => d.runOp o freeKey fun e op =>
    let g := Desc.field op.desc 8 8 0
    let st := e.destroyGroupStatus op
    match e.group g with
    | none => (e, resOf st)
    | some x => if st ≠ 0 then (e, resOf st) else (e.groupDestroy g x, resOf stOk)

/-- What refuses a KEY_NOW (R129). -/
def Dev.keyNowStatus (e : Dev) (op : Op) : Nat :=
  let g := Desc.field op.desc 8 8 0
  let x := e.group g
  worst [e.jobGate op false false false (groupOnly op.desc), when_ (!e.ownsGroup op g) stProt,
    when_ (!x.any fun y => !y.failed && y.origin.isSome) stBadState,
    when_ (x.any Group.useSide) stGroupMismatch]

/-- KEY_NOW (R124, R129, R147), stamped at its fetch: it waits for the group's choice of a picture, which is that of a FORCE_KEY
that waits already. -/
def execKeyNow (o : RingOp) (s : State) : Host.Outcome State Fault Refusal :=
  s.act fun d => d.runLater o freeKey fun e op =>
    let g := Desc.field op.desc 8 8 0
    let st := e.keyNowStatus op
    match e.group g with
    | none => (e, some (resOf st))
    | some y =>
      if st ≠ 0 then (e, some (resOf st))
      else later (e.setGroup g { y with src := { y.src with keyNow := y.src.keyNow ++ [⟨op.id, op.at_,
        (y.src.pics.find? fun p => p.force && p.analysis.isNone).map SrcPic.n⟩] } })

/-- Whether a context is a member of a group in SOURCE_FAILED: it then accepts DESTROY_CONTEXT alone (R123). -/
def Dev.groupFailed (d : Dev) (x : Ctx) : Bool := (x.group.bind d.group).any Group.failed

/-- What refuses a GET_AU (R132, R156, R252). -/
def Dev.getAuStatus (e : Dev) (op : Op) : Nat :=
  let c := ctxNum op.desc
  worst [e.jobGate op false false false (ctxField op.desc && zeroAt op.desc 10 2 && zeroAt op.desc 24 40),
    when_ (!e.ownsCtx op c) stProt,
    when_ (!(e.ctx c).any fun z => z.state == 2 && !e.groupFailed z && (e.auSidecars c z).isSome) stBadState]

/-- GET_AU (R132, R156, R252). -/
def execGetAu (o : RingOp) (s : State) : Host.Outcome State Fault Refusal :=
  s.act fun d => d.runLater o ctxKey fun e op =>
    let c := ctxNum op.desc
    let st := e.getAuStatus op
    match e.ctx c with
    | none => (e, some (resOf st))
    | some z =>
      if st ≠ 0 then (e, some (resOf st))
      else later ((e.setCtx c { z with getAus := z.getAus ++ [op.id] }).auServe c (z.getAus.length + 1))

end Sys2Proof.Machine
end

