-- ==== Sys2Proof/Machine/RecFmt.lean ====
section
/-! DEFINITION. The format of Coupling Buffer records (spec/07_pixel_engines.md R185-R192, spec/08_syntax_engines.md R220): their
lengths, their fields, and the order of a region's records. Banks are codecs: 0 AVC, 1 HEVC, 2 AV1, 3 VVC. -/

namespace Sys2Proof.Machine

/-! ### Headers and lengths (R185, R186, R220) -/

/-- Word `i` of a record. -/
def recWord (r : List Nat) (i : Nat) : Nat := r.getD i 0

def recOp (r : List Nat) : Nat := bits (recWord r 0) 31 24
def recWords (r : List Nat) : Nat := bits (recWord r 0) 15 0

/-- INFO of a record, bits [23:16] of its header. -/
def recInfo (r : List Nat) : Nat := bits (recWord r 0) 23 16

/-- The codec element records of a bank with a fixed length (R220). -/
def elementWords (bank op : Nat) : Option Nat :=
  match bank, op with
  | 0, 0x40 => some 2
  | 0, 0x41 => some 2
  | 1, 0x40 => some 4
  | 1, 0x41 => some 2
  | 2, 0x40 => some 2
  | 2, 0x41 => some 4
  | 2, 0x42 => some 2
  | 2, 0x43 => some 8
  | 2, 0x45 => some 3
  | 3, 0x40 => some 4
  | 3, 0x41 => some 2
  | 3, 0x42 => some 8
  | 3, 0x43 => some 2
  | 3, 0x44 => some 2
  | _, _ => none

/-- Whether an opcode is PRED_WEIGHT in a bank, and whether it is AV1_PALETTE. -/
def isPredWeight (bank op : Nat) : Bool := (op == 0x42 && decide (bank ≤ 1)) || (op == 0x45 && bank == 3)
def isPalette (bank op : Nat) : Bool := op == 0x44 && bank == 2

/-- The record types with a fixed length (R186). -/
def coreWords (op : Nat) : Option Nat :=
  match op with
  | 0x01 => some 4
  | 0x02 => some 2
  | 0x03 => some 2
  | 0x04 => some 3
  | 0x05 => some 3
  | 0x06 => some 7
  | 0x09 => some 2
  | 0x0A => some 2
  | _ => none

/-- The length that a record's OPCODE and fields give it; none for a reserved OPCODE or field value. -/
def wordsOf (bank : Nat) (r : List Nat) : Option Nat :=
  let op := recOp r
  if op = 0x00 then some (max 1 (recWords r))
  else if op = 0x07 then
    let n := bits (recWord r 2) 15 0
    if 1 ≤ n ∧ n ≤ 4096 then some (3 + n) else none
  else if isPredWeight bank op then some (2 + 4 * bits (recWord r 1) 23 16)
  else if isPalette bank op then
    let n := bits (recWord r 1) 29 26
    if 2 ≤ n ∧ n ≤ 8 then some (2 + ceilDiv n 2) else none
  else if op < 0x40 then coreWords op
  else elementWords bank op

/-- Whether a record is whole and its WORDS agrees with its OPCODE (R192). -/
def recFits (bank : Nat) (r : List Nat) : Bool :=
  wordsOf bank r == some (recWords r) && r.length == recWords r

/-! ### Fields (R187-R191, R220) -/

/-- `n` bits of a record's payload that begin at bit `p`, counted from bit 31 of word 1 downwards and on into the following words
(R220). -/
def recField (r : List Nat) (p n : Nat) : Nat :=
  let v := (r.drop 1).foldl (fun x w => x * 2 ^ 32 + w) 0
  v / 2 ^ (32 * (r.length - 1) - p - n) % 2 ^ n

/-- Fields of a geometry word: X and Y in units of 4 samples, and the logarithms of width and height (R186). -/
def geoX (g : Nat) : Nat := bits g 31 24
def geoY (g : Nat) : Nat := bits g 23 16
def geoW (g : Nat) : Nat := bits g 15 8
def geoH (g : Nat) : Nat := bits g 7 0

/-- PRED, QIDX and PART of a CU; the entries of a RESIDUAL; DIR of an INTER. -/
def cuPred (r : List Nat) : Nat := bits (recInfo r) 2 0
def cuQidx (r : List Nat) : Nat := bits (recWord r 2) 31 24
def cuPart (r : List Nat) : Nat := bits (recWord r 2) 23 16
def cuCoded (r : List Nat) : Bool := bit (recWord r 2) 0
def interDir (r : List Nat) : Nat := bits (recInfo r) 1 0
def resEntries (r : List Nat) : List (Nat × Int) := (r.drop 3).map fun w => (bits w 31 20, signed 20 w)

/-- Whether a list rises strictly. -/
def rising : List Nat → Bool
  | a :: b :: l => decide (a < b) && rising (b :: l)
  | _ => true

/-- Whether a CfL alpha in a byte lies in -16 to 16 (R190). -/
def alphaOk (v : Nat) : Bool := decide (-16 ≤ signed 8 v) && decide (signed 8 v ≤ 16)

/-- Whether an INTRA uses the flags that its codec has, and bytes 1 to 4 as R190 lays them out. -/
def intraFields (bank : Nat) (r : List Nat) : Bool :=
  let i := recInfo r
  let w := recWord r 1
  bits i 7 5 == 0 && (bank == 3 || bits i 2 0 == 0) && (bank == 2 || bits i 4 3 == 0) && bits i 2 1 != 3 &&
  (if bit i 4 then alphaOk (bits w 23 16) && alphaOk (bits w 7 0) else bank == 2 || bits w 7 0 == 0) &&
  (decide (2 ≤ bank) || bits w 15 8 == 0)

/-- Whether the reserved bits of a record are 0 and its enumerations are defined (R187-R191, R220). -/
def recFields (bank : Nat) (r : List Nat) : Bool :=
  let op := recOp r
  let i := recInfo r
  let w := recWord r 1
  let v := recWord r 2
  let z (p n : Nat) : Bool := recField r p n == 0
  if op = 0x00 then true
  else if op = 0x01 then decide (bits i 1 0 ≤ 2) && bits v 31 8 == 0
  else if op = 0x02 then i == 0 && bits w 31 16 == 0
  else if op = 0x03 then i == 0
  else if op = 0x04 then
    decide (cuPred r ≤ 4) && bits i 7 3 == 0 && bits v 15 4 == 0 && (bank == 3 || bits v 3 2 == 0) && (bank == 0 || !bit v 1)
  else if op = 0x05 then intraFields bank r
  else if op = 0x06 then
    interDir r != 0 && bits i 7 3 == 0 && bits (recWord r 6) 15 10 == 0 &&
      (interDir r != 1 || (recWord r 4 == 0 && recWord r 5 == 0)) && (decide (2 ≤ bank) || bits (recWord r 6) 7 0 == 0)
  else if op = 0x07 then
    let e := resEntries r
    bits i 7 2 == 0 && (bank == 3 || bits i 1 0 != 3) && bits v 23 16 == 0 && rising (e.map Prod.fst) &&
      e.all fun x => x.2 != 0 && decide (x.1 < 2 ^ (geoW w + geoH w))
  else if op = 0x09 then i == 0
  else if op = 0x0A then i == 0 && bits w 31 1 == 0
  else i == 0 &&
    if isPredWeight bank op then
      z 16 16 && (List.range (recField r 8 8)).all fun k => z (32 + 128 * k + 6) 10 && z (32 + 128 * k + 112) 16
    else if isPalette bank op then
      let n := recField r 2 4
      decide (recField r 0 2 ≤ 2) && z 6 26 && (n % 2 == 0 || z (32 + 16 * n) 16)
    else match bank, op with
      | 0, 0x40 => z 7 25
      | 0, _ => z 16 16
      | 1, 0x41 => z 5 27
      | 2, 0x40 => z 4 28
      | 2, 0x41 => decide (recField r 0 2 ≤ 2) && decide (recField r 2 2 ≤ 2) && z 8 24 && z 90 6
      | 2, 0x42 => decide (recField r 0 3 ≤ 5) && z 11 21
      | 2, 0x43 => decide (recField r 0 2 ≤ 2) && z 2 30
      | 2, _ => z 40 24
      | 3, 0x41 => z 20 12
      | 3, 0x42 => z 1 31
      | 3, 0x43 => z 12 20
      | 3, 0x44 => z 12 20
      | _, _ => ([2, 33, 64].all fun p => decide (recField r p 2 ≤ 2)) && z 95 1

/-! ### Order (R192; DEDUCED, log entry 15) -/

/-- Stages after which a codec element record stands: those of a block after its CTB, those of a coding unit after its CU, the
prediction weights of a slice where it starts, and only after an INTER that announces it a record of its tool. -/
def elementStages (bank op : Nat) : List Nat :=
  if isPredWeight bank op then [1, 3]
  else if isPalette bank op then [4, 6]
  else match bank, op with
    | 0, 0x40 => [3, 4]
    | 0, _ => [4]
    | 1, 0x41 => [4]
    | 2, 0x40 => [3, 4]
    | 2, 0x45 => [3, 4]
    | 2, 0x42 => [5]
    | 2, 0x43 => [5]
    | 3, 0x42 => [5]
    | 3, 0x43 => [5]
    | 3, 0x44 => [5]
    | _, _ => [3]

/-- Where the records stand after one more; none when it is out of order. -/
def recNext (bank : Nat) (p : RecPos) (r : List Nat) : Option RecPos :=
  let op := recOp r
  let w := recWord r 1
  let v := recWord r 2
  let go (l : List Nat) (ok : Bool) (q : RecPos) : Option RecPos := if l.contains p.stage && ok then some q else none
  let row := bits w 15 0
  let at_ := geoY v * 256 + geoX v
  let pu := geoY w * 256 + geoX w
  if op = 0x00 then some p
  else if op = 0x01 then go [0] true { p with stage := 1, row := 0 }
  else if op = 0x02 then go [1] (decide (p.row ≤ row)) { p with stage := 2, row := row, ctb := 0 }
  else if op = 0x03 then go [2, 3, 4, 6] (decide (p.ctb ≤ w)) { p with stage := 3, ctb := w + 1 }
  else if op = 0x04 then go [3, 4, 6] true { p with stage := 4, pu := 0 }
  else if op = 0x05 then go [4] (decide (p.pu ≤ at_)) { p with pu := at_ + 1 }
  else if op = 0x06 then go [4] (decide (p.pu ≤ pu)) { p with stage := if bit (recWord r 0) 18 then 5 else 4, pu := pu + 1 }
  else if op = 0x07 then go [4, 6] true { p with stage := 6 }
  else if op = 0x09 then go [2, 3, 4, 6] (row == p.row) { p with stage := 1, row := row + 1 }
  else if op = 0x0A then go [1] true { p with stage := 7 }
  else go (elementStages bank op) true { p with stage := if p.stage = 5 then 4 else p.stage }

/-- Where the records stand after some more; none when one of them is rejected (R192). -/
def recOrder (bank : Nat) : RecPos → List (List Nat) → Option RecPos
  | s, [] => some s
  | s, r :: l => if recFits bank r then (recNext bank s r).bind fun n => recOrder bank n l else none

end Sys2Proof.Machine
end

