-- ==== Sys2Proof/Machine/Tools.lean ====
section
/-! DEFINITION. What encode uses of each codec (spec/07_pixel_engines.md R163-R165, R177): the coding tool tables by preset,
0 FAST, 1 BALANCED, 2 THOROUGH, as bounds of the fields of Coupling Buffer records and as the tools that parameter sets
declare. Where a field holds a code of the codec's standard, the codes are that standard's (PRESUMED, log entry 83). -/

namespace Sys2Proof.Machine

/-! ### Limits by preset (R165) -/

/-- Integer search half-range around a candidate, in rung pixels. -/
def halfRange (preset : Nat) : Nat := [4, 8, 16].getD preset 16

/-- Candidates that are searched at integer precision. -/
def keptCandidates (preset : Nat) : Nat := [1, 2, 3].getD preset 3

/-- Distinct reference pictures of an encoded picture. -/
def refLimit (preset : Nat) : Nat := [2, 3, 4].getD preset 4

/-- The largest refined displacement from the analysis candidate, and how far outside the reference samples may lie. -/
def maxRefine : Nat := 64
def maxOutside : Nat := 80

/-- The fewest equal tile rows, in superblocks, that keep every tile of an AV1 column of `cols` superblocks within
4,096 × 2,304 luma samples (R165, R167): `n` bounds the search. -/
def tileRowsFrom (cols rows : Nat) : Nat → Nat → Nat
  | 0, k => k
  | n + 1, k => if ceilDiv rows k * 64 * (cols * 64) ≤ 4096 * 2304 then k else tileRowsFrom cols rows n (k + 1)

def tileRows (cols rows : Nat) : Nat := tileRowsFrom cols rows rows 1

/-! ### Block sizes, by logarithms of width and height -/

/-- Sizes of an inter prediction block. -/
def interSizes (codec preset w h : Nat) : Bool :=
  if codec = 0 then
    [(4, 4), (4, 3), (3, 4)].contains (w, h) || (decide (1 ≤ preset) && (w, h) == (3, 3)) ||
      (preset == 2 && [(3, 2), (2, 3), (2, 2)].contains (w, h))
  else if codec = 2 then decide ((if preset = 0 then 3 else 2) ≤ min w h) && decide (max w h ≤ 6)
  else decide (2 ≤ min w h) && decide (max w h ≤ (if codec = 3 then 7 else 6))

/-- Sizes of a coding unit. -/
def cuSizes (codec preset w h : Nat) : Bool :=
  if codec = 0 then w == 4 && h == 4
  else if codec = 1 then w == h && decide ((if preset = 0 then 4 else 3) ≤ w) && decide (w ≤ 6)
  else if codec = 2 then decide ((if preset = 0 then 3 else 2) ≤ min w h) && decide (max w h ≤ 6)
  else decide (2 ≤ min w h) && decide (max w h ≤ 7)

/-- Sizes of a transform block; `cu` is the coding unit's width. -/
def txSizes (codec preset comp cu w h : Nat) : Bool :=
  if codec = 0 then
    (w == h && (w == 2 || (w == 3 && comp == 0))) || (decide (1 ≤ comp) && w == 1 && decide (1 ≤ h) && decide (h ≤ 2))
  else if codec = 1 then
    w == h && decide (2 ≤ w) && decide (w ≤ 5) && (comp != 0 || decide (min 5 (cu - (preset + 1)) ≤ w))
  else if codec = 2 then
    decide (2 ≤ min w h) && decide (max w h ≤ 6) && decide (max w h ≤ min w h + (if preset = 0 then 1 else 2))
  else decide (min w h ≤ max w h) && decide (max w h ≤ 6) && (decide (2 ≤ min w h) || preset == 2 || decide (1 ≤ comp))

/-- Whether a partition code is used: PartMode of HEVC, partition type of AV1. -/
def partOk (codec preset pred part : Nat) : Bool :=
  if codec = 1 then
    part == 0 || (decide (1 ≤ preset) && pred != 0 && decide (part ≤ 2)) ||
      (preset == 2 && (if pred = 0 then part == 3 else decide (4 ≤ part) && decide (part ≤ 7)))
  else if codec = 2 then decide (part ≤ [3, 7, 9].getD preset 9)
  else true

/-! ### Prediction -/

/-- Luma modes of an intra block of width 2^w. -/
def lumaModeOk (codec preset w mode : Nat) : Bool :=
  if codec = 0 then (decide (3 ≤ w) || decide (1 ≤ preset)) && decide (mode ≤ 8)
  else if codec = 1 then decide (mode ≤ 34)
  else if codec = 2 then decide (mode ≤ (if preset = 0 then 9 else 12))
  else decide (mode ≤ 66)

/-- Chroma modes; `luma` is the luma mode, and `cfl` says that an AV1 block uses CfL. -/
def chromaModeOk (codec preset luma mode : Nat) (cfl : Bool) : Bool :=
  if codec = 0 then decide (mode ≤ 3)
  else if codec = 1 then decide (mode ≤ 34)
  else if codec = 2 then cfl || decide (mode ≤ (if preset = 0 then 9 else 12))
  else [0, 1, 18, 50, 66, luma].contains mode || (decide (1 ≤ preset) && decide (81 ≤ mode) && decide (mode ≤ 83))

/-- LUMA_PARAM and CHROMA_PARAM: AV1 angle deltas, 0 in FAST; the MRL index or the MIP mode of VVC. -/
def intraParams (codec preset : Nat) (mip cfl : Bool) (luma chroma : Nat) : Bool :=
  let delta (v : Nat) : Bool := if preset = 0 then v == 3 else decide (v ≤ 6)
  if codec = 2 then delta luma && (cfl || delta chroma)
  else if codec = 3 then (mip || decide (luma ≤ (if preset = 0 then 0 else 2))) && chroma == 0
  else luma == 0 && chroma == 0

/-- An INTRA record that the preset allows. -/
def intraTools (codec preset cuW : Nat) (r : List Nat) : Bool :=
  let i := recInfo r
  let w := recWord r 1
  let cfl := bit i 4
  (preset == 2 || bits i 3 0 == 0) && (!cfl || decide (1 ≤ preset)) &&
  lumaModeOk codec preset (min cuW (geoW (recWord r 2))) (bits w 31 24) &&
  chromaModeOk codec preset (bits w 31 24) (bits w 23 16) cfl && intraParams codec preset (bit i 0) cfl (bits w 15 8) (bits w 7 0)

/-- An INTER record that the preset and the picture type allow: P pictures use list 0 alone, two lists or compound prediction
need BALANCED, and vectors have quarter-sample precision (R173). -/
def interTools (codec preset ptype : Nat) (r : List Nat) : Bool :=
  let g := recWord r 1
  let f := bits (recWord r 6) 7 0
  let quarter (k : Nat) : Bool := recWord r k % 4 == 0
  interSizes codec preset (geoW g) (geoH g) && (interDir r == 1 || (decide (2 ≤ ptype) && decide (1 ≤ preset))) &&
  (codec == 3 || [2, 3, 4, 5].all quarter) &&
  (if codec = 2 then
    (if preset = 2 then decide (f / 16 ≤ 2) && decide (f % 16 ≤ 2) else decide (f / 16 ≤ preset) && f % 16 == f / 16)
   else codec != 3 || decide (1 ≤ preset) || f == 0)

/-- A RESIDUAL record that the preset allows: kernels, sizes, and joint Cb-Cr from BALANCED on. -/
def residualTools (codec preset cuW : Nat) (r : List Nat) : Bool :=
  let g := recWord r 1
  let comp := bits (recInfo r) 1 0
  let tx := bits (recWord r 2) 31 24
  txSizes codec preset comp cuW (geoW g) (geoH g) && (comp != 3 || decide (1 ≤ preset)) &&
  (if codec = 2 then decide (tx ≤ [0, 3, 15].getD preset 15) && (decide (max (geoW g) (geoH g) ≤ 4) || tx == 0)
   else if codec = 0 then tx == 0
   else if codec = 1 then tx == 0 || (preset == 2 && geoW g == 2)
   else tx == 0 || preset == 2)

/-- A CU record that the preset and the picture type allow: no intra block copy and no palette. -/
def cuTools (codec preset ptype : Nat) (r : List Nat) : Bool :=
  let g := recWord r 1
  let v := recWord r 2
  decide (cuPred r ≤ (if ptype = 0 then 0 else 2)) && cuSizes codec preset (geoW g) (geoH g) &&
  partOk codec preset (cuPred r) (cuPart r) && (!bit v 3 || decide (1 ≤ preset)) && (!bit v 2 || preset == 2)

/-! ### Codec element records -/

/-- A codec element record that the preset allows; weighted prediction is used on FADE pictures of AVC and HEVC alone. -/
def elementTools (codec preset : Nat) (fade : Bool) (r : List Nat) : Bool :=
  let op := recOp r
  let bal := decide (1 ≤ preset)
  let tho := preset == 2
  let z (p n : Nat) : Bool := recField r p n == 0
  if isPredWeight codec op then bal && fade && decide (codec ≤ 1)
  else if isPalette codec op then false
  else match codec, op with
    | 0, 0x40 => z 6 1
    | 0, _ => bal && (tho || [0, 4, 8, 12].all fun p => decide (recField r p 4 ≤ 3))
    | 1, 0x40 => bal || [2, 33, 64].all fun p => recField r p 2 != 1
    | 1, _ => z 0 5
    | 2, 0x41 => tho || z 2 2
    | 2, 0x42 => decide (recField r 0 3 ≤ (if tho then 1 else 0)) && bal
    | 2, 0x43 => decide (recField r 0 2 ≤ (if tho then 1 else 0))
    | 2, 0x45 => z 8 32
    | 2, _ => true
    | 3, 0x41 => bal && (tho || z 14 6)
    | 3, 0x42 => bal
    | 3, 0x43 => tho
    | 3, 0x44 => bal && (tho || z 7 5)
    | _, _ => true

/-- A record that the preset's tools allow in encode (R177). -/
def recTools (codec preset ptype cuW : Nat) (fade : Bool) (r : List Nat) : Bool :=
  let op := recOp r
  if op = 0x04 then cuTools codec preset ptype r
  else if op = 0x05 then intraTools codec preset cuW r
  else if op = 0x06 then interTools codec preset ptype r
  else if op = 0x07 then residualTools codec preset cuW r
  else if 0x40 ≤ op then elementTools codec preset fade r
  else true

/-! ### What parameter sets declare (R177) -/

/-- The tools of a codec and preset that no record shows, in the order of the codec's table: block and unit sizes, switches of
merge, skip and temporal prediction, transform tree depth, quantization, and in-loop filters. -/
def declaredTools (codec preset : Nat) : List Nat :=
  let bal := b2n (decide (1 ≤ preset))
  let tho := b2n (preset == 2)
  if codec = 0 then
    -- CABAC, 8 × 8 transform, spatial direct prediction, explicit weights, flat scaling, deblocking, frame coding only
    [1, 1, bal, bal, 0, 1, 0]
  else if codec = 1 then
    -- CTU 64, least CU, AMP, RQT depth, transform skip, sign data hiding, explicit weights, flat scaling, TMVP, deblocking, SAO
    [64, if preset = 0 then 16 else 8, tho, preset + 1, tho, 1, bal, 0, 1, 1, 1]
  else if codec = 2 then
    -- superblock 64, filter intra, compound, distance weights, OBMC, warped motion, dual filter, high precision vectors,
    -- quantizer matrices, deblocking, CDEF, loop restoration, superres, film grain, screen content tools
    [64, tho, bal, tho, tho, 0, tho, 0, 0, 1, 1, tho, 0, 0, 0]
  else
    -- CTU 128, multi-type depth, MRL, MIP, ISP, CCLM, BDOF, DMVR, MMVD, affine with PROF, AMVR, SbTMVP, GPM, CIIP, BCW, SMVD,
    -- implicit MTS, LFNST, explicit MTS, SBT, transform skip, joint Cb-Cr, dependent quantization, LMCS, deblocking, SAO, ALF,
    -- CC-ALF, IBC
    [128, preset + 1, bal, tho, tho, bal, 1, 1, bal, bal, bal, bal, tho, tho, tho, tho, bal, bal, tho, tho, tho, bal, tho, 0,
     1, 1, bal, tho, 0]

end Sys2Proof.Machine
end

