-- ==== Sys2Proof/Machine/Motion.lean ====
section
/-! DEFINITION. References and motion in the Pixel Engines (spec/07_pixel_engines.md R172, R173, R175-R183): reference storage
units, the pictures that a picture may refer to, motion candidates and the motion search, and the reference caches. -/

namespace Sys2Proof.Machine

/-! ### Reference storage (R178, R180) -/

/-- RSUs in a row, and rows of RSUs, of a picture padded to multiples of 64 samples. -/
def rsuCols (w : Nat) : Nat := ceilDiv w 64 * 4

/-- Slot size S in bytes. -/
def rsuSlot (chroma : Nat) : Nat := if chroma = 0 then 512 else 768

/-- A `bw` × `bh` block of a plane of `w` × `h` samples; beyond the picture it repeats the edge (DESIGN CHOICE, log entry 86). -/
def planeBlock (w h : Nat) (s : List Nat) (x y bw bh : Nat) : List Nat :=
  (List.range bh).flatMap fun j => (List.range bw).map fun i => s.getD (min (y + j) (h - 1) * w + min (x + i) (w - 1)) 0

/-- The samples of RSU `i` of a picture: 16 × 16 of luma, then Cb and Cr at the same place. -/
def rsuSamples (w h chroma : Nat) (luma cb cr : List Nat) (i : Nat) : List Nat :=
  let x := i % rsuCols w
  let y := i / rsuCols w
  let ch := if chroma = 0 then 8 else 16
  let hc := if chroma = 0 then h / 2 else h
  planeBlock w h luma (16 * x) (16 * y) 16 16 ++ planeBlock (w / 2) hc cb (8 * x) (ch * y) 8 ch ++
    planeBlock (w / 2) hc cr (8 * x) (ch * y) 8 ch

/-- Whether all samples of a list are equal. -/
def flatList (l : List Nat) : Bool := l.all fun v => v == l.headD 0

/-- An RSU as the PXE writes it (R180): RAW with COMPRESS=0; else FLAT where each plane is one value, PACKED where it packs into
its slot, and RAW otherwise. -/
def rsuWrite (compress : Bool) (chroma : Nat) (s : List Nat) : Rsu :=
  let c := s.drop 256
  let k := Config.packSectors s
  if !compress then ⟨0, 0, s⟩
  else if flatList (s.take 256) && flatList (c.take (c.length / 2)) && flatList (c.drop (c.length / 2)) then ⟨2, 0, s⟩
  else if 1 ≤ k ∧ k ≤ 24 ∧ 32 * k ≤ rsuSlot chroma then ⟨1, k, s⟩
  else ⟨0, 0, s⟩

/-- The RSU header byte (R180). -/
def Rsu.header (r : Rsu) : Nat := 64 * r.mode + r.sectors

/-- An RSU as it is read, according to its own header: compression is lossless. -/
def Rsu.read (r : Rsu) : List Nat := r.samples

/-- The RSUs of a picture (R178). -/
def storeRsus (compress : Bool) (w h chroma : Nat) (luma cb cr : List Nat) : List Rsu :=
  (List.range (rsuCols w * rsuCols h)).map fun i => rsuWrite compress chroma (rsuSamples w h chroma luma cb cr i)

/-- The luma sample of a stored picture at a position; outside it the nearest sample (R265). -/
def RefPic.luma (p : RefPic) (x y : Int) : Nat :=
  let cx := (max 0 (min x ((p.width : Int) - 1))).toNat
  let cy := (max 0 (min y ((p.height : Int) - 1))).toNat
  match p.rsus[cy / 16 * rsuCols p.width + cx / 16]? with
  | some r => r.read.getD (cy % 16 * 16 + cx % 16) 0
  | none => 0

/-! ### References of an encoded picture (R165, R175) -/

/-- The pictures that a picture may refer to, nearest first: list 0 the earlier ones, list 1 for a B picture the later ones,
together no more than the preset allows (R165; DESIGN CHOICE, log entry 85). A key picture refers to none (R175). -/
def refLists (preset ptype n : Nat) (refs : List Nat) : List Nat × List Nat :=
  let k := refLimit preset
  let past := (refs.filter fun m => decide (m < n)).mergeSort fun a b => decide (b ≤ a)
  let next := (refs.filter fun m => decide (n < m)).mergeSort fun a b => decide (a ≤ b)
  if ptype = 0 then ([], [])
  else if ptype = 1 then (past.take k, [])
  else
    let l1 := next.take (k / 2)
    (past.take (k - l1.length), l1)

/-- The stored picture that makes room for another: of three or more anchors the one that was earliest, else a B picture of the
deepest layer (DESIGN CHOICE, log entry 85). -/
def leastUseful (l : List RefPic) : Option RefPic :=
  let anchors := l.filter fun r => decide (r.ptype ≤ 1)
  if 3 ≤ anchors.length then
    anchors.foldl (fun b r => match b with
      | none => some r
      | some x => if r.order < x.order then some r else some x) none
  else
    l.foldl (fun b r => match b with
      | none => some r
      | some x => if x.ptype < r.ptype then some r else some x) none

/-- Stored pictures within a number of buffers. -/
def fitRefs (cap : Nat) : Nat → List RefPic → List RefPic
  | 0, l => l
  | n + 1, l =>
    if l.length ≤ cap then l
    else match leastUseful l with
      | some r => fitRefs cap n (l.filter fun x => x.order != r.order)
      | none => l

/-- The picture buffer that a new picture takes: the lowest that holds none. -/
def freeSlot (l : List RefPic) : Nat :=
  ((List.range (l.length + 1)).find? fun k => !(l.any fun r => r.slot == k)).getD l.length

/-! ### Candidates (R172) -/

/-- The largest vector components that codec and level allow, in quarter samples (PRESUMED, log entry 84). -/
def vectorLimit (codec level : Nat) : Int × Int :=
  if codec = 0 then (8192, if level ≤ 10 then 256 else if level ≤ 20 then 512 else if level ≤ 30 then 1024 else 2048)
  else if codec = 2 then (8191, 8191)
  else (32768, 32768)

/-- A vector inside those limits. -/
def clipVector (codec level : Nat) (v : Int × Int) : Int × Int :=
  let l := vectorLimit codec level
  (max (-l.1) (min (l.1 - 1) v.1), max (-l.2) (min (l.2 - 1) v.2))

/-- The analysis candidate for a reference at signed distance `d` (R172). -/
def analysisCandidate (e : RungEntry) (hasL0 hasL1 : Bool) (d : Int) : Int × Int :=
  if !hasL0 then (0, 0)
  else if 0 < d then (d * e.l0.1, d * e.l0.2)
  else if hasL1 then (-d * e.l1.1, -d * e.l1.2)
  else (d * e.l0.1, d * e.l0.2)

/-- A vector in sixteenths of a sample in quarters. -/
def quarters (v : Int × Int) : Int × Int := (v.1 / 4, v.2 / 4)

/-- The vector of one list of a motion. -/
def Motion.vec (m : Motion) (second : Bool) : Option (Int × Int) := (if second then m.l1 else m.l0).map fun v => quarters v.1

/-- The motion chosen at a luma position of a region. -/
def Region.motionAt (g : Region) (x y : Nat) : Option Motion := SMap.find g.motion (y / 4 * 65536 + x / 4)

/-- The candidate list of a block of `w` × `h` luma samples at (`x`, `y`) (R172): the analysis candidate; the vectors of its left,
above and above-right neighbours in the region; the co-located vector of the nearest reference; the zero vector. -/
def motionCandidates (g : Region) (near : Option RefPic) (anal : Int × Int) (second : Bool) (x y w h : Nat) : List (Int × Int) :=
  let left := if x = 0 then none else g.motionAt (x - 1) y
  let above := if y = 0 then none else g.motionAt x (y - 1)
  let right := if y = 0 then none else g.motionAt (x + w) (y - 1)
  let col := near.bind fun p => p.motion[(y + h / 2) / 16 * rsuCols p.width + (x + w / 2) / 16]?
  let first (m : Motion) : Option (Int × Int) := (m.vec false).or (m.vec true)
  ([some anal, left.bind fun m => m.vec second, above.bind fun m => m.vec second, right.bind fun m => m.vec second,
    col.bind first, some (0, 0)].filterMap id).eraseDups

/-! ### The search (R173) -/

/-- Whether a vector may be tested: within 64 rung pixels of the analysis candidate, and no sample more than 80 outside the
reference. -/
def vectorOk (anal : Int × Int) (pw ph x y w h : Nat) (v : Int × Int) : Bool :=
  decide ((v.1 - anal.1).natAbs ≤ 4 * maxRefine) && decide ((v.2 - anal.2).natAbs ≤ 4 * maxRefine) &&
  decide (-(maxOutside : Int) ≤ x + v.1 / 4) && decide (-(maxOutside : Int) ≤ y + v.2 / 4) &&
  decide (x + w + -(-v.1 / 4) ≤ pw + maxOutside) && decide (y + h + -(-v.2 / 4) ≤ ph + maxOutside)

/-- The cost of a vector: of the source block, and of the reference around it. -/
def vectorCost (p : RefPic) (src : List Nat) (x y w h : Nat) (v : Int × Int) : Nat :=
  let ref := (List.range (h + 8)).flatMap fun j => (List.range (w + 8)).map fun i =>
    p.luma ((x + i : Nat) + v.1 / 4 - 4) ((y + j : Nat) + v.2 / 4 - 4)
  Config.searchCost src ref (v.1 % 4).toNat (v.2 % 4).toNat

/-- The vector of least cost among some, the first on a tie. -/
def bestVector (cost : Int × Int → Nat) (l : List (Int × Int)) : Option (Int × Int) :=
  l.foldl (fun b v => match b with
    | none => some v
    | some u => if cost v < cost u then some v else some u) none

/-- The `n` vectors of least cost, in that order. -/
def bestVectors (cost : Int × Int → Nat) : Nat → List (Int × Int) → List (Int × Int)
  | 0, _ => []
  | n + 1, l => match bestVector cost l with
    | none => []
    | some v => v :: bestVectors cost n (l.filter fun u => u != v)

/-- The position and the eight around it at a step. -/
def around (step : Int) (v : Int × Int) : List (Int × Int) :=
  v :: ([-step, 0, step].flatMap fun dy => [-step, 0, step].map fun dx => (v.1 + dx, v.2 + dy)).filter fun u => u != v

/-- The integer positions within a half-range of a candidate's own, in raster order. -/
def integerRange (half : Nat) (v : Int × Int) : List (Int × Int) :=
  (List.range (2 * half + 1)).flatMap fun (dy : Nat) => (List.range (2 * half + 1)).map fun (dx : Nat) =>
    (v.1 + 4 * ((dx : Int) - half), v.2 + 4 * ((dy : Int) - half))

/-- The motion search (R173): every candidate at its own integer position, the best of the preset, every integer position around
each, then the half-sample and quarter-sample positions. -/
def searchVector (preset : Nat) (ok : Int × Int → Bool) (cost : Int × Int → Nat) (cands : List (Int × Int)) : Option (Int × Int) :=
  let whole (v : Int × Int) : Int × Int := ((v.1 + 2) / 4 * 4, (v.2 + 2) / 4 * 4)
  let kept := bestVectors cost (keptCandidates preset) ((cands.map whole).eraseDups.filter ok)
  match bestVector cost ((kept.flatMap (integerRange (halfRange preset))).filter ok) with
  | none => none
  | some a => match bestVector cost ((around 2 a).filter ok) with
    | none => none
    | some b => bestVector cost ((around 1 b).filter ok)

/-! ### Reference caches (R182, R183) -/

/-- RSUs that a 1 MiB reference cache holds, unpacked (DEDUCED, log entry 87). -/
def cacheRsus (chroma : Nat) : Nat := 1048576 / rsuSlot chroma

/-- RSUs are read through a cache of `n`: what it then holds, hits and misses; the one used longest ago makes room (DESIGN CHOICE,
log entry 87). -/
def cacheReads (n : Nat) : List Nat → List Nat → List Nat × Nat × Nat
  | l, [] => (l, 0, 0)
  | l, r :: rest =>
    let hit := l.contains r
    let l1 := l.filter (· != r) ++ [r]
    let y := cacheReads n (if n < l1.length then l1.drop 1 else l1) rest
    (y.1, y.2.1 + b2n hit, y.2.2 + b2n (!hit))

end Sys2Proof.Machine
end

