-- ==== Sys2Proof/Machine/ScaleOps.lean ====
section
/-! DEFINITION. The Scaler units (spec/06_source_analysis.md R149-R153): source pictures in memory and the rung sources
built from them. -/

namespace Sys2Proof.Machine

/-! ### Source pictures (R137, R138) -/

/-- Where the planes of a source picture lie, from its header. -/
structure PicLayout where
  lumaPitch : Nat
  chromaPitch : Nat
  lumaOff : Nat
  chromaOff : Nat
  deriving DecidableEq, Repr

/-- Little-endian field of a header. -/
def hdrNum (b : List Byte) (k n : Nat) : Nat := leNum ((b.drop k).take n)

def layoutOf (b : List Byte) : PicLayout := ⟨hdrNum b 20 4, hdrNum b 24 4, hdrNum b 32 8, hdrNum b 40 8⟩

/-- The format that a header declares (R137). -/
def formatOf (b : List Byte) : PicFormat :=
  { width := hdrNum b 8 2, height := hdrNum b 10 2, depth := bits (hdrNum b 12 1) 3 0,
    chroma := bits (hdrNum b 12 1) 5 4, primaries := hdrNum b 14 1, transfer := hdrNum b 15 1, matrix := hdrNum b 16 1,
    range := hdrNum b 17 1, hdr := ((b.drop 18).take 1) ++ ((b.drop 48).take 28) }

/-- What R139 checks of a header: MAGIC, VERSION, reserved bits, encodings, alignments and pitches. -/
def headerOk (b : List Byte) : Bool :=
  let f := formatOf b
  let l := layoutOf b
  let n := if f.depth = 8 then 1 else 2
  hdrNum b 0 4 == 0x48505844 && hdrNum b 4 2 == 1 && hdrNum b 6 2 == 0 && hdrNum b 19 1 == 0 && hdrNum b 28 4 == 0 &&
  hdrNum b 76 180 == 0 && bits (hdrNum b 12 1) 7 6 == 0 && (f.depth == 8 || f.depth == 10) && decide (f.chroma ≤ 1) &&
  decide (hdrNum b 13 1 ≤ 5) && decide (f.primaries ≤ 1) && decide (f.transfer ≤ 2) && decide (f.matrix ≤ 1) &&
  decide (f.range ≤ 1) && decide (hdrNum b 18 1 ≤ 3) && l.lumaPitch % 64 == 0 && l.chromaPitch % 64 == 0 &&
  l.lumaOff % 64 == 0 && l.chromaOff % 64 == 0 && decide (f.width * n ≤ l.lumaPitch) &&
  decide (f.width * n ≤ l.chromaPitch)

/-- Byte `i` of a source picture: of its image, or of data space. -/
def Dev.picByte (d : Dev) (p : SrcPic) (i : Nat) : Nat :=
  if p.image.isEmpty then (SMap.get (fun _ => 0) d.dataMem (p.addr + i)).toNat else (p.image.getD i 0).toNat

/-- The header of a source picture. -/
def Dev.picHeader (d : Dev) (p : SrcPic) : List Byte :=
  if p.image.isEmpty then d.dataRead p.addr 256 else p.image.take 256

/-- A sample at byte `i`: a byte, or a 16-bit word whose bits above the tenth are ignored (R138). -/
def Dev.picSample (d : Dev) (p : SrcPic) (i : Nat) : Nat :=
  if p.fmt.depth = 8 then d.picByte p i else (d.picByte p i + 256 * d.picByte p (i + 1)) % 1024

/-- A plane: width, height and samples in raster order. -/
structure Plane where
  w : Nat
  h : Nat
  s : Array Nat
  deriving DecidableEq, Repr

/-- A plane from a function of column and row. -/
def Plane.make (w h : Nat) (f : Nat → Nat → Nat) : Plane :=
  ⟨w, h, (Array.range (w * h)).map fun i => f (i % max w 1) (i / max w 1)⟩

/-- A sample; beyond an edge, the edge sample (R150). -/
def Plane.at (p : Plane) (x y : Int) : Nat :=
  let cx := min x.toNat (p.w - 1)
  let cy := min y.toNat (p.h - 1)
  p.s.getD (cy * p.w + cx) 0

/-- The luma plane of a source picture. -/
def Dev.picLuma (d : Dev) (p : SrcPic) : Plane :=
  let l := layoutOf (d.picHeader p)
  let n := if p.fmt.depth = 8 then 1 else 2
  Plane.make p.fmt.width p.fmt.height fun x y => d.picSample p (l.lumaOff + y * l.lumaPitch + x * n)

/-- A chroma plane: `k` 0 Cb, 1 Cr. -/
def Dev.picChroma (d : Dev) (p : SrcPic) (k : Nat) : Plane :=
  let l := layoutOf (d.picHeader p)
  let n := if p.fmt.depth = 8 then 1 else 2
  let h := if p.fmt.chroma = 0 then p.fmt.height / 2 else p.fmt.height
  Plane.make (p.fmt.width / 2) h fun x y => d.picSample p (l.chromaOff + y * l.chromaPitch + (2 * x + k) * n)

/-! ### Scaling (R150) -/

/-- Luma taps by phase: round(128 × L(d)) for the Lanczos kernel with a = 4, the tap nearest the position adjusted so that
they sum to 128. -/
def lumaTaps : List (List Int) :=
  [[0, 0, 0, 128, 0, 0, 0, 0], [0, 1, -2, 128, 2, -1, 0, 0], [0, 1, -3, 127, 4, -1, 0, 0],
   [-1, 2, -5, 127, 6, -2, 1, 0], [-1, 2, -7, 128, 8, -3, 1, 0], [-1, 3, -8, 126, 10, -3, 1, 0],
   [-1, 3, -10, 127, 12, -4, 1, 0], [-1, 4, -11, 125, 14, -5, 2, 0], [-1, 4, -12, 125, 16, -6, 2, 0],
   [-1, 5, -13, 122, 19, -6, 2, 0], [-2, 5, -14, 123, 21, -7, 2, 0], [-2, 6, -15, 120, 24, -8, 3, 0],
   [-2, 6, -16, 120, 26, -9, 3, 0], [-2, 6, -17, 118, 29, -9, 3, 0], [-2, 7, -18, 117, 31, -10, 3, 0],
   [-2, 7, -19, 115, 34, -11, 4, 0]] ++
  [[-2, 7, -20, 116, 36, -12, 4, -1], [-2, 7, -20, 114, 39, -13, 4, -1], [-2, 8, -21, 110, 42, -13, 5, -1],
   [-2, 8, -21, 109, 44, -14, 5, -1], [-2, 8, -21, 107, 47, -15, 5, -1], [-2, 8, -22, 105, 50, -15, 5, -1],
   [-2, 8, -22, 103, 52, -16, 6, -1], [-2, 8, -22, 101, 55, -17, 6, -1], [-2, 8, -22, 98, 58, -17, 6, -1],
   [-2, 8, -22, 96, 61, -18, 6, -1], [-2, 8, -22, 94, 63, -19, 7, -1], [-2, 8, -22, 91, 66, -19, 7, -1],
   [-2, 8, -22, 89, 69, -20, 7, -1], [-2, 8, -22, 87, 71, -20, 7, -1], [-2, 8, -22, 85, 74, -21, 7, -1],
   [-2, 8, -22, 82, 77, -21, 8, -2]] ++
  [[-2, 8, -21, 79, 79, -21, 8, -2], [-2, 8, -21, 77, 82, -22, 8, -2], [-1, 7, -21, 74, 85, -22, 8, -2],
   [-1, 7, -20, 71, 87, -22, 8, -2], [-1, 7, -20, 69, 89, -22, 8, -2], [-1, 7, -19, 66, 91, -22, 8, -2],
   [-1, 7, -19, 63, 94, -22, 8, -2], [-1, 6, -18, 61, 96, -22, 8, -2], [-1, 6, -17, 58, 98, -22, 8, -2],
   [-1, 6, -17, 55, 101, -22, 8, -2], [-1, 6, -16, 52, 103, -22, 8, -2], [-1, 5, -15, 50, 105, -22, 8, -2],
   [-1, 5, -15, 47, 107, -21, 8, -2], [-1, 5, -14, 44, 109, -21, 8, -2], [-1, 5, -13, 42, 110, -21, 8, -2],
   [-1, 4, -13, 39, 114, -20, 7, -2]] ++
  [[-1, 4, -12, 36, 116, -20, 7, -2], [0, 4, -11, 34, 115, -19, 7, -2], [0, 3, -10, 31, 117, -18, 7, -2],
   [0, 3, -9, 29, 118, -17, 6, -2], [0, 3, -9, 26, 120, -16, 6, -2], [0, 3, -8, 24, 120, -15, 6, -2],
   [0, 2, -7, 21, 123, -14, 5, -2], [0, 2, -6, 19, 122, -13, 5, -1], [0, 2, -6, 16, 125, -12, 4, -1],
   [0, 2, -5, 14, 125, -11, 4, -1], [0, 1, -4, 12, 127, -10, 3, -1], [0, 1, -3, 10, 126, -8, 3, -1],
   [0, 1, -3, 8, 128, -7, 2, -1], [0, 1, -2, 6, 127, -5, 2, -1], [0, 0, -1, 4, 127, -3, 1, 0],
   [0, 0, -1, 2, 128, -2, 1, 0]]

/-- Chroma taps by phase, with a = 2. -/
def chromaTaps : List (List Int) :=
  [[0, 128, 0, 0], [-1, 128, 1, 0], [-2, 127, 3, 0], [-3, 127, 4, 0], [-4, 126, 6, 0], [-5, 126, 7, 0],
   [-6, 125, 9, 0], [-7, 124, 11, 0], [-8, 124, 13, -1], [-8, 122, 15, -1], [-9, 121, 17, -1], [-9, 119, 19, -1],
   [-10, 118, 21, -1], [-10, 117, 23, -2], [-10, 115, 25, -2], [-11, 113, 28, -2]] ++
  [[-11, 111, 30, -2], [-11, 109, 33, -3], [-11, 107, 35, -3], [-11, 104, 38, -3], [-11, 103, 40, -4],
   [-11, 100, 43, -4], [-11, 97, 46, -4], [-11, 96, 48, -5], [-11, 93, 51, -5], [-10, 89, 54, -5], [-10, 87, 57, -6],
   [-10, 85, 59, -6], [-10, 83, 62, -7], [-9, 79, 65, -7], [-9, 76, 68, -7], [-9, 74, 71, -8]] ++
  [[-8, 71, 73, -8], [-8, 71, 74, -9], [-7, 68, 76, -9], [-7, 65, 79, -9], [-7, 62, 83, -10], [-6, 59, 85, -10],
   [-6, 57, 87, -10], [-5, 54, 89, -10], [-5, 51, 93, -11], [-5, 48, 96, -11], [-4, 46, 97, -11], [-4, 43, 100, -11],
   [-4, 40, 103, -11], [-3, 38, 104, -11], [-3, 35, 107, -11], [-3, 33, 109, -11]] ++
  [[-2, 30, 111, -11], [-2, 28, 113, -11], [-2, 25, 115, -10], [-2, 23, 117, -10], [-1, 21, 118, -10],
   [-1, 19, 119, -9], [-1, 17, 121, -9], [-1, 15, 122, -8], [-1, 13, 124, -8], [0, 11, 124, -7], [0, 9, 125, -6],
   [0, 7, 126, -5], [0, 6, 126, -4], [0, 4, 127, -3], [0, 3, 127, -2], [0, 1, 128, -1]]

/-- 4:2:2 to 4:2:0: the rounded mean of two vertically adjacent samples. -/
def Plane.to420 (p : Plane) : Plane :=
  Plane.make p.w (p.h / 2) fun x y => (p.at x (2 * y : Nat) + p.at x (2 * y + 1 : Nat) + 1) / 2

/-- Halving of the columns, or of the rows. -/
def Plane.halveX (p : Plane) : Plane :=
  Plane.make (p.w / 2) p.h fun x y => (p.at (2 * x : Nat) y + p.at (2 * x + 1 : Nat) y + 1) / 2
def Plane.halveY (p : Plane) : Plane :=
  Plane.make p.w (p.h / 2) fun x y => (p.at x (2 * y : Nat) + p.at x (2 * y + 1 : Nat) + 1) / 2

/-- Halving while the extent exceeds twice the target's, on each axis; `n` bounds the number of halvings. -/
def Plane.reduce (p : Plane) (w h : Nat) : Nat → Plane
  | 0 => p
  | n + 1 =>
    if 2 * w < p.w then p.halveX.reduce w h n
    else if 2 * h < p.h then p.halveY.reduce w h n
    else p

/-- Position of output sample `j`: whole part and phase in 1/64, rounded down. -/
def scalePos (win wout j : Nat) : Int × Nat :=
  let num : Int := ((2 * j + 1 : Nat) : Int) * win - wout
  let den : Int := 2 * wout
  (num / den, ((num % den) * 64 / den).toNat)

/-- One filtered sample: taps start `taps.length / 2 - 1` before the position. -/
def filterAt (taps : List Int) (top : Nat) (get : Int → Nat) (pos : Int) : Nat :=
  let start := pos - ((taps.length / 2 : Nat) : Int) + 1
  let sum := (taps.zipIdx.map fun t => t.1 * (get (start + (t.2 : Int)) : Int)).sum
  min top ((sum + 64) / 128).toNat

/-- The polyphase filter, columns first, then rows. -/
def Plane.resample (p : Plane) (taps : List (List Int)) (w h top : Nat) : Plane :=
  let a := Plane.make w p.h fun x y =>
    let z := scalePos p.w w x
    filterAt (taps.getD z.2 []) top (fun i => p.at i y) z.1
  Plane.make w h fun x y =>
    let z := scalePos a.h h y
    filterAt (taps.getD z.2 []) top (fun i => a.at x i) z.1

/-- A plane at rung size. -/
def Plane.scale (p : Plane) (taps : List (List Int)) (w h top : Nat) : Plane :=
  let r := p.reduce w h 32
  r.resample taps w h top

/-- The depth of a rung sample (R150); an 8-bit source for a 10-bit rung has no stated form. -/
def rungDepth (src rung v : Nat) : Nat :=
  if src = 10 ∧ rung = 8 then min 255 ((v + 2) / 4)
  else if src = 8 ∧ rung = 10 then Config.widen v % 1024
  else v

/-- The tone curve that a member's rung takes (R152, R153, R162): none without a selection or when the page is outside
the data space or the member's window. The second value tells an unusable page, the third a page that cannot be read. -/
def Dev.toneCurve (d : Dev) (t c : Nat) (x : Ctx) : Option (List Byte) × Bool × Bool :=
  let slot := d.fld (Reg.TONE_SEL t c) 3 0
  if slot = 0 then (none, false, false)
  else
    let a := d.fld (Reg.TONE_CURVE t slot) 25 0 * 4096
    if dataSpace < a + 2048 ∨ d.windowHas x.fn (d.fnLevel x.fn) a 2048 = false then (none, true, false)
    else if d.readStatus a 2048 ≠ 0 then (none, false, true)
    else (some (d.dataRead a 2048), false, false)

/-! ### Tone mapping (R152) -/

/-- A fraction rounded down or up, which the spec leaves open for step `k` (DESIGN CHOICE, log entry 79). -/
def toneRound (k : Nat) (a b : Int) : Int := a / b + (if a % b ≠ 0 ∧ Config.toneUp k a b then 1 else 0)

/-- Eight times the chroma at luma position (x, y): linear interpolation of chroma samples of location type 0, which lie at
every second column and half-way between two rows. -/
def chromaAt (p : Plane) (x y : Nat) : Int :=
  let j : Int := ((y / 2 : Nat) : Int)
  let near : Int := j
  let far : Int := if y % 2 = 0 then j - 1 else j + 1
  let i : Int := ((x / 2 : Nat) : Int)
  let row (r : Int) : Int := if x % 2 = 0 then 2 * p.at i r else (p.at i r : Int) + p.at (i + 1) r
  3 * row near + row far

/-- Coefficients of MATRIX in 1/10,000: of red and of blue (R137). -/
def matrixOf (m : Nat) : Int × Int := if m = 0 then (2126, 722) else (2627, 593)

/-- Y'CbCr, with chroma times 8, to R'G'B' as source code values (R152 step 2). -/
def toRgb (f : PicFormat) (y cb8 cr8 : Int) : List Nat :=
  let (kr, kb) := matrixOf f.matrix
  let kg := 10000 - kr - kb
  let scale : Int := 2 ^ (f.depth - 8)
  let top : Int := 2 ^ f.depth - 1
  -- a code value of red or blue is Y' plus 2 (1 - K) times the chroma difference, in steps of Y'
  let (num, den) : Int × Int := if f.range = 0 then (219, 224) else (1, 1)
  let u := cb8 - 8 * 128 * scale
  let v := cr8 - 8 * 128 * scale
  let clip (x : Int) : Nat := (max 0 (min top x)).toNat
  let r := y + toneRound 1 (2 * (10000 - kr) * v * num) (8 * 10000 * den)
  let b := y + toneRound 2 (2 * (10000 - kb) * u * num) (8 * 10000 * den)
  let g := y - toneRound 3 ((2 * kr * (10000 - kr) * v + 2 * kb * (10000 - kb) * u) * num) (8 * 10000 * kg * den)
  [clip r, clip g, clip b]

/-- The curve's entry for a code value (R152 step 3). -/
def curveAt (curve : List Byte) (depth code : Nat) : Nat :=
  let i := if depth = 8 then 4 * code else code
  leNum ((curve.drop (2 * i)).take 2)

/-- The matrix of R152 in 14 fractional bits, by rows. -/
def toneMatrix : List (List Int) := [[27206, -9627, -1193], [-2041, 18561, -136], [-298, -1648, 18329]]

/-- BT.2100 primaries to BT.709 primaries, clipped to 0 to 1.0 (R152 step 4). -/
def toBt709 (l : List Nat) : List Nat :=
  toneMatrix.map fun row =>
    let s := (row.zip l).foldl (fun t x => t + x.1 * x.2) 0
    (max 0 (min 65535 (toneRound 4 s 16384))).toNat

/-- R'G'B' in 1/65,535 to narrow-range BT.709 Y'CbCr of a depth (R152 step 6). -/
def toYcc (depth : Nat) (l : List Nat) : Int × Int × Int :=
  let r : Int := l.getD 0 0
  let g : Int := l.getD 1 0
  let b : Int := l.getD 2 0
  let scale : Int := 2 ^ (depth - 8)
  let y := 2126 * r + 7152 * g + 722 * b
  let c (x k : Int) : Int := 128 * scale + toneRound 6 ((10000 * x - y) * 224 * scale) (2 * (10000 - k) * 65535)
  (16 * scale + toneRound 5 (y * 219 * scale) (10000 * 65535), c b 722, c r 2126)

/-- One pixel of a rung picture tone mapped (R152 steps 2 to 6). -/
def tonePixel (f : PicFormat) (curve : List Byte) (y cb8 cr8 : Int) : Int × Int × Int :=
  toYcc f.depth ((toBt709 ((toRgb f y cb8 cr8).map (curveAt curve f.depth))).map Config.bt709)

/-- A rung picture tone mapped: chroma returns to 4:2:0 as the rounded mean of each 2 × 2 set of four (R152). -/
def toneMap (f : PicFormat) (curve : List Byte) (y cb cr : Plane) : Plane × Plane × Plane :=
  let px (x j : Nat) : Int × Int × Int := tonePixel f curve (y.at x j) (chromaAt cb x j) (chromaAt cr x j)
  let mean (sel : Int × Int × Int → Int) (x j : Nat) : Nat :=
    ((sel (px (2 * x) (2 * j)) + sel (px (2 * x + 1) (2 * j)) + sel (px (2 * x) (2 * j + 1)) +
      sel (px (2 * x + 1) (2 * j + 1)) + 2) / 4).toNat
  (Plane.make y.w y.h fun x j => (px x j).1.toNat, Plane.make cb.w cb.h (mean fun c => c.2.1),
    Plane.make cr.w cr.h (mean fun c => c.2.2))

/-- The rung source of a picture for a member: scaling, tone mapping, depth (R150, R152). -/
def Dev.buildRung (d : Dev) (p : SrcPic) (x : Ctx) (tone : Option (List Byte)) : Rung :=
  let top := if p.fmt.depth = 8 then 255 else 1023
  let c420 (q : Plane) := if p.fmt.chroma = 1 then q.to420 else q
  let y := (d.picLuma p).scale lumaTaps x.width x.height top
  let cb := (c420 (d.picChroma p 0)).scale chromaTaps (x.width / 2) (x.height / 2) top
  let cr := (c420 (d.picChroma p 1)).scale chromaTaps (x.width / 2) (x.height / 2) top
  let z := match tone with
    | none => (y.s.toList, cb.s.toList, cr.s.toList)
    | some curve =>
      let t := toneMap p.fmt curve y cb cr
      (t.1.s.toList, t.2.1.s.toList, t.2.2.s.toList)
  let f (l : List Nat) := l.map (rungDepth p.fmt.depth x.depth)
  { n := p.n, width := x.width, height := x.height, depth := x.depth, luma := f z.1, cb := f z.2.1, cr := f z.2.2,
    toned := tone.isSome }

end Sys2Proof.Machine
end

