-- ==== Sys2Proof/Machine/AnaOps.lean ====
section
/-! DEFINITION. Source analysis (spec/06_source_analysis.md): what the Analysis Engines compute, the group's decisions,
the rung analysis of a member, and the sidecar. -/

namespace Sys2Proof.Machine

/-! ### What the Analysis Engines compute (R142) -/

/-- Luma on an 8-bit scale. -/
def Plane.toEight (p : Plane) (depth : Nat) : Plane := ⟨p.w, p.h, p.s.map fun v => if depth = 8 then v else v / 4⟩

/-- A 2 × 2 reduction. -/
def Plane.quarterOf (p : Plane) : Plane :=
  Plane.make (p.w / 2) (p.h / 2) fun x y =>
    (p.at (2 * x : Nat) (2 * y : Nat) + p.at (2 * x + 1 : Nat) (2 * y : Nat) + p.at (2 * x : Nat) (2 * y + 1 : Nat) +
      p.at (2 * x + 1 : Nat) (2 * y + 1 : Nat) + 2) / 4

/-- The positions of 8 × 8 block `b` of a plane with `bw` blocks in a row: of a block that overhangs the plane, those inside
it (DESIGN CHOICE, log entry 78). -/
def Plane.block (p : Plane) (bw b : Nat) : List (Nat × Nat) :=
  (List.range 64).filterMap fun i =>
    let x := b % max bw 1 * 8 + i % 8
    let y := b / max bw 1 * 8 + i / 8
    if x < p.w ∧ y < p.h then some (x, y) else none

/-- SAD of a block against another plane displaced by a vector; beyond an edge the edge sample counts. -/
def sadAt (p q : Plane) (blk : List (Nat × Nat)) (v : Int × Int) : Nat :=
  (blk.map fun c => ((p.at c.1 c.2 : Int) - q.at (c.1 + v.1) (c.2 + v.2)).natAbs).sum

/-- SAD of a block against its own rounded mean. -/
def sadMean (p : Plane) (blk : List (Nat × Nat)) : Nat :=
  let n := max 1 blk.length
  let m := ((blk.map fun c => p.at c.1 c.2).sum + n / 2) / n
  (blk.map fun c => ((p.at c.1 c.2 : Int) - m).natAbs).sum

/-- Whether a candidate is better: less SAD, then less |x| + |y|, then less y, then less x. -/
def better (a b : Nat × Int × Int) : Bool :=
  let ka := a.2.1.natAbs + a.2.2.natAbs
  let kb := b.2.1.natAbs + b.2.2.natAbs
  decide (a.1 < b.1) || (a.1 == b.1 && (decide (ka < kb) || (ka == kb &&
    (decide (a.2.2 < b.2.2) || (a.2.2 == b.2.2 && decide (a.2.1 < b.2.1))))))

/-- The best vector of a block within ±64 × ±32 quarter-resolution pixels, with its SAD. -/
def searchBlock (p q : Plane) (blk : List (Nat × Nat)) : Nat × Int × Int :=
  (List.range (129 * 65)).foldl (fun best i =>
    let v : Int × Int := ((i % 129 : Nat) - 64, (i / 129 : Nat) - 32)
    let c := (sadAt p q blk v, v)
    if better c best then c else best) (sadAt p q blk (0, 0), 0, 0)

/-- The field from plane `q` to plane `p`. -/
def fieldOf (p q : Plane) : List (Nat × Int × Int) :=
  let bw := ceilDiv p.w 8
  (List.range (bw * ceilDiv p.h 8)).map fun b => searchBlock p q (p.block bw b)

/-- The cut score (R142): 255 for a picture without a field. -/
def cutScore (p : Plane) (field : List (Nat × Int × Int)) : Nat :=
  if field.isEmpty then 255
  else
    let bw := ceilDiv p.w 8
    let a := ((List.range field.length).map fun b => sadMean p (p.block bw b)).sum
    min 255 (256 * (field.map Prod.fst).sum / max 1 a)

/-- floor(16 × log2(1 + c)), at most 255. -/
def complexityOf (c : Nat) : Nat := min 255 (Nat.log2 ((1 + c) ^ 16))

/-- The lower median of a list. -/
def medianOf (l : List Int) : Int := (l.mergeSort (· ≤ ·)).getD ((l.length - 1) / 2) 0

/-- Saliency of a block (R142): INTRA and the vector, in source pixels, less the global one. -/
def saliencyOf (intra : Nat) (v g : Int × Int) : Nat :=
  min 127 (intra / 64) + min 128 ((v.1 - g.1).natAbs / 4 + (v.2 - g.2).natAbs / 4)

/-- Blocks of 16 × 16 and of 32 × 32 source pixels in a row. -/
def blocks16 (n : Nat) : Nat := ceilDiv n 16
def blocks32 (n : Nat) : Nat := ceilDiv n 32

/-- A sample of a half-resolution plane at a position in half pixels: between samples, what the device interpolates from
those around it (DESIGN CHOICE, log entry 1). -/
def Plane.halfAt (p : Plane) (x y : Int) : Nat :=
  if x % 2 = 0 ∧ y % 2 = 0 then p.at (x / 2) (y / 2)
  else Config.halfPel (x % 2 == 1) (y % 2 == 1)
    ((List.range 64).map fun i => p.at (x / 2 + ((i % 8 : Nat) : Int) - 3) (y / 2 + ((i / 8 : Nat) : Int) - 3)) % 256

/-- SAD of a half-resolution block against another plane displaced by a vector in half pixels. -/
def sadHalf (p q : Plane) (blk : List (Nat × Nat)) (v : Int × Int) : Nat :=
  (blk.map fun c => ((p.at c.1 c.2 : Int) - q.halfAt (2 * c.1 + v.1) (2 * c.2 + v.2)).natAbs).sum

/-- The refined vector of a half-resolution block, in half pixels, with its SAD: the best within ±4 pixels of the
quarter-resolution vector `v`, ties as in the search (DEDUCED, log entry 77). -/
def refineBlock (p q : Plane) (blk : List (Nat × Nat)) (v : Int × Int) : Nat × Int × Int :=
  let c (i : Nat) : Int × Int := (4 * v.1 + ((i % 17 : Nat) : Int) - 8, 4 * v.2 + ((i / 17 : Nat) : Int) - 8)
  (List.range 289).foldl (fun best i =>
    let x := (sadHalf p q blk (c i), c i)
    if better x best then x else best) (sadHalf p q blk (c 144), c 144)

/-- The refined field of the 16 × 16 source blocks with the cost of each: the vector of the quarter-resolution block that
covers it, refined at half resolution (R142). A block beyond the quarter-resolution grid takes the last block's vector
(DESIGN CHOICE, log entry 78). -/
def refineField (w h : Nat) (p q : Plane) (g : List (Int × Int)) : List (Nat × Int × Int) :=
  (List.range (blocks16 w * blocks16 h)).map fun b =>
    let bx := b % max 1 (blocks16 w)
    let by_ := b / max 1 (blocks16 w)
    refineBlock p q (p.block (blocks16 w) b) (g.getD (by_ / 2 * blocks32 w + bx / 2) (0, 0))

/-- A field in units of 1/4 source pixel, and its costs. -/
def fieldVecs (l : List (Nat × Int × Int)) : List (Int × Int) := l.map fun x => (4 * x.2.1, 4 * x.2.2)
def fieldCosts (l : List (Nat × Int × Int)) : List Nat := l.map Prod.fst

/-- The quarter-resolution vectors of a field for the grid of 32 × 32 blocks. -/
def quarterGrid (w h : Nat) (f : List (Nat × Int × Int)) : List (Int × Int) :=
  let bw := ceilDiv (w / 4) 8
  (List.range (blocks32 w * blocks32 h)).map fun b =>
    let i := min (b % max 1 (blocks32 w)) (bw - 1)
    let j := min (b / max 1 (blocks32 w)) (ceilDiv (h / 4) 8 - 1)
    (f.getD (j * bw + i) (0, 0, 0)).2

/-- The maps of an analysis follow from its fields and costs (R142). -/
def Analysis.maps (a : Analysis) : Analysis :=
  let g : Int × Int := (medianOf (a.l0.map Prod.fst), medianOf (a.l0.map Prod.snd))
  let n := a.intra.length
  { a with
    complexity := (List.range n).map fun b =>
      let c := min (a.cost0.getD b 0) (a.intra.getD b 0)
      complexityOf (if a.hasL1 then min c (a.cost1.getD b 0) else c)
    saliency := (List.range n).map fun b => saliencyOf (a.intra.getD b 0) (a.l0.getD b (0, 0)) g }

/-- The analysis of a luma plane against the quarter-resolution and half-resolution luma of the picture before (R142), and
its own. -/
def analysePlane (luma : Plane) (depth : Nat) (prev prevHalf : List Nat) : Analysis × List Nat × List Nat :=
  let half := (luma.toEight depth).quarterOf
  let q := half.quarterOf
  let w := luma.w
  let h := luma.h
  let nb := blocks16 w * blocks16 h
  let intra := (List.range nb).map fun b => sadMean half (half.block (blocks16 w) b)
  let mean := q.s.toList.sum / max 1 q.s.size
  let field := if prev.isEmpty then [] else fieldOf q ⟨q.w, q.h, prev.toArray⟩
  let q0 := if field.isEmpty then List.replicate (blocks32 w * blocks32 h) (0, 0) else quarterGrid w h field
  let fine := refineField w h half ⟨half.w, half.h, prevHalf.toArray⟩ q0
  let l0 := if field.isEmpty then List.replicate nb (0, 0) else fieldVecs fine
  let cost0 := if field.isEmpty then intra else fieldCosts fine
  let a : Analysis :=
    { s := cutScore q field, m := mean, cut := false, fade := false, key := false, segStart := false, segIndex := 0,
      hasL0 := !field.isEmpty, hasL1 := false, q0 := q0, q1 := [], l0 := l0, l1 := [], complexity := [], saliency := [],
      cost0 := cost0, cost1 := [], intra := intra }
  (a.maps, q.s.toList, half.s.toList)

/-- The analysis of a source picture after the one analysed last. -/
def Dev.analyse (d : Dev) (p : SrcPic) (s : Source) : Analysis × List Nat × List Nat :=
  analysePlane (d.picLuma p) p.fmt.depth s.prev s.prevHalf

/-- The backward field of a picture, of luma `q` and `half`, once that of the next one is known (R142). -/
def backward (f : PicFormat) (a : Analysis) (q half next nextHalf : List Nat) : Analysis :=
  let w := f.width
  let h := f.height
  let plane (k : Nat) (l : List Nat) : Plane := ⟨w / k, h / k, l.toArray⟩
  let q1 := quarterGrid w h (fieldOf (plane 4 q) (plane 4 next))
  let fine := refineField w h (plane 2 half) (plane 2 nextHalf) q1
  { a with hasL1 := true, q1 := q1, l1 := fieldVecs fine, cost1 := fieldCosts fine }.maps

/-! ### Decisions (R143-R147) -/

/-- What decides for a source: lookahead, segments, and the ANA_CTRL of the tile. -/
structure AnaParams where
  lookahead : Nat
  segOnDt : Bool
  segMs : Nat
  ctrl : Nat
  /-- a standalone encode knows no FADE (R174) -/
  fades : Bool
  deriving DecidableEq, Repr

/-- Whether means change in one direction with every step at least `k`. -/
def monotone (k : Nat) : List Nat → Bool
  | [] => true
  | [_] => true
  | a :: b :: r => (decide (a + k ≤ b) && up (b :: r)) || (decide (b + k ≤ a) && down (b :: r))
where
  /-- rising -/
  up : List Nat → Bool
    | a :: b :: r => decide (a + k ≤ b) && up (b :: r)
    | _ => true
  /-- falling -/
  down : List Nat → Bool
    | a :: b :: r => decide (b + k ≤ a) && down (b :: r)
    | _ => true

/-- The pictures of a list up to the last one of their stream, and whether it is there. -/
def streamPart : List SrcPic → List SrcPic × Bool
  | [] => ([], false)
  | p :: r => if p.last then ([p], true) else
    let y := streamPart r
    (p :: y.1, y.2)

/-- The decisions of the first picture whose own are not final, when they can be made (R143-R147): the source, and
whether the fourth cause of R145 held. They wait for picture n + min(LOOKAHEAD, 3), or for the stream's last to be analysed
(R144). The first picture, which no key picture comes before, does not meet the fourth cause (DESIGN CHOICE, log entry 75). -/
def Source.decide1 (s : Source) (k : AnaParams) : Option (Source × Bool) :=
  match s.pics.filter fun p => !p.final with
  | [] => none
  | p :: rest => match p.analysis with
    | none => none
    | some a =>
      let part := streamPart (p :: rest)
      let after := (part.1.drop 1).filter fun q => q.analysis.isSome
      if after.length < min k.lookahead 3 ∧ !(part.2 && part.1.all fun q => q.analysis.isSome) then none
      else
        let means := s.lastMean.toList ++ a.m :: (after.filterMap fun q => q.analysis.map Analysis.m).take 3
        let fade := k.fades && decide (3 ≤ k.lookahead) && means.length == 5 && monotone (bits k.ctrl 31 24) means
        let cut := decide (bits k.ctrl 15 8 ≤ a.s) && !fade
        let b := boundaryOf k.segMs p.dt
        let seg := k.segOnDt && s.lastBoundary.any fun x => decide (x < b)
        let index := b / (max k.segMs 1 * 1000 * unitsPerUs) % 2 ^ 32
        let gap := s.lastKey.any fun x => decide (bits k.ctrl 23 16 ≤ p.n - x)
        let cause4 := cut && bit k.ctrl 0 && gap
        let key := s.lastKey.isNone || seg || p.force || cause4
        let a1 := { a with cut := cut, fade := fade, key := key, segStart := seg, segIndex := index }
        let s1 := { s with
          pics := s.pics.map fun q => if q.n = p.n then { p with analysis := some a1, final := true } else q,
          lastKey := if key then some p.n else s.lastKey,
          lastBoundary := if k.segOnDt then some (max b (s.lastBoundary.getD b)) else s.lastBoundary,
          lastMean := some a.m }
        some (s1, cause4)

/-- Every decision that can be made is made, in order; `n` bounds their number. The second value counts the fourth
causes. -/
def Source.decideAll (s : Source) (k : AnaParams) : Nat → Source × Nat
  | 0 => (s, 0)
  | n + 1 => match s.decide1 k with
    | none => (s, 0)
    | some (s1, c) =>
      let y := s1.decideAll k n
      (y.1, y.2 + b2n c)

/-! ### Rung analysis (R151, R171) -/

/-- Rounding half away from zero of a / b. -/
def roundDiv (a b : Int) : Int := if a < 0 then -((-a * 2 + b) / (2 * b)) else (a * 2 + b) / (2 * b)

/-- Source blocks along one axis that rung block `i` covers, with the extent of each, in units of 1/extent of the
rung. -/
def coverOf (src rung i : Nat) : List (Nat × Nat) :=
  let a := 16 * i * src
  let b := min (16 * (i + 1)) rung * src
  (List.range (blocks16 src)).filterMap fun k =>
    let lo := max a (16 * k * rung)
    let hi := min b (16 * (k + 1) * rung)
    if lo < hi then some (k, hi - lo) else none

/-- The rung analysis entries of a picture at a rung's size, in raster order (R151). -/
def rungEntries (a : Analysis) (sw sh rw rh : Nat) : List RungEntry :=
  (List.range (blocks16 rw * blocks16 rh)).map fun e =>
    let i := e % max 1 (blocks16 rw)
    let j := e / max 1 (blocks16 rw)
    let cx := min ((16 * i + 8) * sw / max 1 rw / 16) (blocks16 sw - 1)
    let cy := min ((16 * j + 8) * sh / max 1 rh / 16) (blocks16 sh - 1)
    let c := cy * blocks16 sw + cx
    let cells := (coverOf sh rh j).flatMap fun y => (coverOf sw rw i).map fun x =>
      (y.1 * blocks16 sw + x.1, x.2 * y.2)
    let area := (cells.map Prod.snd).sum
    let sum := (cells.map fun z => a.complexity.getD z.1 0 * z.2).sum
    let vec (v : Int × Int) : Int × Int := (roundDiv (v.1 * rw) (max 1 sw), roundDiv (v.2 * rh) (max 1 sh))
    { l0 := vec (a.l0.getD c (0, 0)), l1 := vec (a.l1.getD c (0, 0)),
      complexity := (2 * sum + area) / max 1 (2 * area),
      saliency := (cells.map fun z => a.saliency.getD z.1 0).foldl max 0,
      cost0 := a.cost0.getD c 0, cost1 := a.cost1.getD c 0, intra := a.intra.getD c 0 }

/-- FLAGS of a rung analysis entry (R171). -/
def Job.entryFlags (j : Job) : Nat := b2n j.hasL0 + 2 * b2n j.hasL1 + 4 * b2n j.cut + 8 * b2n j.fade

/-- The 32 bytes of a rung analysis entry (R171). -/
def RungEntry.image (e : RungEntry) (flags : Nat) : List Byte :=
  leBytes 2 (unsigned 16 e.l0.1) ++ leBytes 2 (unsigned 16 e.l0.2) ++ leBytes 2 (unsigned 16 e.l1.1) ++
  leBytes 2 (unsigned 16 e.l1.2) ++ leBytes 1 e.complexity ++ leBytes 1 e.saliency ++ leBytes 1 flags ++ leBytes 1 0 ++
  leBytes 2 e.cost0 ++ leBytes 2 e.cost1 ++ leBytes 2 e.intra ++ leBytes 14 0

/-! ### The sidecar's bit strings (R159) -/

/-- ue(v). -/
def ueBits (v : Nat) : List Bool :=
  let n := Nat.log2 (v + 1)
  List.replicate n false ++ (List.range (n + 1)).map fun i => bit (v + 1) (n - i)

/-- se(v): 2v − 1 for a positive value, −2v otherwise. -/
def seBits (v : Int) : List Bool := ueBits (if 0 < v then 2 * v.toNat - 1 else 2 * (-v).toNat)

/-- Bits as bytes, most significant first, padded with 0 bits; `n` bounds the bytes. -/
def packBits : Nat → List Bool → List Byte
  | 0, _ => []
  | n + 1, l =>
    if l.isEmpty then []
    else
      let v := (List.range 8).foldl (fun a i => 2 * a + b2n (l.getD i false)) 0
      BitVec.ofNat 8 v :: packBits n (l.drop 8)

/-- The bits of bytes. -/
def unpackBits (l : List Byte) : List Bool := l.flatMap fun b => (List.range 8).map fun i => bit b.toNat (7 - i)

/-- The prediction of value `b` of a grid: the left one, the one above in the first column, else `start` (R159). -/
def gridPred {α : Type} (l : List α) (cols b : Nat) (start : α) : α :=
  if b = 0 then start else if b % max cols 1 = 0 then l.getD (b - cols) start else l.getD (b - 1) start

/-- The largest saliency of each 32 × 32 block. -/
def salGrid (w h : Nat) (s : List Nat) : List Nat :=
  (List.range (blocks32 w * blocks32 h)).map fun b =>
    let x := b % max 1 (blocks32 w)
    let y := b / max 1 (blocks32 w)
    ([(0, 0), (1, 0), (0, 1), (1, 1)].map fun k =>
      if 2 * x + k.1 < blocks16 w ∧ 2 * y + k.2 < blocks16 h then
        s.getD ((2 * y + k.2) * blocks16 w + 2 * x + k.1) 0 else 0).foldl max 0

/-- The payload of a picture record (R159). -/
def sidePayload (w h : Nat) (a : Analysis) : List Bool :=
  let n32 := blocks32 w * blocks32 h
  let zero : Int × Int := (0, 0)
  let q0 := if a.hasL0 then a.q0 else List.replicate n32 zero
  let sal := salGrid w h a.saliency
  ((List.range n32).flatMap fun b =>
    let v := q0.getD b zero
    let p := gridPred q0 (blocks32 w) b zero
    seBits (v.1 - p.1) ++ seBits (v.2 - p.2) ++
    (if a.hasL1 then
      let v1 := a.q1.getD b zero
      let p1 := gridPred a.q1 (blocks32 w) b zero
      seBits (v1.1 - p1.1) ++ seBits (v1.2 - p1.2)
     else [])) ++
  ((List.range (blocks16 w * blocks16 h)).flatMap fun b =>
    seBits ((a.complexity.getD b 0 : Int) - gridPred a.complexity (blocks16 w) b 128)) ++
  ((List.range n32).flatMap fun b => seBits ((sal.getD b 0 : Int) - gridPred sal (blocks32 w) b 0))

/-- A picture record (R158). -/
def sideRecord (w h : Nat) (ticks : Nat) (a : Analysis) (key seg : Bool) : List Byte :=
  let body := sidePayload w h a
  let raw := packBits (body.length + 1) body
  let pad := raw ++ List.replicate ((4 - raw.length % 4) % 4) 0
  leBytes 4 (16 + pad.length) ++ leBytes 4 ticks ++
  leBytes 1 (b2n key + 2 * b2n seg + 4 * b2n a.cut + 8 * b2n a.fade + 16 * b2n a.hasL1) ++ leBytes 1 a.s ++
  leBytes 1 a.m ++ leBytes 1 0 ++ leBytes 4 a.complexity.sum ++ pad

/-- What the header of a sidecar says of its source (R157). -/
structure SideInfo where
  lookahead : Nat
  segOnDt : Bool
  segMs : Nat
  rateNum : Nat
  rateDen : Nat
  deriving DecidableEq, Repr

/-- A whole sidecar (R157). -/
def sideBytes (k : SideInfo) (f : PicFormat) (c : Sidecar) : List Byte :=
  leBytes 4 0x43535844 ++ leBytes 2 1 ++ leBytes 2 64 ++ leBytes 4 c.index ++ leBytes 2 c.pics ++ leBytes 1 k.lookahead ++
  leBytes 1 (b2n k.segOnDt) ++ leBytes 2 f.width ++ leBytes 2 f.height ++ leBytes 4 k.rateNum ++ leBytes 2 k.rateDen ++
  leBytes 1 (f.depth + 16 * f.chroma) ++ leBytes 1 f.transfer ++ leBytes 4 (if k.segOnDt then k.segMs else 0) ++
  leBytes 12 (dt96 c.firstDt) ++ leBytes 4 (64 + c.body.length) ++ leBytes 4 (crc32 c.body) ++ leBytes 12 0 ++ c.body

/-! ### Reloading (R160, R161) -/

/-- ue(v) read from the front of a bit string: value and what is left; none when it overruns. `z` counts the zeros. -/
def readUe : List Bool → Nat → Option (Nat × List Bool)
  | [], _ => none
  | false :: r, z => readUe r (z + 1)
  | true :: r, z =>
    if r.length < z ∨ 32 < z then none
    else some ((r.take z).foldl (fun a b => 2 * a + b2n b) 1 - 1, r.drop z)

/-- se(v) read. -/
def readSe (l : List Bool) : Option (Int × List Bool) :=
  match readUe l 0 with
  | none => none
  | some (k, r) => some (if k % 2 = 1 then ((k + 1) / 2 : Nat) else -((k / 2 : Nat) : Int), r)

/-- `n` values of one difference each: `pred` gives the prediction from the values so far, `ok` the range. -/
def readGrid (cols : Nat) (start : Int) (ok : Int → Bool) : Nat → List Int → List Bool → Option (List Int × List Bool)
  | 0, acc, l => some (acc, l)
  | n + 1, acc, l =>
    match readSe l with
    | none => none
    | some (v, r) =>
      let x := v + gridPred acc cols acc.length start
      if ok x then readGrid cols start ok n (acc ++ [x]) r else none

/-- Whether a quarter-resolution vector lies in the search range. -/
def vecOk (v : Int × Int) : Bool :=
  decide (v.1.natAbs ≤ 64) && decide (v.2.natAbs ≤ 32)

/-- `n` blocks of motion, L0 and, when present, L1. -/
def readMotion (cols : Nat) (l1 : Bool) : Nat → List (Int × Int) → List (Int × Int) → List Bool →
    Option (List (Int × Int) × List (Int × Int) × List Bool)
  | 0, a, b, l => some (a, b, l)
  | n + 1, a, b, l =>
    let pa := gridPred a cols a.length (0, 0)
    let pb := gridPred b cols b.length (0, 0)
    match readSe l with
    | none => none
    | some (x, r1) => match readSe r1 with
      | none => none
      | some (y, r2) =>
        let v : Int × Int := (x + pa.1, y + pa.2)
        if !l1 then (if vecOk v then readMotion cols l1 n (a ++ [v]) b r2 else none)
        else match readSe r2 with
          | none => none
          | some (x1, r3) => match readSe r3 with
            | none => none
            | some (y1, r4) =>
              let v1 : Int × Int := (x1 + pb.1, y1 + pb.2)
              if vecOk v && vecOk v1 then readMotion cols l1 n (a ++ [v]) (b ++ [v1]) r4 else none

/-- Whether one of `n` picture records has a reserved bit set (R158, R161). -/
def reservedRecord : Nat → List Byte → Bool
  | 0, _ => false
  | n + 1, b => decide (32 ≤ hdrNum b 8 1) || hdrNum b 11 1 != 0 || reservedRecord n (b.drop (hdrNum b 0 4))

/-- One picture record read: DT in ticks from FIRST_DT, its analysis and the bytes it takes (R158-R160). -/
def readRecord (w h : Nat) (b : List Byte) : Option (Nat × Analysis × Nat) :=
  let len := hdrNum b 0 4
  let flags := hdrNum b 8 1
  if len < 16 ∨ len % 4 ≠ 0 ∨ b.length < len then none
  else
    let l := unpackBits ((b.take len).drop 16)
    let n32 := blocks32 w * blocks32 h
    let n16 := blocks16 w * blocks16 h
    match readMotion (blocks32 w) (bit flags 4) n32 [] [] l with
    | none => none
    | some (q0, q1, r1) =>
      match readGrid (blocks16 w) 128 (fun v => decide (0 ≤ v) && decide (v ≤ 255)) n16 [] r1 with
      | none => none
      | some (cx, r2) =>
        match readGrid (blocks32 w) 0 (fun v => decide (0 ≤ v) && decide (v ≤ 255)) n32 [] r2 with
        | none => none
        | some (sal, _) =>
          let up (q : List (Int × Int)) : List (Int × Int) := (List.range n16).map fun k =>
            let v := q.getD (k / max 1 (blocks16 w) / 2 * blocks32 w + k % max 1 (blocks16 w) / 2) (0, 0)
            (16 * v.1, 16 * v.2)
          let a : Analysis :=
            { s := hdrNum b 9 1, m := hdrNum b 10 1, cut := bit flags 2, fade := bit flags 3, key := bit flags 0,
              segStart := bit flags 1, segIndex := 0, hasL0 := true, hasL1 := bit flags 4, q0 := q0, q1 := q1,
              l0 := up q0, l1 := if bit flags 4 then up q1 else [], complexity := cx.map Int.toNat,
              saliency := (List.range n16).map fun k =>
                (sal.getD (k / max 1 (blocks16 w) / 2 * blocks32 w + k % max 1 (blocks16 w) / 2) 0).toNat,
              cost0 := List.replicate n16 0, cost1 := List.replicate n16 0, intra := List.replicate n16 0 }
          if hdrNum b 12 4 = a.complexity.sum then some (hdrNum b 4 4, a, len) else none

/-- The records of a sidecar's body. -/
def readRecords (w h : Nat) : Nat → List Byte → Option (List (Nat × Analysis))
  | 0, b => if b.isEmpty then some [] else none
  | n + 1, b => match readRecord w h b with
    | none => none
    | some (t, a, len) => match readRecords w h n (b.drop len) with
      | none => none
      | some l => some ((t, a) :: l)

/-- A sidecar checked against its PRODUCE and its group (R133, R161): picture DT and analysis of each picture, or status
and DETAIL. `b` holds the sidecar; `pics` is LENGTH of the PRODUCE. -/
def readSidecar (b : List Byte) (index pics : Nat) (g : Group) (format : Nat) : (List (Nat × Analysis)) ⊕ (Nat × Nat) :=
  let bad (k : Nat) : (List (Nat × Analysis)) ⊕ (Nat × Nat) := .inr (stSideMismatch, k)
  if hdrNum b 4 2 ≠ 1 then .inr (stVersion, 0)
  else if hdrNum b 8 4 ≠ index then bad 1
  else if hdrNum b 12 2 ≠ pics then bad 2
  else if hdrNum b 16 2 ≠ g.width ∨ hdrNum b 18 2 ≠ g.height ∨ hdrNum b 26 1 ≠ format ∨
      hdrNum b 20 4 * g.rateDen ≠ g.rateNum * hdrNum b 24 2 then bad 3
  else if crc32 (b.drop 64) ≠ hdrNum b 48 4 then bad 4
  else if hdrNum b 0 4 ≠ 0x43535844 ∨ hdrNum b 6 2 ≠ 64 ∨ 2 ≤ hdrNum b 15 1 ∨ hdrNum b 52 12 ≠ 0 ∨ reservedRecord pics (b.drop 64) then bad 6
  else if 2 < hdrNum b 27 1 ∨ !dt96Ok (hdrNum b 32 12) then bad 5
  else match readRecords g.width g.height pics (b.drop 64) with
    | none => bad 5
    | some l =>
      let first := ofDt96 (hdrNum b 32 12)
      let start := match l with
        | (_, a) :: _ => a.key && (!bit (hdrNum b 15 1) 0 || a.segStart)
        | [] => false
      if start then
        .inl (l.map fun x => (first + ceilDiv (x.1 * unitsPerSec) 90000, { x.2 with segIndex := index }))
      else bad 5

end Sys2Proof.Machine
end

