-- ==== Sys2Proof/Machine/RcOps.lean ====
section
/-! DEFINITION. Rate control (spec/09_rate_control.md): parameters, the HRD model, picture, region and row budgets,
exhaustion, and SET_RATE_CONTROL. -/

namespace Sys2Proof.Machine

/-! ### Logarithms and forecasts (R230, R233) -/

/-- log2(p / q) in 1/256, rounded half away from zero (R233). -/
def log2Ratio (p q : Nat) : Int :=
  let up (a b : Nat) : Nat := (Nat.log2 (a ^ 512 / b ^ 512) + 1) / 2
  if q ≤ p then (up (max p 1) (max q 1) : Nat) else -((up (max q 1) (max p 1) : Nat) : Int)

/-- The forecast 2^(COMPLEXITY / 16) of a block in 1/256, rounded half up: the largest y with
(2y − 1)^16 ≤ 2^(144 + COMPLEXITY) (R230). -/
def forecast (c : Nat) : Nat :=
  (((List.range 26).foldl (fun r i =>
    let x := r + 2 ^ (25 - i)
    if x ^ 16 ≤ 2 ^ (144 + c) then x else r) 0) + 1) / 2

/-- The sum of the forecasts of complexities. -/
def forecastSum (l : List Nat) : Nat := (l.map forecast).sum

/-! ### Shapes of an encode picture (R165-R167) -/

/-- Block rows of region `i` of `n`. -/
def regionRows (codec h n i : Nat) : Nat :=
  if codec = 0 then
    let x := regionSpan (blocksOf 0 h) n i
    x.2 - x.1
  else blocksOf codec h

/-- Blocks in each row of region `i`. -/
def regionCols (codec w n i : Nat) : Nat :=
  if codec = 0 then blocksOf 0 w
  else
    let x := regionSpan (blocksOf codec w) n i
    x.2 - x.1

/-- The rung analysis entries in row `r` of region `i`, by index (R230: each lies in exactly one row). -/
def rowEntries (codec w h n i r : Nat) : List Nat :=
  let ew := blocks16 w
  let eh := blocks16 h
  let k := blockSide codec / 16
  let x := if codec = 0 then (0, ew) else regionSpan (blocksOf codec w) n i
  let y := if codec = 0 then (regionSpan (blocksOf 0 h) n i).1 + r else r
  (List.range k).flatMap fun dy => (List.range (min (x.2 * k) ew - x.1 * k)).filterMap fun dx =>
    if y * k + dy < eh then some ((y * k + dy) * ew + x.1 * k + dx) else none

/-- Skip and DC reserves of a block (R241). -/
def skipReserve (codec : Nat) : Nat := [2, 4, 8, 8].getD codec 8
def dcReserve (codec : Nat) : Nat := [32, 48, 64, 128].getD codec 128

/-- Blocks of a picture. -/
def picBlocks (codec w h : Nat) : Nat := blocksOf codec w * blocksOf codec h

/-- The picture floor (R241). -/
def pictureFloor (codec w h regions : Nat) : Nat := picBlocks codec w h * dcReserve codec + 8192 + 256 * regions

/-! ### Parameters (R224-R228) -/

/-- The parameters of a SET_RATE_CONTROL descriptor. -/
def rcParams (x : Desc) : RcParams :=
  { mode := Desc.field x 10 1 0, gainSel := Desc.field x 10 3 2, aq := Desc.field x 11 3 0, minQ := Desc.byte x 12,
    maxQ := Desc.byte x 13, qKey := Desc.byte x 14, qP := Desc.byte x 15, qB := Desc.byte x 16,
    keyWeight := Desc.byte x 17, bitrate := Desc.le x 20 4, maxBitrate := Desc.le x 24 4, buffer := Desc.le x 28 4,
    initDelay := Desc.le x 32 4 }

def RcParams.cqp (p : RcParams) : Bool := p.mode == 0
def RcParams.cbr (p : RcParams) : Bool := p.mode == 1
/-- CBR and VBR have a bit budget (R221). -/
def RcParams.budgeted (p : RcParams) : Bool := p.mode == 1 || p.mode == 2

/-- Reserved bits, and fields that the mode does not use (R224, R225). -/
def rcFormat (x : Desc) : Bool :=
  let p := rcParams x
  Desc.field x 10 7 4 == 0 && Desc.field x 11 7 4 == 0 && zeroAt x 18 2 && zeroAt x 36 28 && ctxField x &&
  (p.budgeted || (p.gainSel == 0 && p.keyWeight == 0 && p.bitrate == 0)) &&
  (!p.cqp || (p.aq == 0 && p.minQ == 0 && p.maxQ == 0 && p.buffer == 0 && p.initDelay == 0)) &&
  (decide (2 ≤ p.mode) || p.maxBitrate == 0)

/-- R_hrd and BUFFER (R228). -/
def Ctx.hrd (x : Ctx) (p : RcParams) : Nat × Nat :=
  if p.cqp then ((findLevel x.codec x.level).map fun l => (l.brHigh, l.cpbHigh)).getD (0, 0)
  else (if p.cbr then p.bitrate else p.maxBitrate, p.buffer)

/-- The initial fullness F (R228). -/
def Ctx.initialF (x : Ctx) (p : RcParams) : Nat :=
  if p.cqp then (x.hrd p).2 else (x.hrd p).1 * p.initDelay / 1000000

/-- floor(rate / fps): bits of one picture period. -/
def Ctx.perPicture (x : Ctx) (rate : Nat) : Nat := rate * x.rateDen / max 1 x.rateNum

/-- What a B layer adds to QIDX_B, by layer less one (R224). -/
def layerStep (codec : Nat) : Nat := if codec = 2 then 4 else 1

/-- QIDX of a picture type in the parameters: 0 key, 1 P, 2 to 4 B layers 1 to 3 (R224). -/
def RcParams.typeQ (p : RcParams) (codec t : Nat) : Nat :=
  if t = 0 then p.qKey else if t = 1 then p.qP else p.qB + (t - 2) * layerStep codec

/-- The lowest cause of a refusal (R226); 0 for none. -/
def Ctx.rcRefusal (x : Ctx) (p : RcParams) : Nat :=
  let q := qMax x.codec x.depth
  let vbrQual := decide (2 ≤ p.mode)
  let hrd := x.hrd p
  let f := x.initialF p
  let top := (findLevel x.codec x.level).map fun l => (l.brHigh, l.cpbHigh)
  let floor := pictureFloor x.codec x.width x.height x.regions
  let types := [p.qKey, p.qP, p.qB]
  let zero := (p.budgeted && p.bitrate == 0) || (vbrQual && p.maxBitrate == 0) || (!p.cqp && p.buffer == 0)
  let range := decide (p.maxQ < p.minQ) || decide (q < p.maxQ) || types.any (fun v => decide (q < v)) ||
    (p.budgeted && types.any fun v => decide (v < p.minQ) || decide (p.maxQ < v)) ||
    (!p.budgeted && decide (q < p.typeQ x.codec 4))
  let order := (p.mode == 2 && decide (p.maxBitrate < p.bitrate)) || decide (hrd.2 < f)
  let level := top.any fun l => decide (l.1 < hrd.1) || decide (l.2 < hrd.2)
  let low := decide (x.perPicture hrd.1 < floor) || decide (f < floor)
  let weight := p.budgeted && (decide (p.keyWeight < 4) || decide (64 < p.keyWeight))
  let value := (p.budgeted && decide (1 ≤ p.bitrate) && decide (p.bitrate < 1000)) ||
    (vbrQual && decide (1 ≤ p.maxBitrate) && decide (p.maxBitrate < 1000)) ||
    (!p.cqp && (decide (p.initDelay < 1000) || decide (10000000 < p.initDelay)))
  if zero then 1 else if range then 2 else if order then 3 else if level then 4 else if low then 5
  else if weight then 6 else if value then 7 else 0

/-- The starting Q_t of each type, with 8 fractional bits (R233). -/
def RcParams.startQ (p : RcParams) (codec : Nat) : List Int :=
  (List.range 5).map fun t => ((256 * p.typeQ codec t : Nat) : Int)

/-- The HRD set of parameters (R227). -/
def RcParams.hrdSet (p : RcParams) : List Nat :=
  [p.mode, p.maxBitrate, p.buffer, p.initDelay, if p.cbr then p.bitrate else 0]

/-- New parameters in a mode that stays, with the HRD set in force (R227). -/
def RcParams.keepHrd (p old : RcParams) : RcParams :=
  { p with maxBitrate := old.maxBitrate, buffer := old.buffer, initDelay := old.initDelay,
           bitrate := if p.cbr then old.bitrate else p.bitrate }

/-- Rate control of a context that has just got its first parameters (R108, R227). -/
def rcFirst (codec : Nat) (p : RcParams) : RcState :=
  { cur := p, next := none, nextKey := none, debt := 0, window := [], qt := p.startQ codec, full := 0,
    started := false, fresh := false }

/-- A picture boundary: parameters that waited take effect, the HRD set or a change of mode at a key picture; a new HRD
set restarts the fullness (R227, R228). -/
def Ctx.rcBoundary (x : Ctx) (s : RcState) (key : Bool) : RcState :=
  let s1 := match s.next with
    | none => s
    | some p =>
      if p.mode ≠ s.cur.mode then { s with next := none, nextKey := some p }
      else
        let c := p.keepHrd s.cur
        { s with next := none, cur := c, nextKey := if p.hrdSet = s.cur.hrdSet then none else some p }
  let s2 := match (if key then s1.nextKey else none) with
    | none => s1
    | some p =>
      let moved := p.mode != s1.cur.mode
      let y := { s1 with cur := p, nextKey := none, started := s1.started && p.hrdSet == s1.cur.hrdSet }
      if moved then { y with debt := 0, window := [], qt := p.startQ x.codec } else y
  let s3 := if s2.fresh then
      { s2 with debt := 0, window := [], qt := s2.cur.startQ x.codec, started := false, fresh := false }
    else s2
  if s3.started then s3 else { s3 with full := (x.initialF s3.cur : Nat), started := true }

/-- The start of a PRODUCE: its first picture, a key picture, starts with the parameters that then take effect, no debt, an
empty window, starting models and the initial fullness (R227, R235). -/
def Ctx.rcProduce (x : Ctx) : Ctx := { x with rc := x.rc.map fun s => { s with fresh := true } }

/-! ### Pictures (R230-R236) -/

/-- Weight of a picture type in sixteenths (R231). -/
def RcParams.weight (p : RcParams) (t : Nat) : Nat :=
  if t = 0 then 4 * p.keyWeight else [16, 16, 11, 8, 6].getD t 6

/-- T0 (R230). -/
def Ctx.tZero (x : Ctx) (p : RcParams) : Nat := x.perPicture p.bitrate

/-- A region with its budget and share, before its first row (R236, R237). -/
def Ctx.newRegion (x : Ctx) (s : RcState) (j : Job) (budget total : Nat) (i : Nat) : Region :=
  let rows := regionRows x.codec x.height x.regions i
  let cols := regionCols x.codec x.width x.regions i
  let xs := (List.range rows).map fun r =>
    forecastSum ((rowEntries x.codec x.width x.height x.regions i r).map fun k => (j.entries.map RungEntry.complexity).getD k 0)
  let part := xs.sum
  let floor := picBlocks x.codec x.width x.height * dcReserve x.codec + 8192 + 256 * x.regions
  let share : Int := ((rows * cols * dcReserve x.codec + 256 : Nat) : Int) + (s.full - floor) * part / max 1 total
  { idx := i, pair := none, xs := xs, blocks := List.replicate rows cols, ests := [], acts := [], bounds := [],
    us := [], ps := [], bs := [], budget := budget * part / max 1 total, share := share, q := j.q0, qSum := 0, qBlocks := 0,
    stage := 0, ended := false, recs := [], motion := [] }

/-! ### Rows (R237-R241) -/

/-- Rows of a region that are reported before row `r` (R237). -/
def reportedRows (r : Nat) : Nat := r - 3

/-- S_r: true bits of reported rows and estimates of the three before (R237). -/
def Region.spent (g : Region) (r : Nat) : Nat :=
  (g.acts.take (reportedRows r)).sum + ((g.ests.take r).drop (reportedRows r)).sum

/-- What a region does before row `r` in a mode with a budget: stage 1, or the row's b and QIDX (R237-R239). -/
def Region.before (g : Region) (p : RcParams) (codec qmax : Nat) (j : Job) (r : Nat) : Region :=
  let rem : Int := (g.budget : Int) - g.spent r
  if g.stage ≠ 0 then { g with q := qmax }
  else if rem ≤ 0 ∧ r + 1 < g.xs.length then { g with stage := 1, q := qmax }
  else
    let xr := g.xs.getD r 0
    let b : Int := rem * xr / max 1 (g.xs.drop r).sum
    let pr := max 1 (g.budget * xr / max 1 g.xs.sum)
    let n := reportedRows r
    let q2 : Int := qStep2 codec
    let term := q2 * log2Ratio (max pr 1) (max b.toNat 1)
    let fb := if n = 0 then 0 else q2 * log2Ratio (max (g.acts.take n).sum 1) (max (g.bs.take n).sum 1)
    let raw := roundDiv (j.q0 * 4096 + term * 16 + fb * j.gain) 4096
    let lim (v lo hi : Int) : Int := max lo (min hi v)
    let q := if r = 0 then j.q0
      else lim (lim raw (g.q - j.step) (g.q + j.step)) p.minQ p.maxQ
    { g with bs := g.bs ++ [max 1 b.toNat], ps := g.ps ++ [pr], q := q }

/-- The offset of a 16 × 16 block (R238). -/
def blockOffset (aq c cMean sal salMean : Nat) : Int :=
  let v : Int := 4 * ((c : Int) - cMean) - ((sal : Int) - salMean)
  max (-8) (min 8 (roundDiv ((aq : Int) * v) 128))

/-- The QIDX of each 16 × 16 block of a row at row value `q` (R238, R239). -/
def Ctx.rowQs (x : Ctx) (p : RcParams) (j : Job) (i r : Nat) (q : Int) (exhausted : Bool) : List Int :=
  let l := rowEntries x.codec x.width x.height x.regions i r
  if p.cqp || exhausted then l.map fun _ => q
  else
    let n := max 1 j.entries.length
    let cm := (j.entries.map RungEntry.complexity).sum / n
    let sm := (j.entries.map RungEntry.saliency).sum / n
    let off (k : Nat) : Int := match j.entries[k]? with
      | some e => blockOffset p.aq e.complexity cm e.saliency sm
      | none => 0
    let ew := blocks16 x.width
    let own (k : Nat) : Int :=
      if x.codec = 2 then
        let peers := (l.filter fun m => m % ew / 4 == k % ew / 4).map fun m => 4 * off m
        roundDiv peers.sum (max 1 peers.length)
      else off k
    l.map fun k => max (p.minQ : Int) (min (p.maxQ : Int) (q + own k))

/-- The bound U of a block, from the bins of its records: context-coded bins or symbols, and bypass bins or literal bits
(R240). -/
def blockBound (codec : Nat) (bins : Nat × Nat) : Nat := (if codec = 2 then 16 else 6) * bins.1 + bins.2 + 16

/-- Reserve of a block in stage 2: at DC in a key picture, as skip in another (R240, R241). -/
def reserveOf (codec : Nat) (key : Bool) : Nat := if key then dcReserve codec else skipReserve codec

/-- The worst case of a region before a block of bound `u`: the reported rows, the bounds of the blocks coded since, `u`, and the
reserve of every block after it (R240). -/
def Region.worst (g : Region) (reserve u : Nat) : Nat :=
  let r := g.bounds.length
  let n := reportedRows r
  (g.acts.take n).sum + (g.bounds.drop n).sum + g.us.sum + u +
    reserve * (g.blocks.getD r 0 - (g.us.length + 1) + (g.blocks.drop (r + 1)).sum)

/-- A block of bound `u` begins: stage 2 from it on where the worst case exceeds the share, and then the block is bound by its
reserve (R240). -/
def Region.blockStart (g : Region) (reserve u : Nat) : Region :=
  let stage := if g.share < (g.worst reserve u : Int) then 2 else g.stage
  { g with stage := stage, us := g.us ++ [if stage = 2 then reserve else u] }

/-- The row that runs has no further block. -/
def Region.rowEnd (g : Region) : Region := { g with bounds := g.bounds ++ [g.us.sum], us := [] }

/-- Row `r` of a region begins: stage 1 or its QIDX, and its blocks count for q_avg (R233, R237-R239). -/
def Ctx.rowStart (x : Ctx) (p : RcParams) (j : Job) (g : Region) (r : Nat) : Region :=
  let g1 := if p.budgeted ∧ 0 < r then g.before p x.codec (qMax x.codec x.depth) j r else g
  let qs := x.rowQs p j g.idx r (if g1.stage = 0 then g1.q else qMax x.codec x.depth) (g1.stage != 0)
  { g1 with qSum := g1.qSum + qs.sum, qBlocks := g1.qBlocks + qs.length }

/-- The QIDX of the 16 × 16 block with analysis entry `k` in row `r` of a region: QMAX in either stage of exhaustion (R238-R240). -/
def Ctx.blockQ (x : Ctx) (p : RcParams) (j : Job) (g : Region) (r k : Nat) : Int :=
  if g.stage ≠ 0 then (qMax x.codec x.depth : Nat)
  else
    let l := rowEntries x.codec x.width x.height x.regions g.idx r
    (((l.zip (x.rowQs p j g.idx r g.q false)).find? fun e => e.1 == k).map Prod.snd).getD g.q

/-- A picture starts: boundary, budget, starting QIDX and regions (R227-R236). `gain` and `step` are the gain set of
RC_GAIN. -/
def Ctx.rcStart (x : Ctx) (s0 : RcState) (j : Job) (gains : Nat) : RcState × Job :=
  let s := x.rcBoundary s0 j.key
  let p := s.cur
  let total := forecastSum (j.entries.map RungEntry.complexity)
  let g := if x.group.isSome then j.gForecast else total
  let wg := p.weight j.ptype * g
  let start := p.startQ x.codec
  let qt := if j.cut then (s.qt.take 1) ++ start.drop 1 else s.qt
  let win := if p.budgeted then (wg :: (if j.cut then [] else s.window)).take 32 else s.window
  let t0 := x.tZero p
  let pre := max (t0 / 8) (min (8 * t0) (t0 * wg * win.length / max 1 win.sum))
  let h := s.full
  let budget := min (max ((t0 / 8 : Nat) : Int) ((pre : Int) - ceilDiv s.debt 8)) (3 * h / 4)
  let b := budget.toNat
  let lim (v : Int) : Int := max (p.minQ : Int) (min (p.maxQ : Int) v)
  let q0 := if p.budgeted then
      lim (roundDiv (qt.getD j.ptype 0 + (qStep2 x.codec : Int) * log2Ratio (max total 1) (256 * max b 1)) 256)
    else (p.typeQ x.codec j.ptype : Int)
  let gs := gains / 2 ^ (8 * p.gainSel) % 256
  let j1 := { j with bPre := pre, budget := b, hrd := h, q0 := q0, gain := gs / 8, step := gs % 8 * layerStep x.codec }
  let regs := (List.range x.regions).map fun i =>
    let r := x.newRegion s j1 b total i
    if p.budgeted then r.before p x.codec (qMax x.codec x.depth) j1 0 else r
  ({ s with window := win, qt := qt }, { j1 with regions := regs })

/-- What a finished picture leaves: rate-control state, filler bytes, and bits [15:3] of DETAIL (R228, R232, R233,
R242). `bits` is A_n without filler. -/
def Ctx.rcEnd (x : Ctx) (s : RcState) (j : Job) (bits : Nat) : RcState × Nat × Nat :=
  let p := s.cur
  let hrd := x.hrd p
  let next := s.full - bits + (x.perPicture hrd.1 : Nat)
  let filler := if p.cbr ∧ (hrd.2 : Int) < next then ceilDiv (next - hrd.2).toNat 8 else 0
  let full := if p.cbr then next - (8 * filler : Nat) else min next (hrd.2 : Int)
  let stage := (j.regions.map Region.stage).foldl max 0
  let total := forecastSum (j.entries.map RungEntry.complexity)
  let qSum := (j.regions.map Region.qSum).sum
  let qN := max 1 (j.regions.map Region.qBlocks).sum
  let old := s.qt.getD j.ptype 0
  -- (Q_t + 3 × Q_meas) / 4 with 8 fractional bits, Q_meas = q_avg + Q2 × log2(A_n / X)
  let meas := qSum * 256 + (qStep2 x.codec : Int) * log2Ratio (256 * max bits 1) (max total 1) * qN
  let upd := p.budgeted && !j.fade && stage == 0
  let qt := if upd then s.qt.set j.ptype (roundDiv (old * qN + 3 * meas) (4 * qN)) else s.qt
  let debt := if p.budgeted then (max 0 ((s.debt : Int) + bits - j.bPre)).toNat else s.debt
  let pct := if p.budgeted ∧ j.budget < bits then min 255 ((bits - j.budget) * 100 / max 1 j.budget) else 0
  ({ s with full := full, debt := debt, qt := qt }, filler, 256 * pct + 32 * b2n (decide (0 < filler)) + 8 * stage)

/-! ### Meaning -/

/-- The detail of an RC_REFUSED that a SET_RATE_CONTROL earns; 0 for none (R227). -/
def Dev.rateRefusal (e : Dev) (op : Op) : Nat :=
  let x := e.ctx (ctxNum op.desc)
  if x.any fun y => y.kind == 1 then (x.map fun y => y.rcRefusal (rcParams op.desc)).getD 0 else 0

/-- What refuses a SET_RATE_CONTROL (R108, R224-R227). -/
def Dev.rateStatus (e : Dev) (op : Op) : Nat :=
  let c := ctxNum op.desc
  worst [e.jobGate op true false false (rcFormat op.desc), when_ (!e.ownsCtx op c) stProt,
    when_ (!(e.ctx c).any fun y => y.kind == 1 && (y.state == 1 || y.state == 2) && !e.groupFailed y) stBadState,
    when_ (e.rateRefusal op != 0) stRcRefused]

/-- A SET_RATE_CONTROL acts (R108, R224-R227). -/
def Dev.rateRun (e : Dev) (op : Op) : Dev × Result :=
  let c := ctxNum op.desc
  let p := rcParams op.desc
  let st := e.rateStatus op
  match e.ctx c with
  | none => (e, resOf st)
  | some y =>
    if st ≠ 0 then (e, ⟨st, 0, if st = stRcRefused then e.rateRefusal op else 0, 0⟩)
    else
      let rc := match y.rc with
        | none => rcFirst y.codec p
        | some r => { r with next := some p }
      (e.setCtx c { y with rc := some rc, state := 2 }, resOf stOk)

/-- SET_RATE_CONTROL (R108, R224-R227). -/
def execSetRateControl (o : RingOp) (s : State) : Host.Outcome State Fault Refusal :=
  s.act fun d => d.runOp o ctxKey fun e op => e.rateRun op

end Sys2Proof.Machine
end

