-- ==== Sys2Proof/Machine/SrcOps.lean ====
section
/-! DEFINITION. Source pictures: PICTURE, PICTURE_ANALYSIS, RUNG_SCALE and PRODUCE; key pictures, sidecars, mini-GOPs and
the pictures that members are given (spec/05_coding_contexts.md R121-R133, spec/06_source_analysis.md,
spec/07_pixel_engines.md R174, R175, R542). -/

namespace Sys2Proof.Machine

/-! ### Media time -/

/-- Ticks of a picture DT from an origin (R47), without the wrap. -/
def ticksOf (dt : Nat) (origin : Int) : Int := ((dt : Int) - origin) * 90000 / (unitsPerSec : Int)

/-- The 27 MHz media time of a DT value (R47). -/
def pcrOf (dt : Nat) (origin : Int) : Nat :=
  (((dt : Int) - origin) * 27000000 / (unitsPerSec : Int) % ((2 ^ 33 * 300 : Nat) : Int)).toNat

/-- The earliest DT whose ticks are `p` (R140). -/
def dtOfTicks (origin p : Int) : Nat := (origin - (-p * unitsPerSec) / 90000).toNat

/-- A picture period in ticks (R542) and in DT. -/
def Ctx.periodTicks (x : Ctx) : Nat := 90000 * x.rateDen / max 1 x.rateNum
def Ctx.periodDt (x : Ctx) : Nat := unitsPerSec * x.rateDen / max 1 x.rateNum

/-! ### Mini-GOPs (R175) -/

/-- The pictures between two anchors in dyadic order, the middle one first, then what lies before it, then what lies
after it; `layer` is that of the middle one. -/
def dyadic : Nat → Nat → List Job → List Job
  | 0, _, l => l
  | n + 1, layer, l =>
    let h := l.length / 2
    match l.drop h with
    | [] => []
    | m :: after => { m with ptype := min 4 (1 + layer) } :: (dyadic n (layer + 1) (l.take h) ++ dyadic n (layer + 1) after)

/-- A full mini-GOP in coding order: its last picture first. -/
def gopOrder (l : List Job) : List Job :=
  match l.getLast? with
  | none => []
  | some j => { j with ptype := 1 } :: dyadic 4 1 l.dropLast

/-- A mini-GOP that has ended: M is halved as often as the pictures left demand. -/
def gopJobs : Nat → Nat → List Job → List Job
  | 0, _, l => l
  | n + 1, m, l =>
    if l.isEmpty then []
    else if m ≤ l.length then gopOrder (l.take m) ++ gopJobs n m (l.drop m)
    else gopJobs n (m / 2) l

/-- LOOKAHEAD of a context's group; 0 for a standalone context (R175). -/
def Dev.lookahead (d : Dev) (x : Ctx) : Nat := ((x.group.bind d.group).map Group.lookahead).getD 0

/-- M of a context (R175). -/
def Dev.gopLength (d : Dev) (x : Ctx) : Nat := miniGop x.preset (d.lookahead x)

/-- Ready pictures join the end of their context's tile's list, in coding order. -/
def Dev.addJobs (d : Dev) (t : Nat) (l : List Job) : Dev :=
  let y := d.tile t
  d.setTile t { y with jobs := y.jobs ++ l }

/-- A context's open mini-GOP ends; with `last`, its last picture in coding order ends a PRODUCE. -/
def Dev.flushGop (d : Dev) (c : Nat) (last : Bool) : Dev :=
  match d.ctx c with
  | none => d
  | some x =>
    let l := gopJobs 16 (d.gopLength x) x.gop
    let l1 := match l.getLast? with
      | some j => if last then l.dropLast ++ [{ j with last := true }] else l
      | none => l
    (d.setCtx c { x with gop := [] }).addJobs x.tile l1

/-- A context is given a source picture with its analysis (R147, R151, R175). `sw` and `sh` are the size that the
analysis describes; `produce` is the DEADLINE of its PRODUCE, and `last` says that the PRODUCE has no further picture. -/
def Dev.giveCtx (d : Dev) (c : Nat) (p : SrcPic) (a : Analysis) (sw sh : Nat) (produce : Option Nat) (last : Bool) :
    Dev :=
  match d.ctx c with
  | none => d
  | some x =>
    let pts := ticksOf p.dt x.origin
    let deadline := match produce with
      | some t => some t
      | none => if x.cls = 0 then some (p.dt + d.lookahead x * x.periodDt + x.latencyUs * unitsPerUs) else none
    let j : Job :=
      { ctx := c, n := p.n, ptype := if a.key then 0 else 1, key := a.key, segStart := a.segStart, segIndex := a.segIndex,
        cut := a.cut, fade := a.fade, hasL0 := a.hasL0, hasL1 := a.hasL1, pts := pts, deadline := deadline,
        produce := produce, last := false, gForecast := forecastSum a.complexity,
        entries := rungEntries a sw sh x.width x.height, regions := [], seams := [], running := false, list0 := [],
        list1 := [], poisonRef := false, bPre := 0, budget := 0, hrd := 0, q0 := 0, gain := 0, step := 0 }
    let first := x.auCount == 0 && x.ptsList.isEmpty
    let y := { x with joining := false, firstPts := if first then pts else x.firstPts, ptsList := x.ptsList ++ [pts],
                      show_ := if x.codec = 2 then x.show_ ++ [p.n] else x.show_ }
    let d1 := d.setCtx c y
    if a.key then
      let d2 := d1.flushGop c false
      d2.addJobs x.tile [{ j with last := last }]
    else
      let d2 := d1.setCtx c { y with gop := y.gop ++ [j] }
      if last ∨ d.gopLength x ≤ y.gop.length + 1 then d2.flushGop c last else d2

/-! ### Sidecars (R155, R156) -/

/-- A closed sidecar of a context: at most 4 are held, and the oldest is lost when one more closes. -/
def Dev.sidePush (d : Dev) (c : Nat) (au : AccUnit) : Dev :=
  match d.ctx c with
  | none => d
  | some x =>
    let l := x.sides ++ [au]
    let d1 := if 4 < l.length then d.setEvent (Reg.ANA_EVENTS x.tile) 0 else d
    (d1.setCtx c { x with sides := if 4 < l.length then l.drop 1 else l }).auServe c (x.getAus.length + 1)

/-- The access unit that carries a closed sidecar. -/
def sideAu (k : SideInfo) (f : PicFormat) (origin : Int) (sc : Sidecar) : AccUnit :=
  { data := sideBytes k f sc, pts := ticksOf sc.firstDt origin, dts := ticksOf sc.firstDt origin, dur := 0, status := stOk,
    detail := 0, segStart := false, segIndex := sc.index, key := false, stage := 0, late := false, produced := none,
    ends := false, mark := false, finishes := none, order := 0, own := true }

/-- The open sidecar, if it holds a picture, closes for context `c`. -/
def Dev.sideClose (d : Dev) (c : Nat) (k : SideInfo) (f : Option PicFormat) (origin : Int) (sc : Option Sidecar) : Dev :=
  match sc, f with
  | some x, some y => if x.pics = 0 then d else d.sidePush c (sideAu k y origin x)
  | _, _ => d

/-- A picture's record joins the sidecar. Every first record is KEY, and with `mark` SEG_START: one that a limit opened (R155),
and every one with SEG_ON_DT=1 (R158). PTS_DELTA is the nearest number of ticks, so that it brings back the picture's DT, where
R158 names no rounding (DESIGN CHOICE, log entry 76). -/
def Sidecar.add (sc : Sidecar) (f : PicFormat) (p : SrcPic) (a : Analysis) (mark : Bool) : Sidecar :=
  let first := sc.pics == 0
  let start := if first then p.dt else sc.firstDt
  let ticks := (2 * (p.dt - start) * 90000 + unitsPerSec) / (2 * unitsPerSec)
  { sc with firstDt := start, pics := sc.pics + 1,
            body := sc.body ++ sideRecord f.width f.height ticks a (a.key || first) (a.segStart || (first && mark)) }

/-! ### Sources -/

/-- The source pictures of a group or an analyse context. -/
def Dev.source (d : Dev) : SrcRef → Option Source
  | .group g => (d.group g).map Group.src
  | .ctx c => (d.ctx c).map Ctx.src

def Dev.setSource (d : Dev) (r : SrcRef) (x : Source) : Dev :=
  match r with
  | .group g => match d.group g with
    | some y => d.setGroup g { y with src := x }
    | none => d
  | .ctx c => match d.ctx c with
    | some y => d.setCtx c { y with src := x }
    | none => d

/-- The tile whose analysis registers a source uses. -/
def Dev.sourceTile (d : Dev) : SrcRef → Nat
  | .group g => ((d.group g).map Group.tile).getD 0
  | .ctx c => ((d.ctx c).map Ctx.tile).getD 0

/-- The media-time origin of a source (R141). -/
def Dev.sourceOrigin (d : Dev) : SrcRef → Int
  | .group g => ((d.group g).bind Group.origin).getD 0
  | .ctx c => ((d.ctx c).map Ctx.origin).getD 0

/-- What decides for a source; an analyse or standalone context has no lookahead and no segments (R174). -/
def Dev.anaParams (d : Dev) (r : SrcRef) : AnaParams :=
  let k := d.reg (Reg.ANA_CTRL (d.sourceTile r))
  match r with
  | .group g => match d.group g with
    | some y => ⟨y.lookahead, y.segOnDt, y.segMs, k, true⟩
    | none => ⟨0, false, 0, k, false⟩
  | .ctx _ => ⟨0, false, 0, k, false⟩

/-- Header fields of a source's sidecars, and the context that owns them; none where none is saved (R155). -/
def Dev.sideOwner (d : Dev) : SrcRef → Option (Nat × SideInfo)
  | .group g => match d.group g with
    | some y => if y.saveSide then y.srcCtx.map fun c => (c, ⟨y.lookahead, y.segOnDt, y.segMs, y.rateNum, y.rateDen⟩)
      else none
    | none => none
  | .ctx c => match d.ctx c with
    | some x => if x.kind = 2 then some (c, ⟨0, false, 0, x.rateNum, x.rateDen⟩) else none
    | none => none

/-- The open sidecar of a source closes (R155). -/
def Dev.sourceClose (d : Dev) (r : SrcRef) : Dev :=
  match d.source r, d.sideOwner r with
  | some x, some (c, k) =>
    (d.setSource r { x with side := none }).sideClose c k x.fmt (d.sourceOrigin r) x.side
  | _, _ => d

/-- A picture whose decisions are final goes into the sidecar: the one it starts, or the one that is open (R155). -/
def Dev.sideTake (d : Dev) (r : SrcRef) (p : SrcPic) : Dev :=
  match d.sideOwner r, p.analysis with
  | some (_, k), some a =>
    let isCtx := match r with
      | .ctx _ => true
      | .group _ => false
    let starts := match d.source r with
      | some x => if isCtx then p.force || x.sideCount == 0 else a.segStart
      | none => false
    let d1 := if starts then d.sourceClose r else d
    match d1.source r with
    | none => d1
    | some x =>
      -- one that the limit opened and no picture has joined lends its index to the one that starts
      let fresh := ((d.source r).bind Source.side).filter fun y => y.pics == 0
      let index := match fresh with
        | some y => y.index
        | none => x.sideCount
      let sc := if starts then some ⟨if isCtx then index else a.segIndex, p.dt, 0, []⟩ else x.side
      match sc with
      | none => d1
      | some y =>
        let z := y.add p.fmt p a (k.segOnDt || !starts)
        let n := if starts && fresh.isNone then x.sideCount + 1 else x.sideCount
        if 14400 ≤ z.pics then
          let d2 := (d1.setSource r { x with side := some z, sideCount := n }).sourceClose r
          match d2.source r with
          | none => d2
          | some w => d2.setSource r { w with side := some ⟨(y.index + 1) % 2 ^ 32, 0, 0, []⟩, sideCount := n + 1 }
        else
          let d2 := d1.setSource r { x with side := some z, sideCount := n }
          if p.closes then d2.sourceClose r else d2
  | _, _ => d

/-! ### Giving pictures to the members of a group (R122, R123, R147) -/

/-- Members that take a picture: ACTIVE, and past or at their first key picture. -/
def Dev.takers (d : Dev) (x : Group) (key : Bool) : List Nat :=
  x.members.filter fun m => (d.ctx m).any fun y => y.state == 2 && (!y.joining || key)

/-- The members of a group are given a picture. -/
def Dev.giveGroup (d : Dev) (g : Nat) (p : SrcPic) (a : Analysis) : Dev :=
  match d.group g with
  | none => d
  | some x =>
    let l := d.takers x a.key
    let src := { x.src with pics := x.src.pics.map fun q => if q.n = p.n then { q with given := true, waiting := l } else q }
    l.foldl (fun e m => e.giveCtx m p a p.fmt.width p.fmt.height none false) (d.setGroup g { x with src := src })

/-- Whether a picture may be given: final, and LOOKAHEAD further pictures are analysed or none follows (R147). -/
def Source.ripe (s : Source) (la : Nat) (p : SrcPic) : Bool :=
  p.final && !p.given &&
    ((s.pics.any fun q => q.analysis.isSome && decide (p.n + la ≤ q.n)) ||
      (s.ended && s.pics.all fun q => q.analysis.isSome))

/-- A group gives every picture that is ripe, in order; what no member takes leaves it. -/
def Dev.giveAll (d : Dev) (g : Nat) : Dev :=
  match d.group g with
  | none => d
  | some x =>
    let d1 := (x.src.pics.filter (x.src.ripe x.lookahead)).foldl (fun e p => match p.analysis with
      | some a => e.giveGroup g p a
      | none => e) d
    let d2 := if x.src.ended && (d1.source (.group g)).any fun s => s.pics.all SrcPic.given then
        x.members.foldl (fun e m => e.flushGop m false) d1
      else d1
    d2.releasePics g

/-- Members that lag by more than LOOKAHEAD + 32 pictures fail (R123). -/
def Dev.failLag (d : Dev) (g : Nat) : Dev :=
  match d.group g with
  | none => d
  | some x => x.members.foldl (fun e m =>
      let behind := (x.src.pics.filter fun p => if p.given then p.waiting.contains m else true).length
      if (d.ctx m).any (fun y => y.state == 2 && !y.joining) && decide (x.lookahead + 32 < behind) then e.ctxFail m 3 1 none
      else e) d

/-! ### Analysis (R142-R147) -/

/-- Decisions that can be made are made: key pictures of the fourth cause are counted, final pictures go into the sidecar
and, of a group, to its members. -/
def Dev.decideSource (d : Dev) (r : SrcRef) : Dev :=
  match d.source r with
  | none => d
  | some x =>
    let y := x.decideAll (d.anaParams r) (x.pics.length + 1)
    let d1 := (d.setSource r y.1).count (Reg.ANA_CUT_KEYS (d.sourceTile r)) y.2
    let new := y.1.pics.filter fun p => p.final && !(x.pics.any fun q => q.n == p.n && q.final)
    let d2 := new.foldl (fun e p => e.sideTake r p) d1
    match r with
    | .group g => d2.giveAll g
    | .ctx _ => d2

/-- The KEY_NOW requests that picture `p` serves when its analysis starts (R124, R147): those merged with its FORCE_KEY, and,
once one of the others was stamped earlier than now, all of these, which are merged with it. -/
def Source.served (s : Source) (p : SrcPic) (now : Nat) : List KeyReq :=
  let old := s.keyNow.any fun k => k.pic.isNone && decide (k.at_ < now)
  s.keyNow.filter fun k => match k.pic with
    | some n => n == p.n
    | none => old

/-- The next source picture that is not analysed is analysed: KEY_NOW requests select it, and the picture before it gets its
backward field (R142, R147). -/
def Dev.analyseNext (d : Dev) (r : SrcRef) : Dev :=
  match d.source r with
  | none => d
  | some x => match x.pics.find? fun p => p.analysis.isNone with
    | none => d
    | some p =>
      let hits := x.served p d.tb.dt
      let y := d.analyse p x
      let la := (d.anaParams r).lookahead
      let back (q : SrcPic) : Option Analysis :=
        if la = 0 ∨ q.n + 1 ≠ p.n then q.analysis
        else q.analysis.map fun a => backward q.fmt a x.prev x.prevHalf y.2.1 y.2.2
      let p1 := { p with analysis := some y.1, quarter := y.2.1, force := p.force || !hits.isEmpty }
      let x1 := { x with
        pics := x.pics.map (fun t => if t.n = p.n then p1 else { t with analysis := back t }),
        prev := y.2.1, prevHalf := y.2.2, keyNow := x.keyNow.filter fun k => !hits.contains k }
      let pts := ticks33 (ticksOf p.dt (d.sourceOrigin r)) % 2 ^ 32
      let d1 := hits.foldl (fun e k => e.finish k.op ⟨stOk, 0, 0, pts⟩) (d.setSource r x1)
      d1.decideSource r

/-- No further picture follows: what waits is decided and given, and a sidecar closes (R144, R155). -/
def Dev.endSource (d : Dev) (r : SrcRef) : Dev :=
  match d.source r with
  | none => d
  | some x =>
    let pics := x.pics.dropLast ++ (x.pics.getLast?.map fun p => { p with last := true }).toList
    let d1 := (d.setSource r { x with pics := pics, ended := true }).decideSource r
    if x.pics.all fun p => p.analysis.isSome then d1.sourceClose r else d1

/-! ### PICTURE (R130, R137-R139) -/

/-- Bytes that a picture takes from ADDR: header and planes. -/
def picExtent (b : List Byte) : Nat :=
  let f := formatOf b
  let l := layoutOf b
  let n := if f.depth = 8 then 1 else 2
  let rows := if f.chroma = 0 then f.height / 2 else f.height
  max 256 (max (l.lumaOff + (f.height - 1) * l.lumaPitch + f.width * n)
    (l.chromaOff + (rows - 1) * l.chromaPitch + f.width * n))

/-- Whether two pictures have the format that R139 compares. -/
def sameFormat (a b : PicFormat) : Bool :=
  a.depth == b.depth && a.chroma == b.chroma && a.primaries == b.primaries && a.transfer == b.transfer &&
  a.matrix == b.matrix && a.range == b.range

/-- A source picture as it joins its source. -/
def newPic (n dt addr : Nat) (image : List Byte) (f : PicFormat) (force : Bool) (op : Option Nat) (damage : Nat) :
    SrcPic :=
  { n := n, dt := dt, addr := addr, image := image, fmt := f, force := force, op := op, quarter := [], analysis := none,
    final := false, given := false, damage := damage, waiting := [], closes := false }

/-- A source takes a picture. -/
def Source.take (s : Source) (p : SrcPic) : Source :=
  { s with pics := s.pics ++ [p], count := s.count + 1, fmt := some (s.fmt.getD p.fmt), lastDt := some p.dt,
           ended := false }

/-- The status of a PICTURE's target: `st` for the source, none where it accepts the picture (R108, R124, R125,
R130). -/
def Dev.pictureTarget (d : Dev) (op : Op) (isGroup : Bool) (n : Nat) : Nat :=
  if isGroup then
    match d.group n with
    | none => stBadState
    | some g =>
      worst [when_ (!d.ownsGroup op n) stProt, when_ (g.failed || (g.source == 1 && g.origin.isNone)) stBadState,
        when_ (g.source != 1 || g.useSide) stGroupMismatch]
  else
    match d.ctx n with
    | none => worst [when_ (!d.ownsCtx op n) stProt, stBadState]
    | some x =>
      worst [when_ (!d.ownsCtx op n) stProt, when_ (x.state != 2 || x.kind == 0) stBadState,
        when_ (x.kind == 1 && x.group.isSome) stGroupMismatch]

/-- What R139 says of a header for its target. -/
def Dev.pictureStatus (d : Dev) (isGroup : Bool) (n : Nat) (f : PicFormat) : Nat :=
  if isGroup then
    match d.group n with
    | none => stBadState
    | some g => when_ (f.width != g.width || f.height != g.height || g.src.fmt.any fun y => !sameFormat f y) stGroupMismatch
  else
    match d.ctx n with
    | none => stBadState
    | some x =>
      worst [when_ (f.width != x.width || f.height != x.height) stMalformed,
        when_ (x.kind == 1 && f.chroma != 0) stUnsupported,
        when_ (x.kind == 2 && x.src.fmt.any fun y => !sameFormat f y) stGroupMismatch]

/-- A standalone encode analyses its own picture and takes it (R174). -/
def Dev.standalone (d : Dev) (c : Nat) : Dev :=
  match d.ctx c with
  | none => d
  | some x => match x.src.pics.find? fun p => p.analysis.isNone with
    | none => d
    | some p =>
      let y := d.analyse p x.src
      let s1 := { x.src with prev := y.2.1, prevHalf := y.2.2, pics := x.src.pics.map fun (q : SrcPic) =>
        if q.n = p.n then { p with analysis := some y.1, quarter := y.2.1, waiting := [c], given := true } else q }
      let z := s1.decideAll (d.anaParams (.ctx c)) 1
      let d1 := (d.setCtx c { x with src := z.1 }).count (Reg.ANA_CUT_KEYS x.tile) z.2
      match (z.1.pics.find? fun (q : SrcPic) => q.n == p.n).bind SrcPic.analysis with
      | some a => d1.giveCtx c p a p.fmt.width p.fmt.height none false
      | none => d1

/-- The order class of a PICTURE: its context's, none of a group's (R74). -/
def pictureKey (op : Op) : Nat := if Desc.field op.desc 8 15 15 = 1 then keyFree op.id else ctxKey op

/-- What refuses a PICTURE before its header is read (R108, R124, R125, R130). -/
def Dev.pictureGate (e : Dev) (op : Op) : Nat :=
  let x := op.desc
  let fmt := Desc.field x 8 14 12 == 0 && zeroAt x 10 6 && zeroAt x 36 28 && decide (lengthOf x ≤ 1)
  worst [e.jobGate op false true true fmt, e.pictureTarget op (Desc.field x 8 15 15 == 1) (ctxNum x)]

/-- The source that a PICTURE names. -/
def pictureRef (x : Desc) : SrcRef :=
  if Desc.field x 8 15 15 = 1 then .group (ctxNum x) else .ctx (ctxNum x)

/-- What refuses a PICTURE that carries one (R130, R137-R139): the header is checked before the planes are read, and nothing of
a malformed one is used. -/
def Dev.pictureRefusal (e : Dev) (op : Op) : Nat :=
  let x := op.desc
  let addr := Desc.le x 16 8
  let b := e.dataRead addr 256
  let ext := if headerOk b then picExtent b else 256
  let in_ := e.windowHas op.fn op.level addr ext
  let last := (e.source (pictureRef x)).bind Source.lastDt
  worst [e.pictureGate op, when_ (!in_) stProt,
    when_ (addr % 256 != 0 || !headerOk b || !dt96Ok (Desc.dt x 24)) stMalformed,
    when_ (last.any fun t => decide (ofDt96 (Desc.dt x 24) ≤ t)) stMalformed,
    if headerOk b then e.pictureStatus (Desc.field x 8 15 15 == 1) (ctxNum x) (formatOf b) else 0,
    if in_ then e.readStatus addr ext else 0]

/-- PICTURE (R130, R137-R139, R155). -/
def execPicture (o : RingOp) (s : State) : Host.Outcome State Fault Refusal :=
  s.act fun d => d.runLater o pictureKey fun e op =>
    let x := op.desc
    let isGroup := Desc.field x 8 15 15 == 1
    let n := ctxNum x
    let addr := Desc.le x 16 8
    let force := flagForceKey x
    let ref := pictureRef x
    let analyse := !isGroup && (e.ctx n).any fun y => y.kind == 2
    let dt := ofDt96 (Desc.dt x 24)
    let b := e.dataRead addr 256
    let f := formatOf b
    let ext := if headerOk b then picExtent b else 256
    let gate := e.pictureGate op
    if lengthOf x = 0 then
      if gate ≠ 0 then (e, some (resOf gate))
      else if force && analyse then
        match e.source ref with
        | none => (e, some (resOf stZero))
        | some y =>
          if y.pics.isEmpty then (e.sourceClose ref, some (resOf stZero))
          else (e.setSource ref { y with pics := y.pics.dropLast ++ (y.pics.getLast?.map fun p =>
            { p with closes := true }).toList }, some (resOf stZero))
      else (e, some (resOf stZero))
    else
      let in_ := e.windowHas op.fn op.level addr ext
      let st := e.pictureRefusal op
      if st ≠ 0 then (if in_ then e.poisonRead addr ext else e, some (resOf st))
      else match e.source ref with
        | none => (e, some (resOf stBadState))
        | some y =>
          let e1 := e.setSource ref (y.take (newPic y.count dt addr [] f force (some op.id) 0))
          later (if isGroup || analyse then e1 else e1.standalone n)

/-- PICTURE_ANALYSIS (R142-R147, R155): the next picture of a group or an analyse context is analysed. An analyse
context's PICTURE then completes, LATE after its deadline (R119, R130). -/
def execPictureAnalysis (src : SrcRef) (s : State) : Host.Outcome State Fault Refusal :=
  s.act fun d =>
    if (d.tile (d.sourceTile src)).stopped then d
    else match src with
      | .group g => match d.group g with
        | none => d
        | some x =>
          if x.failed || x.useSide then d
          else
            let d1 := (d.analyseNext src).failLag g
            if x.src.ended && (d1.source src).any fun y => y.pics.all fun p => p.analysis.isSome then d1.sourceClose src
            else d1
      | .ctx c => match d.ctx c with
        | none => d
        | some x =>
          if x.kind ≠ 2 ∨ x.state ≠ 2 then d
          else
            let d1 := d.analyseNext src
            match d1.ctx c with
            | none => d1
            | some y =>
              let done := y.src.pics.filter SrcPic.final
              let d2 := d1.setCtx c { y with src := { y.src with pics := y.src.pics.filter fun p => !p.final } }
              done.foldl (fun e p =>
                let late := y.cls == 0 && (p.late || d.late (p.dt + y.latencyUs * unitsPerUs))
                let e1 := if late then e.setEvent (Reg.TILE_EVENTS y.tile) 1 else e
                match p.op with
                | some id => e1.finish id ⟨if late then stLate else stOk, 1, 0, 0⟩
                | none => e1) d2

/-! ### PRODUCE (R133, R160, R161, R235, R266) -/

def Group.decodeOf (g : Group) (p : Produce) : Option SegDecode :=
  g.decodes.find? fun y => y.srcAddr == p.srcAddr && y.segIndex == p.segIndex

/-- A PRODUCE ends with a result: its record and, when no other shares it, its decode go. -/
def Dev.endProduce (d : Dev) (g : Nat) (id : Nat) (r : Option Result) : Dev :=
  match d.group g with
  | none => d
  | some x =>
    let ps := x.produces.filter fun p => p.op != id
    let ds := x.decodes.filter fun y => ps.any fun p => p.srcAddr == y.srcAddr && p.segIndex == y.segIndex
    let d1 := d.setGroup g { x with produces := ps, decodes := ds }
    match r with
    | some v => d1.finish id v
    | none => d1

/-- The pictures of a decoded segment join the group's, for one PRODUCE: their numbers, DT and analysis. With no
sidecar their media time is a free value (DESIGN CHOICE, log entry 14). -/
def Dev.producePics (d : Dev) (x : Group) (p : Produce) (c : Ctx) (l : List AccUnit) : List SrcPic :=
  let f (au : AccUnit) : PicFormat := formatOf au.data
  (List.range (min l.length p.pictures)).filterMap fun i => match l[i]? with
    | none => none
    | some au =>
      let base := newPic (x.src.count + i) 0 0 au.data (f au) false none au.detail
      if p.noSidecar then
        let start : Int := (d.freeNat % 2 ^ 33 : Nat)
        some { base with dt := dtOfTicks c.origin (start + (i * c.periodTicks : Nat)), given := true, waiting := [p.ctx],
                         force := i == 0 }
      else match p.pics[i]? with
        | some (dt, a) => some { base with dt := dt, analysis := some a, final := true, given := true, waiting := [p.ctx] }
        | none => none

/-- A context begins its oldest PRODUCE once its segment is decoded (R133): rate control and DTS start again (R235,
R542). A sidecar with another picture count refuses it (R161). `n` bounds the PRODUCEs that are refused. -/
def Dev.beginProduce (d : Dev) (g c : Nat) : Nat → Dev
  | 0 => d
  | n + 1 => match d.group g, d.ctx c with
    | some x, some y => match x.produces.find? fun p => p.ctx == c with
      | none => d
      | some p => match x.decodeOf p with
        | none => d
        | some sd =>
          if p.given || decide (sd.used < sd.srcLen) then d
          else if !p.noSidecar && sd.pics.length != p.pics.length then
            (d.endProduce g p.op (some ⟨stSideMismatch, 0, 2, 0⟩)).beginProduce g c n
          else
            let pics := d.producePics x p y sd.pics
            let y1 := { y.rcProduce with auCount := 0, ptsList := [], show_ := [], ahead := [], hidden := [],
                                         joining := false, src := if p.noSidecar then srcReset else y.src }
            let ps := x.produces.map fun q => if q.op = p.op then { q with given := true } else q
            let x1 := { x with produces := ps,
                               src := { x.src with pics := x.src.pics ++ pics, count := x.src.count + pics.length } }
            let d1 := (if p.noSidecar then d.useFree else d).setCtx c y1
            let d2 := d1.setGroup g x1
            if p.noSidecar then d2
            else
              let k := pics.length
              (pics.zipIdx.foldl (fun e q => match q.1.analysis with
                | some a => e.giveCtx c q.1 a x.width x.height (some p.deadline) (q.2 + 1 == k)
                | none => e) d2)
    | _, _ => d

/-- A ready decode picture of a context, if it has none; one that it has takes the deadline, as more of its data comes (R119). -/
def Dev.decodeJob (d : Dev) (c : Nat) (deadline : Option Nat) : Dev :=
  match d.ctx c with
  | none => d
  | some x =>
    let t := d.tile x.tile
    if t.active c then
      d.setTile x.tile { t with jobs := t.jobs.map fun j =>
        if j.ctx = c then { j with deadline := deadline } else j }
    else if x.state ≠ 2 then d
    else
      let j : Job :=
        { ctx := c, n := 0, ptype := 0, key := false, segStart := false, segIndex := 0, cut := false, fade := false,
          hasL0 := false, hasL1 := false, pts := 0, deadline := deadline, produce := none, last := false, gForecast := 0,
          entries := [], regions := [], seams := [], running := false, list0 := [], list1 := [], poisonRef := false,
          bPre := 0, budget := 0, hrd := 0, q0 := 0, gain := 0, step := 0 }
      d.addJobs x.tile [j]

/-- The group's DECODE context has a segment to decode: its picture's deadline is the earliest of the PRODUCEs that wait
for it. -/
def Dev.decodeSegments (d : Dev) (g : Nat) : Dev :=
  match d.group g with
  | none => d
  | some x => match x.srcCtx, x.decodes.find? fun y => decide (y.used < y.srcLen) with
    | some c, some sd =>
      let l := (x.produces.filter fun p => p.srcAddr == sd.srcAddr && p.segIndex == sd.segIndex).map Produce.deadline
      d.decodeJob c (match l with
        | [] => none
        | t :: r => some (r.foldl min t))
    | _, _ => d

/-- Bytes of the sidecar that a PRODUCE names: its own total, at least a header; 0 with NO_SIDECAR (R157). -/
def Dev.produceTotal (e : Dev) (x : Desc) : Nat :=
  if Desc.field x 10 0 0 = 1 then 0 else max 64 (leNum (e.dataRead (Desc.le x 24 8 + 44) 4))

/-- The group whose DECODE context a PRODUCE's segment goes to, and that context. -/
def Dev.produceGroup (e : Dev) (x : Desc) : Option Group := ((e.ctx (ctxNum x)).bind Ctx.group).bind e.group
def Dev.produceSource (e : Dev) (x : Desc) : Option Ctx := ((e.produceGroup x).bind Group.srcCtx).bind e.ctx

/-- What refuses a PRODUCE before its sidecar is read (R133). -/
def Dev.produceStatus (e : Dev) (op : Op) : Nat :=
  let x := op.desc
  let c := ctxNum x
  let noSide := Desc.field x 10 0 0 == 1
  let sAddr := Desc.le x 24 8
  let y := e.ctx c
  let g := e.produceGroup x
  let fmt := ctxField x && Desc.field x 10 7 1 == 0 && zeroAt x 11 1 && zeroAt x 48 16 && dt96Ok (Desc.dt x 32) &&
    (!noSide || sAddr == 0)
  let headIn := noSide || e.windowHas op.fn op.level sAddr 64
  let total := e.produceTotal x
  let sideIn := noSide || (headIn && e.windowHas op.fn op.level sAddr total)
  worst [e.jobGate op false true false fmt, when_ (!e.ownsCtx op c) stProt,
    when_ (!y.any fun z => z.state == 2 && z.kind == 1) stBadState,
    when_ (!y.any (fun z => z.cls == 1) || !g.any Group.useSide) stGroupMismatch,
    when_ (g.any fun z => z.failed || !(e.produceSource x).any fun w => w.state == 2) stBadState,
    when_ (!e.windowHas op.fn op.level (Desc.le x 16 8) (Desc.le x 12 4) || !sideIn) stProt,
    if sideIn && !noSide then e.readStatus sAddr total else 0]

/-- The pictures that a PRODUCE's sidecar describes, or the status and detail that refuse it (R160, R161). -/
def Dev.produceSide (e : Dev) (x : Desc) (z : Group) : List (Nat × Analysis) ⊕ (Nat × Nat) :=
  let fb := match e.produceSource x with
    | some w => w.depth + 16 * w.chroma
    | none => 0
  if Desc.field x 10 0 0 = 1 then .inl []
  else readSidecar (e.dataRead (Desc.le x 24 8) (e.produceTotal x)) (Desc.le x 44 4) (lengthOf x) z fb

/-- The record of a PRODUCE. -/
def newProduce (op : Op) (l : List (Nat × Analysis)) : Produce :=
  let x := op.desc
  { op := op.id, ctx := ctxNum x, srcAddr := Desc.le x 16 8, srcLen := Desc.le x 12 4, segIndex := Desc.le x 44 4,
    pictures := lengthOf x, deadline := ofDt96 (Desc.dt x 32), noSidecar := Desc.field x 10 0 0 == 1, pics := l,
    given := false, done := 0 }

/-- PRODUCE (R133, R160, R161). -/
def execProduce (o : RingOp) (s : State) : Host.Outcome State Fault Refusal :=
  s.act fun d => d.runLater o ctxKey fun e op =>
    let x := op.desc
    let c := ctxNum x
    let st := e.produceStatus op
    match (e.ctx c).bind Ctx.group, e.produceGroup x with
    | some n, some z =>
      if st ≠ 0 then (e, some (resOf st))
      else if lengthOf x = 0 then (e, some (resOf stZero))
      else match e.produceSide x z with
        | .inr (code, detail) => (e, some ⟨code, 0, detail, 0⟩)
        | .inl l =>
          let p := newProduce op l
          let ds := if (z.decodeOf p).isSome then z.decodes
            else z.decodes ++ [⟨p.srcAddr, p.srcLen, p.segIndex, 0, []⟩]
          later (((e.setGroup n { z with produces := z.produces ++ [p], decodes := ds }).decodeSegments n).beginProduce n c 1)
    | _, _ => (e, some (resOf st))

/-! ### RUNG_SCALE (R149-R153, R162) -/

/-- A picture of a PRODUCE without sidecar: the Pixel Engines analyse the rung, decide, and take it (R133, R174). -/
def Dev.soloRung (d : Dev) (g c : Nat) (p : SrcPic) (r : Rung) (pr : Produce) : Dev :=
  match d.ctx c with
  | none => d
  | some x =>
    let y := analysePlane ⟨r.width, r.height, r.luma.toArray⟩ r.depth x.src.prev x.src.prevHalf
    let s1 := { x.src with prev := y.2.1, prevHalf := y.2.2, pics := [{ p with analysis := some y.1, final := false }],
                           count := x.src.count + 1 }
    let z := s1.decideAll (d.anaParams (.ctx c)) 1
    let first := x.src.count == 0
    let d1 := (d.setCtx c { x with src := { z.1 with pics := [] } }).count (Reg.ANA_CUT_KEYS x.tile) z.2
    match (z.1.pics.head?).bind SrcPic.analysis with
    | none => d1
    | some a =>
      let a1 := { a with segStart := first, segIndex := pr.segIndex }
      let k := match (d.group g).bind fun w => w.decodeOf pr with
        | some sd => min sd.pics.length pr.pictures
        | none => 0
      d1.giveCtx c p a1 r.width r.height (some pr.deadline) (x.src.count + 1 == k)

/-- RUNG_SCALE: the Scaler units build the rung source of a picture for a member, in picture order. -/
def execRungScale (ctx n : Nat) (s : State) : Host.Outcome State Fault Refusal :=
  s.act fun d =>
    match (d.ctx ctx).bind Ctx.group with
    | none => d
    | some g => match d.group g, d.ctx ctx with
      | some x, some c =>
        let waits := x.src.pics.filter fun p =>
          p.given && p.waiting.contains ctx && (SMap.find d.media.rungs (4096 * p.n + ctx)).isNone
        match waits.head? with
        | none => d
        | some p =>
          if p.n ≠ n ∨ (d.tile x.tile).stopped then d
          else
            let t := d.toneCurve x.tile ctx c
            if t.2.2 then
              (d.poisonRead (d.fld (Reg.TONE_CURVE x.tile (d.fld (Reg.TONE_SEL x.tile ctx) 3 0)) 25 0 * 4096) 2048).ctxFail
                ctx 9 0 none
            else
              let r := d.buildRung p c t.1
              let d1 := if t.2.1 then d.raise (72 + 32 * x.tile + 7) 0 else d
              let d2 := { d1 with media := { d1.media with rungs := SMap.insert d1.media.rungs (4096 * n + ctx) r } }
              match x.produces.find? fun q => q.ctx == ctx && q.given && q.noSidecar with
              | some pr => d2.soloRung g ctx p r pr
              | none => d2
      | _, _ => d

end Sys2Proof.Machine
end

