-- ==== Sys2Proof/Machine/DecOps.lean ====
section
/-! DEFINITION. Decoding (spec/10_decoding.md): the bitstream and its errors, references and damage, output pictures and
their PTS, END_OF_STREAM, and the meanings BITSTREAM and STALL_TIMEOUT. -/

namespace Sys2Proof.Machine

/-! ### Errors (R260, R264) -/

/-- The latest error of a context, and the events of its reason code. -/
def Dev.streamError (d : Dev) (t c reason : Nat) : Dev :=
  let m := 1 + (if reason = 0x0C then 2 else 0) + (if reason = 0x08 then 4 else 0) +
    (if reason = 0x06 ∨ reason = 0x07 then 8 else 0)
  (d.setReg (Reg.DEC_LAST_ERROR t) (c * 2 ^ 16 + reason)).setEvents (Reg.DEC_EVENTS t) m

/-- Errors are recorded for a context's tile. -/
def Dev.recordErrors (d : Dev) (t c : Nat) (l : List (Nat × Nat)) : Dev :=
  l.foldl (fun e r => e.streamError t c r.2) d

/-- Errors that a Syntax Engine has found in the bytes that wait are recorded (R260). Before the first random access point
units are discarded without error: those errors count only if the picture proves to be one (R248). -/
def Dev.foundErrors (d : Dev) (c : Nat) (l : List (Nat × Nat)) : Dev :=
  match d.ctx c with
  | none => d
  | some x =>
    if l.isEmpty then d
    else
      let e := d.setCtx c { x with dec := { x.dec with errors := x.dec.errors ++ l } }
      if x.dec.started then e.recordErrors x.tile c l else e

/-! ### Consuming the stream (R247) -/

/-- The segment that a context decodes for PRODUCE, if it has one. -/
def Dev.segmentOf (d : Dev) (c : Nat) : Option (Nat × Group × SegDecode) :=
  match d.groupOfSource c with
  | none => none
  | some g => match d.group g with
    | none => none
    | some y => (y.decodes.find? fun z => decide (z.used < z.srcLen)).map fun z => (g, y, z)

/-- The BITSTREAM operations whose bytes form the present stream: up to the first that END_OF_STREAM follows (R256). -/
def liveParts : List StreamPart → List StreamPart
  | [] => []
  | p :: r => if p.eos then [p] else p :: liveParts r

/-- Where the bytes of the open picture end, if nothing more comes for it: END_OF_STREAM of an ingest stream, or STALL (R256, R263). -/
def DecState.cutAt (x : DecState) : Option Nat :=
  match x.closed, x.eosAt with
  | some a, some b => some (min a b)
  | some a, none => some a
  | none, b => b

/-- The bytes of the stream that wait to be decoded: of the segment that a PRODUCE names, of BITSTREAM operations, or of an ingest
stream. -/
def Dev.streamBytes (d : Dev) (c : Nat) (x : Ctx) : List Byte :=
  match d.segmentOf c with
  | some (_, _, sd) => d.dataRead (sd.srcAddr + sd.used) (sd.srcLen - sd.used)
  | none =>
    let l := match x.dec.parts with
      | [] => x.dec.ingest
      | l => (liveParts l).flatMap fun q => d.dataRead (q.addr + q.used) (q.len - q.used)
    match x.dec.cutAt with
    | some n => l.take n
    | none => l

/-- Poisoned pages among `n` bytes from `a`, as positions from `base`, with the bytes that lie on each. -/
def Dev.poisonStops (d : Dev) (a n base : Nat) : List (Nat × Nat × Nat) :=
  if d.prot.poisoned.isEmpty then []
  else (pagesOf a n).filterMap fun p =>
    if d.pagePoison p then
      let lo := max a (4096 * p)
      some (base + (lo - a), 0x0F, min (a + n) (4096 * p + 4096) - lo)
    else none

/-- Where units of the waiting stream end before their time: position, reason code of a read beyond, and bytes passed over. These are
the loss points of an INGEST stream (R247) and the poisoned pages of data space (R264). -/
def Dev.streamStops (d : Dev) (c : Nat) (x : Ctx) : List (Nat × Nat × Nat) :=
  match d.segmentOf c with
  | some (_, _, sd) => d.poisonStops (sd.srcAddr + sd.used) (sd.srcLen - sd.used) 0
  | none => match x.dec.parts with
    | [] => x.dec.losses.map fun p => (p, 0x10, 0)
    | l => (l.foldl (fun (y : Nat × List (Nat × Nat × Nat)) q =>
        (y.1 + (q.len - q.used), y.2 ++ d.poisonStops (q.addr + q.used) (q.len - q.used) y.1)) (0, [])).2

/-- Whether no further bytes follow those that wait, for the picture that is open (R256, R263, R266). -/
def Dev.streamClosed (d : Dev) (c : Nat) (x : Ctx) : Bool :=
  (d.segmentOf c).isSome || x.dec.cutAt.isSome || x.dec.parts.any StreamPart.eos

/-- The reason with which what no unit covered is concealed (R263). -/
def DecState.missing (x : DecState) : Nat := if x.closed.isSome then 0x09 else 0x0B

/-- `n` bytes of the parts are consumed; `errs` are the errors found in them, by position. Parts that are used up come
first, then the others. -/
def consumeParts : List StreamPart → Nat → List (Nat × Nat) → List StreamPart × List StreamPart
  | [], _, _ => ([], [])
  | p :: r, n, errs =>
    let k := min n (p.len - p.used)
    let all := decide (p.len ≤ p.used + k)
    let mine := errs.filter fun e => decide (e.1 < k) || r.isEmpty
    let q := { p with used := p.used + k, errors := min (p.errors + mine.length) (2 ^ 32 - 1),
                      reason := if p.reason = 0 then ((mine.head?).map Prod.snd).getD 0 else p.reason }
    if all then
      let y := consumeParts r (n - k) ((errs.filter fun e => decide (k ≤ e.1)).map fun e => (e.1 - k, e.2))
      (q :: y.1, y.2)
    else ([], q :: r)

/-- A BITSTREAM that is used up completes (R264). -/
def Dev.finishPart (d : Dev) (p : StreamPart) : Dev :=
  (d.poisonRead p.addr p.len).finish p.op ⟨if p.errors = 0 then stOk else stConcealed, p.len, p.reason, p.errors⟩

/-- Bytes that wait to be decoded. -/
def DecState.waiting (x : DecState) : Nat := (x.parts.map fun p => p.len - p.used).sum + x.ingest.length

/-! ### References and damage (R254, R261, R262) -/

/-- The picture in the buffers nearest in output order, the earlier on a tie (R261). -/
def nearestRef (l : List RefPic) (order : Nat) : Option RefPic :=
  let dist (r : RefPic) : Nat := if r.order ≤ order then 2 * (order - r.order) else 2 * (r.order - order) + 1
  l.foldl (fun b r => match b with
    | none => some r
    | some x => if dist r < dist x then some r else some x) none

/-- Damage flags MISSING_REF, INHERITED and GREY of a picture (R253, R261, R262): bits 3, 4 and 5. -/
def refDamage (l : List RefPic) (order : Nat) (uses : List Nat) (concealed : Bool) : Nat :=
  let held (u : Nat) : Option RefPic := l.find? fun r => r.order == u
  let near := nearestRef l order
  let used := (uses.map fun u => (held u).or near) ++ (if uses.isEmpty && concealed then [near] else [])
  let missing := uses.any fun u => (held u).isNone
  let bad := used.any fun u => u.any RefPic.damaged
  let grey := used.any Option.isNone
  8 * b2n missing + 16 * b2n bad + 32 * b2n grey

/-- Pictures in the reference buffers once a picture is decoded: the codec needs the orders of `refs`. -/
def keepRefs (l : List RefPic) (refs : List Nat) (new : Option RefPic) : List RefPic :=
  ((l ++ new.toList).map fun r => { r with needed := refs.contains r.order }).filter RefPic.needed

/-! ### Output (R249, R252, R255, R256) -/

/-- A picture joins those that wait for output, in output order. -/
def holdPic (au : AccUnit) : List AccUnit → List AccUnit
  | [] => [au]
  | x :: r => if au.order < x.order then au :: x :: r else x :: holdPic au r

/-- The PTS of the next output picture: its own, the previous one's plus a picture period, or the media time of its
ARRIVAL_DT, which `dts` holds (R47, R249). -/
def Ctx.outPts (x : Ctx) (au : AccUnit) : Int :=
  if au.own then unwrapPts au.dts.toNat x.origin (ticks33 au.pts)
  else match x.dec.lastPts with
    | some p => p + (x.periodTicks : Nat)
    | none => ticksOf au.dts.toNat x.origin

/-- A picture is output: to the group that the context feeds, or for GET_AU. A group that takes its analysis from
sidecars has no use for it. -/
def Dev.outPic (d : Dev) (c : Nat) (au : AccUnit) : Dev :=
  match d.ctx c with
  | none => d
  | some x =>
    let p := x.outPts au
    let d1 := d.setCtx c { x with dec := { x.dec with lastPts := some p } }
    match d1.groupOfSource c with
    | none => d1.auPut c { au with pts := p, dts := p }
    | some g => match d1.group g with
      | none => d1
      | some y =>
        if y.useSide || y.failed then d1
        else
          let q := newPic y.src.count (dtOfTicks x.origin p) 0 au.data (formatOf au.data) false none (bits au.detail 6 2)
          d1.setGroup g { y with src := y.src.take q }

/-- The first `n` pictures that wait are output. -/
def Dev.outPics (d : Dev) (c : Nat) : Nat → Dev
  | 0 => d
  | n + 1 => match d.ctx c with
    | none => d
    | some x => match x.dec.held with
      | [] => d
      | au :: r => ((d.setCtx c { x with dec := { x.dec with held := r } }).outPic c au).outPics c n

/-- Streams of the members seal their last segment once the pictures before have been packaged (R270). -/
def Dev.endMembers (d : Dev) (l : List Nat) : Dev :=
  let mark : AccUnit :=
    { data := [], pts := 0, dts := 0, dur := 0, status := stOk, detail := 0, segStart := false, segIndex := 0, key := false,
      stage := 0, late := false, produced := none, ends := true, mark := true, finishes := none, order := 0, own := true }
  l.foldl (fun e m => match e.ctx m with
    | none => e
    | some x =>
      if x.output ≠ 1 then e
      else
        let t := e.tile x.tile
        if t.active m then
          let i := (t.jobs.zipIdx.filter fun j => j.1.ctx == m).foldl (fun _ j => j.2) 0
          e.setTile x.tile { t with jobs := t.jobs.modify i fun j => { j with last := true } }
        else e.setCtx m { x with out := x.out ++ [mark] }) d

/-- END_OF_STREAM (R256): every picture held is output, and the next data starts again at a random access point; a group
that the context feeds gets no further picture. -/
def Dev.endStream (d : Dev) (c : Nat) : Dev :=
  match d.ctx c with
  | none => d
  | some x =>
    let d1 := d.outPics c x.dec.held.length
    match d1.ctx c with
    | none => d1
    | some y =>
      let d2 := d1.setCtx c { y with dec := { y.dec with
        started := false, lastPts := none, refs := [], openAt := none, noRasl := false, recovery := none, refused := false,
        closed := none, eosAt := none } }
      match d2.groupOfSource c with
      | none => d2
      | some g => match d2.group g with
        | none => d2
        | some z => if z.useSide then d2 else (d2.endSource (.group g)).endMembers z.members

/-! ### Output images (R137, R138, R252) -/

/-- A 256-byte picture header (R137) with planes of equal pitch, the luma plane at offset 256 and the chroma plane after it. -/
def headerBytes (w h depth chroma loc : Nat) (c : Colour) (pitch : Nat) : List Byte :=
  let flags := b2n c.mdcv.isSome + 2 * b2n c.cll.isSome
  let l := leBytes 4 0x48505844 ++ leBytes 2 1 ++ leBytes 2 0 ++ leBytes 2 w ++ leBytes 2 h ++ leBytes 1 (depth + 16 * chroma) ++
    leBytes 1 loc ++ leBytes 1 c.primaries ++ leBytes 1 c.transfer ++ leBytes 1 c.matrix ++ leBytes 1 c.range ++
    leBytes 1 flags ++ leBytes 1 0 ++ leBytes 4 pitch ++ leBytes 4 pitch ++ leBytes 4 0 ++ leBytes 8 256 ++
    leBytes 8 (256 + pitch * h) ++ (c.mdcv.getD []).take 24 ++ List.replicate (24 - (c.mdcv.getD []).length) 0 ++
    (c.cll.getD []).take 4 ++ List.replicate (4 - (c.cll.getD []).length) 0
  l ++ List.replicate (256 - l.length) 0

/-- Two fields of `n` rows of `w` samples as one frame; a field without its complement has its missing rows repeat the row above, or for
row 0 the row below (R252). `top` says that `a` is the top field. -/
def weave (w n : Nat) (top : Bool) (a : List Nat) (b : Option (List Nat)) : List Nat :=
  let row (l : List Nat) (i : Nat) : List Nat := (l.drop (i * w)).take w
  (List.range (2 * n)).flatMap fun r =>
    if (r % 2 == 0) == top then row a (r / 2)
    else match b with
      | some l => row l (r / 2)
      | none => row a (if r = 0 then 0 else (r - 1) / 2)

/-- The frame of a decoded picture: fields are interleaved, the top field on even rows. -/
def decFrame (q : DecPic) : DecPlanes :=
  if q.parity = 0 then q.planes
  else
    let p := q.planes
    let hc := if q.chroma = 0 then ceilDiv p.height 2 else p.height
    let top := q.parity == 1
    { width := p.width, height := 2 * p.height, luma := weave p.width p.height top p.luma (q.other.map DecPlanes.luma),
      cb := weave (ceilDiv p.width 2) hc top p.cb (q.other.map DecPlanes.cb),
      cr := weave (ceilDiv p.width 2) hc top p.cr (q.other.map DecPlanes.cr) }

/-- Whether a picture is a field without its complement. -/
def unpairedField (q : DecPic) : Bool := q.parity != 0 && q.other.isNone

/-- Colour and HDR information of an output picture in the codes of R137; with a code that the header cannot express, BT.709,
narrow range and no HDR information (R252; DEDUCED, log entry 93). -/
def pictureColour (q : DecPic) : Colour :=
  if [1, 9].contains q.primaries && [1, 16, 18].contains q.transfer && [1, 9].contains q.matrix then
    ⟨if q.primaries = 9 then 1 else 0, if q.transfer = 16 then 1 else if q.transfer = 18 then 2 else 0,
      if q.matrix = 9 then 1 else 0, b2n q.full, q.mdcv, q.cll⟩
  else ⟨0, 0, 0, 0, none, none⟩

/-- The output image of a decoded picture (R252): an even size, the declared depth and chroma format, pitches rounded up to
multiples of 64, with film grain where `grain` asks for it. -/
def Ctx.outImage (x : Ctx) (grain : Bool) (q : DecPic) : List Byte :=
  let p := if grain then q.grain.getD (decFrame q) else decFrame q
  let w := ceilDiv p.width 2 * 2
  let h := ceilDiv p.height 2 * 2
  let n := if x.depth = 8 then 1 else 2
  let pitch := ceilDiv (w * n) 64 * 64
  let sample (v : Nat) : List Byte := leBytes n (v * 2 ^ (x.depth - q.depth))
  let pad := List.replicate (pitch - w * n) (0 : Byte)
  let luma := (List.range h).flatMap fun r => ((List.range w).flatMap fun c =>
    sample (p.luma.getD (min r (p.height - 1) * p.width + min c (p.width - 1)) 0)) ++ pad
  let grey := leBytes n (2 ^ (x.depth - 1))
  let chroma := (List.range (if x.chroma = 0 then h / 2 else h)).flatMap fun r => ((List.range (w / 2)).flatMap fun c =>
    if q.mono then grey ++ grey else sample (p.cb.getD (r * (w / 2) + c) 0) ++ sample (p.cr.getD (r * (w / 2) + c) 0)) ++ pad
  headerBytes w h x.depth x.chroma q.chromaLoc (pictureColour q) pitch ++ luma ++ chroma

/-! ### Random access and sequences (R248, R250) -/

/-- Whether a picture is a random access point of its codec (R248). -/
def rapKind (codec : Nat) : PicKind → Bool
  | .idr => codec != 2
  | .cra => codec == 1 || codec == 3
  | .bla => codec == 1
  | .gdr _ => codec == 3
  | .keyFrame shown => codec == 2 && shown
  | .rasl => false
  | .other => false

/-- Whether a picture's units are discarded without error (R248): before the first random access point, leading pictures that the
codec marks as undecodable, and what is not of the base layer. -/
def Ctx.skips (x : Ctx) (p : PicDone) : Bool :=
  !p.base || (!rapKind x.codec p.kind && (!x.dec.started || (p.kind == .rasl && x.dec.noRasl)))

/-- The parameter sets in force once a picture's own have come, and those whose range check failed with none in force. -/
def DecState.takeSets (x : DecState) (l : List (Nat × Bool)) : List Nat × List Nat :=
  l.foldl (fun (y : List Nat × List Nat) s =>
    if s.2 then ((y.1.filter (· != s.1)) ++ [s.1], y.2.filter (· != s.1))
    else if y.1.contains s.1 then y
    else (y.1, (y.2.filter (· != s.1)) ++ [s.1])) (x.sets, x.badSets)

/-- The reason for which the sequence of a picture is not decoded (R250); none where it passes. -/
def Ctx.sequenceFault (x : Ctx) (source : Bool) (bad : List Nat) (p : PicDone) : Option Nat :=
  let size (f : DecPlanes) : Bool :=
    if source then f.width == x.width && f.height == x.height else decide (f.width ≤ x.width) && decide (f.height ≤ x.height)
  let limits (q : DecPic) : Bool :=
    (q.mono || q.chroma == x.chroma) && decide (q.depth ≤ x.depth) && size (decFrame q) && decide (q.dpb + 1 ≤ x.pictures)
  if p.pic.any fun q => !profileOk false x.codec q.profile 8 0 0 then some 0x07
  else if p.pic.any fun q => !limits q then some 0x06
  else if p.names.any bad.contains then some 0x05
  else none

/-! ### A decoded picture (R248-R263) -/

/-- Errors in the order of their byte positions. -/
def putError (e : Nat × Nat) : List (Nat × Nat) → List (Nat × Nat)
  | [] => [e]
  | y :: r => if e.1 < y.1 then e :: y :: r else y :: putError e r

/-- ARRIVAL_DT of the part that holds the last byte of the next `n` (R119). -/
def arrivalOf (dflt : Nat) : List StreamPart → Nat → Nat
  | [], _ => dflt
  | p :: r, n => if n ≤ p.len - p.used then p.arrival else arrivalOf p.arrival r (n - (p.len - p.used))

/-- ARRIVAL_DT of the last of the next `n` bytes that wait. -/
def DecState.arrivalAt (x : DecState) (n : Nat) : Nat :=
  if x.parts.isEmpty then ((x.arrivals.find? fun a => decide (n ≤ a.2)).map Prod.fst).getD x.arrival
  else arrivalOf x.arrival x.parts n

/-- The bytes of an ingest stream that a picture has used go. -/
def DecState.dropIngest (x : DecState) (n : Nat) : DecState :=
  let k := min n x.ingest.length
  { x with ingest := x.ingest.drop k, losses := (x.losses.filter fun p => decide (k < p)).map (· - k),
           pesPts := (x.pesPts.filter fun p => decide (k ≤ p.2)).map fun p => (p.1, p.2 - k),
           arrivals := (x.arrivals.filter fun p => decide (k < p.2)).map fun p => (p.1, p.2 - k),
           eosAt := x.eosAt.map (· - k) }

/-- Whether a reference picture lies on a poisoned page (R181, R261). -/
def Dev.refPoisoned (d : Dev) (x : Ctx) (r : RefPic) : Bool :=
  let n := refBuffers x.width x.height x.chroma
  ((x.buffers.drop (r.slot * n)).take n).any fun h => d.rangePoison (d.bufAddr h) (bufSize h)

/-- The damage flags and CONCEAL_PCT of a picture (R253, R261, R262): bits 2 to 6 and 15 to 8. -/
def Dev.damageOf (d : Dev) (x : Ctx) (j : Job) (p : PicDone) : Nat :=
  let good := x.dec.refs.filter fun r => !d.refPoisoned x r
  let concealed := decide (0 < p.concealed)
  let rd := refDamage good p.order p.uses concealed
  rd + 8 * b2n (j.poisonRef && !bit rd 3) + 4 * b2n concealed + 64 * b2n (p.pic.any unpairedField) +
    256 * min 100 (p.concealed * 100 / max 1 p.blocks)

/-- The access unit of a decoded picture before its PTS is known: `dts` holds ARRIVAL_DT (R249, R253). -/
def Ctx.decoded (x : Ctx) (p : PicDone) (image : List Byte) (damage arr : Nat) (late : Bool) : AccUnit :=
  let own := (x.dec.pesPts.filter fun e => decide (e.2 < p.used)).head?
  let key := rapKind x.codec p.kind
  { data := image, pts := ((own.map Prod.fst).getD 0 : Nat), dts := (arr : Nat), dur := x.periodTicks,
    status := if damage &&& 0x7C ≠ 0 then stConcealed else if late then stLate else stOk,
    detail := b2n key + damage + 128 * b2n late, segStart := false, segIndex := 0, key := key, stage := 0, late := late,
    produced := none, ends := false, mark := false, finishes := none, order := p.order, own := own.isSome }

/-- The reference picture that a decoded picture leaves, without film grain (R178, R252, R262). -/
def Dev.decodedRef (d : Dev) (x : Ctx) (p : PicDone) (damage : Nat) (kept : List RefPic) : Option RefPic :=
  p.pic.map fun q =>
    let f := decFrame q
    { order := p.order, damaged := damage &&& 0x7C != 0, needed := true, slot := freeSlot kept, ptype := 0, width := f.width,
      height := f.height, chroma := q.chroma, motion := [],
      rsus := storeRsus (d.flag (Reg.PXE_CTRL x.tile) 0) f.width f.height q.chroma f.luma f.cb f.cr }

/-- The errors of a picture's bytes that no Syntax Engine has reported: parameter sets that fail their range check, headers
that name none received, what no unit covered, a field without its complement, a substituted reference, and a
sequence that is refused (R250, R252, R261, R263). -/
def Ctx.picErrors (x : Ctx) (j : Job) (p : PicDone) (sets bad : List Nat) (damage : Nat) (shown : Bool) (fault : Option Nat) :
    List (Nat × Nat) :=
  let at_ := p.used - 1
  (p.sets.filter fun s => !s.2).map (fun _ => (0, 0x05)) ++
  (if p.names.any fun n => !sets.contains n && !bad.contains n then [(0, 0x04)] else []) ++ p.reasons ++
  (if shown && j.regions.any fun g => !g.ended then [(at_, x.dec.missing)] else []) ++
  (if shown && bit damage 6 then [(at_, 0x0E)] else []) ++ (if shown && bit damage 3 then [(at_, 0x0C)] else []) ++
  (fault.map fun r => (at_, r)).toList

/-- A picture of a context's stream is decoded (R247-R263). A picture that is not shown comes before the first random access point,
cannot be decoded, or belongs to a refused sequence, whose units are dropped. -/
def Dev.decodeDone (d : Dev) (c : Nat) (x : Ctx) (j : Job) (p : PicDone) : Dev :=
  let arr := x.dec.arrivalAt p.used
  let late := x.cls == 0 && (j.late || d.late (arr + x.latencyUs * unitsPerUs))
  let skip := x.skips p
  let rap := !skip && rapKind x.codec p.kind
  let sets := x.dec.takeSets p.sets
  let fault := if skip || (x.dec.refused && !rap) then none else x.sequenceFault (d.groupOfSource c).isSome sets.2 p
  let refused := if skip then x.dec.refused else fault.isSome || (x.dec.refused && !rap)
  let decoded := p.pic.isSome && !skip && !refused && (p.names.isEmpty || p.names.any sets.1.contains)
  let starts := rap && (!x.dec.started || x.dec.refused)
  let recovery := if rap then (match p.kind with
      | .gdr r => if starts then some r else x.dec.recovery
      | _ => none)
    else x.dec.recovery.filter fun r => decide (p.order < r)
  let shown := decoded && !recovery.any fun r => decide (p.order < r)
  let damage := if decoded then d.damageOf x j p else 0
  let found := if skip then [] else x.dec.errors.filter fun e => decide (e.1 < p.used)
  let fresh := if skip then [] else x.picErrors j p sets.1 sets.2 damage decoded fault
  let errs := fresh.foldl (fun l e => putError e l) found
  let image := match p.pic with
    | some q => if decoded then x.outImage (d.flag (Reg.DEC_CTRL x.tile) 0) q else []
    | none => []
  let split := consumeParts x.dec.parts p.used errs
  let kept := keepRefs x.dec.refs p.refs none
  let new := if decoded then d.decodedRef x p damage kept else none
  let dec1 := { x.dec with
    parts := split.2, refs := keepRefs x.dec.refs p.refs new, arrival := arr, sets := sets.1, badSets := sets.2,
    held := if shown then holdPic (x.decoded p image damage arr late) x.dec.held else x.dec.held,
    started := x.dec.started || rap, refused := refused, recovery := recovery, params := [],
    noRasl := if rap then starts || p.kind == PicKind.bla else x.dec.noRasl,
    errors := (x.dec.errors.filter fun (e : Nat × Nat) => decide (p.used ≤ e.1)).map fun (e : Nat × Nat) => (e.1 - p.used, e.2),
    closed := (x.dec.closed.filter fun n => decide (p.used < n)).map (· - p.used) }
  let dec2 := if x.dec.parts.isEmpty then dec1.dropIngest p.used else dec1
  let dec3 := { dec2 with openAt := if dec2.waiting = 0 then none else dec2.openAt }
  let d1 := (d.setCtx c { x with dec := dec3 }).recordErrors x.tile c (if x.dec.started then fresh else errs)
  let d2 := if refused && !skip then d1.count (Reg.DEC_DROPPED x.tile) 1 else d1
  let d3 := if fault.isSome then d2.setEvent (Reg.DEC_EVENTS x.tile) 3 else d2
  let d4 := if damage &&& 0x7C != 0 then d3.count (Reg.DEC_CONCEALED x.tile) 1 else d3
  let d5 := if late && decoded then d4.setEvent (Reg.TILE_EVENTS x.tile) 1 else d4
  let d6 := d5.outPics c p.release
  let d7 := split.1.foldl (fun e q => e.finishPart q) d6
  if split.1.any StreamPart.eos || (x.dec.parts.isEmpty && x.dec.eosAt.any fun n => decide (n ≤ p.used)) then d7.endStream c else d7

/-- A picture of a segment that PRODUCE names is decoded (R266): every picture counts, from the first unit on. -/
def Dev.segmentDone (d : Dev) (g c : Nat) (x : Ctx) (y : Group) (sd : SegDecode) (j : Job) (p : PicDone) : Dev :=
  let sets := x.dec.takeSets p.sets
  let rap := rapKind x.codec p.kind
  let fault := if x.dec.refused && !rap then none else x.sequenceFault true sets.2 p
  let refused := fault.isSome || (x.dec.refused && !rap)
  let shown := p.base && p.pic.isSome && !refused && (p.names.isEmpty || p.names.any sets.1.contains)
  let damage := if shown then d.damageOf x j p else 0
  let image := match p.pic with
    | some q => x.outImage (d.flag (Reg.DEC_CTRL x.tile) 0) q
    | none => []
  let held := if shown then holdPic (x.decoded p image damage x.dec.arrival false) x.dec.held else x.dec.held
  let used := sd.used + p.used
  let done := decide (sd.srcLen ≤ used)
  let n := if done then held.length else min p.release held.length
  let kept := keepRefs x.dec.refs p.refs none
  let new := if shown then d.decodedRef x p damage kept else none
  let dec := { x.dec with
    held := held.drop n, refs := if done then [] else keepRefs x.dec.refs p.refs new, refused := refused && !done,
    sets := sets.1, badSets := sets.2, errors := [], params := [] }
  let sd1 := { sd with used := used, pics := sd.pics ++ held.take n }
  let ds := y.decodes.map fun z => if z.srcAddr = sd.srcAddr ∧ z.segIndex = sd.segIndex then sd1 else z
  let d1 := ((d.setCtx c { x with dec := dec }).setGroup g { y with decodes := ds }).recordErrors x.tile c
    (x.picErrors j p sets.1 sets.2 damage shown fault)
  let d2 := if refused then d1.count (Reg.DEC_DROPPED x.tile) 1 else d1
  let d3 := if fault.isSome then d2.setEvent (Reg.DEC_EVENTS x.tile) 3 else d2
  let d4 := if damage &&& 0x7C != 0 then d3.count (Reg.DEC_CONCEALED x.tile) 1 else d3
  if done then
    ((y.produces.map Produce.ctx).eraseDups.foldl (fun e m => e.beginProduce g m y.produces.length) d4)
  else d4

/-- ARRIVAL_DT of the data that completes the next picture (R119), as far as it has come. -/
def Dev.nextArrival (d : Dev) (c : Nat) (x : Ctx) : Nat :=
  if x.dec.parts.length ≤ 1 ∧ x.dec.arrivals.length ≤ 1 then x.dec.arrivalAt 1
  else x.dec.arrivalAt (min x.dec.waiting (Config.picLength x.codec (d.streamBytes c x)))

/-- A decode context goes on with what waits: a segment, or its stream. -/
def Dev.decodeNext (d : Dev) (c : Nat) : Dev :=
  match d.ctx c with
  | none => d
  | some x => match d.segmentOf c with
    | some (g, _, _) => d.decodeSegments g
    | none =>
      if x.dec.waiting = 0 then d
      else d.decodeJob c (if x.cls = 0 then some (d.nextArrival c x + x.latencyUs * unitsPerUs) else none)

/-! ### Meanings -/

/-- What refuses a BITSTREAM (R131, R247). -/
def Dev.bitstreamStatus (e : Dev) (op : Op) : Nat :=
  let x := op.desc
  let c := ctxNum x
  let len := Desc.le x 12 4
  let fmt := ctxField x && Desc.field x 10 7 1 == 0 && zeroAt x 11 1 && dt96Ok (Desc.dt x 24) && zeroAt x 36 28
  worst [e.jobGate op false false false fmt, when_ (!e.ownsCtx op c) stProt,
    when_ (!e.windowHas op.fn op.level (Desc.le x 16 8) len) stProt,
    when_ (!(e.ctx c).any fun z => z.state == 2 && z.kind == 0 && (z.ingest == 0xFFFFFFFF || len == 0)) stBadState]

/-- END_OF_STREAM without bytes (R131, R256): it follows the operations that wait, or what has come of an ingest stream; with nothing
waiting it acts at once. -/
def Dev.markEnd (d : Dev) (c : Nat) (z : Ctx) : Dev :=
  if !z.dec.parts.isEmpty then
    d.setCtx c { z with dec := { z.dec with parts := z.dec.parts.modify (z.dec.parts.length - 1) fun p =>
      { p with eos := true } } }
  else if z.dec.ingest.isEmpty then d.endStream c
  else if z.dec.eosAt.isSome then d
  else d.setCtx c { z with dec := { z.dec with eosAt := some z.dec.ingest.length } }

/-- BITSTREAM (R131, R247, R256). A context that an ingest stream feeds takes END_OF_STREAM only. -/
def execBitstream (o : RingOp) (s : State) : Host.Outcome State Fault Refusal :=
  s.act fun d => d.runLater o ctxKey fun e op =>
    let x := op.desc
    let c := ctxNum x
    let eos := Desc.field x 10 0 0 == 1
    let len := Desc.le x 12 4
    let addr := Desc.le x 16 8
    let st := e.bitstreamStatus op
    match e.ctx c with
    | none => (e, some (resOf st))
    | some z =>
      if st ≠ 0 then (e, some (resOf st))
      else if len = 0 then (if eos then e.markEnd c z else e, some (resOf stZero))
      else
        let p : StreamPart := ⟨op.id, addr, len, 0, ofDt96 (Desc.dt x 24), 0, 0, eos⟩
        later ((e.setCtx c { z with dec := { z.dec with parts := z.dec.parts ++ [p], arrival := p.arrival,
                                                        openAt := some e.tb.dt } }).decodeNext c)

/-- STALL_TIMEOUT (R263): STALL_MS after the last data the open picture is closed; what no unit covered is concealed with reason
STALL. -/
def execStallTimeout (ctx : Nat) (s : State) : Host.Outcome State Fault Refusal :=
  s.act fun d =>
    match d.ctx ctx with
    | none => d
    | some x => match x.dec.openAt with
      | none => d
      | some t =>
        if x.kind ≠ 0 ∨ x.state ≠ 2 then d
        else
          let d1 := d.advanceTo (t + d.fld (Reg.DEC_CTRL x.tile) 15 8 * 1000 * unitsPerUs)
          match d1.ctx ctx with
          | none => d1
          | some y => d1.setCtx ctx { y with dec := { y.dec with openAt := none, closed := some y.dec.waiting } }

end Sys2Proof.Machine
end

