-- ==== Sys2Proof/Machine/MemOps.lean ====
section
/-! DEFINITION. The HBM3 controllers and data protection in memory (spec/15_memory_stacks.md,
spec/16_data_protection.md), and the commands of their families that need no register write. -/

namespace Sys2Proof.Machine

/-! ### Controllers (R370-R381) -/

def Dev.mcState (d : Dev) (s : Nat) : Nat := d.fld (Reg.MC_STATE s) 18 16
def Dev.setMcState (d : Dev) (s x : Nat) : Dev := d.setFld (Reg.MC_STATE s) 18 16 x
def Dev.panics (d : Dev) (s : Nat) : Nat := d.fld (Reg.MC_STATE s) 7 0

/-- A fault of stack `s`: kind `k` of its sources, the log record's words 0 and 2, and the controller's state (R467). -/
def Dev.memRaise (d : Dev) (s k w0 w2 : Nat) : Dev :=
  d.raise (200 + 16 * s + k) (w0 % 2 ^ 32 + w2 / 65536 % 65536 * 2 ^ 32 + d.mcState s * 2 ^ 48)

/-- Row key of bank `b` of stack ID `sid` in pseudo-channel `p`. -/
def rowKey (p sid b : Nat) : Nat := 64 * p + 16 * sid + b

/-- A bank's rows of one stack ID close in every pseudo-channel (R371). -/
def Dev.closeBank (d : Dev) (s sid b : Nat) : Dev :=
  d.setCtl s { d.ctl s with rows := (d.ctl s).rows.filter fun e => e.1 % 64 != 16 * sid + b }

/-- Every row of a stack closes: the precharge before power-down or self-refresh (R371). -/
def Dev.closeRows (d : Dev) (s : Nat) : Dev := d.setCtl s { d.ctl s with rows := [] }

/-- The place of a frame in its rank: bank and row (R366). -/
def frameBank (g : Nat) : Nat := Nat.xor (g / 8 % 16) (g / 128 % 16)
def frameRow (g : Nat) : Nat := g / 128

/-- Per-bank refreshes issued on `n` pseudo-channels, for the monitor (R510). -/
def Dev.pmRefresh (d : Dev) (s n : Nat) : Dev := d.pmEvent (16 + s) 0x25 n pmNone

/-- The refreshes postponed during panic are issued (R372). -/
def Dev.flushPostponed (d : Dev) (s : Nat) : Dev :=
  let l := (d.ctl s).postponed
  let d1 := l.foldl (fun e x => (e.closeBank s (x.1 / 16) (x.1 % 16)).pmRefresh s (32 * x.2)) d
  d1.setCtl s { d1.ctl s with postponed := [] }

/-- One refresh interval ends for a rank: its next bank is refreshed, or postponed during panic (R372). -/
def Dev.refreshDue (d : Dev) (s sid : Nat) : Dev :=
  let c := d.ctl s
  let st := d.mcState s
  if st = 2 ∨ st = 3 ∨ st = 4 ∨ st = 5 then d
  else
    let b := c.refBank.getD sid 0
    let d1 := d.setCtl s { c with refBank := c.refBank.set sid ((b + 1) % 16) }
    let k := 16 * sid + b
    let n := SMap.get (fun _ => 0) c.postponed k
    if d.panics s ≠ 0 ∧ n < d.fld (Reg.MC_REFRESH s) 15 12 then
      d1.setCtl s { d1.ctl s with postponed := SMap.set (fun _ => 0) c.postponed k (n + 1) }
    else
      let d2 := ((if st = 1 then d1.setMcState s 0 else d1).closeBank s sid b).pmRefresh s 32
      if d.panics s ≠ 0 then d2.setEvent (Reg.MC_EVENTS s) 5 else d2

/-- Time of HBM cycles at the stack's point, in 2^-16 ns (R364). -/
def Dev.hbmTime (d : Dev) (s n : Nat) : Nat :=
  n * 655360 / [16, 12, 8].getD (d.fld (Reg.MC_STATE s) 31 30) 16

/-! ### The page code (R382-R389) -/

/-- t of R387: symbol errors that the strength corrects. -/
def Dev.codeT (d : Dev) : Nat := 8 * 2 ^ d.fld Reg.MEM_CODE 2 0

/-- F of R387: frames of a rank for data and metadata. -/
def Dev.codeF (d : Dev) : Nat :=
  [2084935, 2072860, 2049125, 2003249, 1917396].getD (d.fld Reg.MEM_CODE 2 0) 1917396

def Dev.rankState (d : Dev) (r : Nat) : Nat := d.fld (Reg.RANK_STATE r) 2 0
def Dev.setRankState (d : Dev) (r x : Nat) : Dev := d.setFld (Reg.RANK_STATE r) 2 0 x
def Dev.erasedChans (d : Dev) (r : Nat) : Nat := d.fld (Reg.RANK_STATE r) 31 16
def Dev.retiredBanks (d : Dev) (r : Nat) : Nat := d.fld (Reg.RANK_STATE r) 9 8

/-- Erasures per frame of a rank at their worst (R389). -/
def Dev.erasures (d : Dev) (r : Nat) : Nat :=
  (if d.erasedChans r = 0 then 0 else 172 + d.codeT / 8) + d.retiredBanks r * (87 + d.codeT / 8)

/-- Whether every frame of rank `r` that shows `e` is corrected, its erasures at their worst (R385, R389). -/
def Dev.correctable (d : Dev) (r : Nat) (e : FrameErr) : Bool :=
  !e.command && decide (2 * e.symbols + d.erasures r ≤ 2 * d.codeT)

/-- First and last data symbol that `n` bytes of a page from byte `b` touch (R383). -/
def symbolSpan (b n : Nat) : Nat × Nat := (8 * b / 12, (8 * (b + n) - 1) / 12)

/-- Symbols of a span, and those that two spans share. -/
def spanCount (x : Nat × Nat) : Nat := x.2 + 1 - x.1
def spanShared (x y : Nat × Nat) : Nat := min x.2 y.2 + 1 - max x.1 y.1

/-- Data symbols that pseudo-channel `p` carries (R366). -/
def pchSpan (p : Nat) : Nat × Nat := symbolSpan (128 * p) 128

/-- The data symbols of a frame that retired banks make erasures: those of the pseudo-channels `l`, of which a rank has
at most two. -/
def bankSymbols : List Nat → Nat
  | [] => 0
  | [p] => spanCount (pchSpan p)
  | p :: q :: _ => spanCount (pchSpan p) + spanCount (pchSpan q) - spanShared (pchSpan p) (pchSpan q)

/-- The erasures of one frame (R385, R389): the symbols that lie on erased channels, and on retired banks. How much of a
frame's parity a bank holds is internal to the device (R384), and free up to the part of its channel (log entry 1). -/
def Dev.frameErasures (d : Dev) (r f : Nat) : Nat :=
  let chan (c : Nat) : Nat := spanCount (symbolSpan (256 * c) 256) + d.codeT / 8
  let banks := d.prot.banks.filter fun b => b.1 == r
  let parity (b : Nat × Nat × Nat) : Nat := Config.parityOn (b.1, f, b.2.1, b.2.2) % (d.codeT / 8 + 1)
  let hit := (banks.filter fun b => b.2.2 == frameBank f).map fun b => b.2.1
  (((List.range 16).filter (bit (d.erasedChans r))).map chan).sum + bankSymbols hit + (banks.map parity).sum

/-- Whether frame `f` of rank `r` that shows `e` is corrected (R385). -/
def Dev.frameCorrectable (d : Dev) (r f : Nat) (e : FrameErr) : Bool :=
  d.correctable r e || (!e.command && decide (2 * e.symbols + d.frameErasures r f ≤ 2 * d.codeT))

/-- Whether a memory client acts as a real-time port (R374, R391). -/
def Dev.isRtClient (d : Dev) (c : Nat) : Bool :=
  c != 0 && (List.range 8).any fun k => d.fld (Reg.RT_PORT_SEL k) 3 0 == c

/-- The data-space page that a frame holds: none for metadata and for a frame whose page has been retired (R395, R405). It is
the inverse of R366, by logical rank. -/
def Dev.framePage (d : Dev) (rank frame : Nat) : Option Nat :=
  let r := (List.range 32).find? fun i =>
    d.flag (Reg.RANK_MAP i) 5 && d.fld (Reg.RANK_MAP i) 4 0 == rank
  match r, d.prot.retired.find? fun e => d.pageFrame e.1 == (rank, frame) with
  | none, _ => none
  | _, some e => some e.1
  | some i, none =>
    let t := i / 8
    let j := frame * d.ranks t + i % 8
    let holds (s : Nat) : Bool := decide (d.quarters t s * 65536 ≤ j) && decide (j < d.quarters t (s + 1) * 65536)
    match (List.range 192).find? holds with
    | none => none
    | some s =>
      let k := j - d.quarters t s * 65536
      let p := s * 0x40000 + if d.fld (Reg.MEM_SECTION s) 2 0 = 0 then 4 * k + t else k
      if (SMap.find d.prot.retired p).isSome then none else some p

/-! ### The error log (R405) and the persistent log (R474-R476) -/

/-- Word `w` of error log record `i`. -/
def memLog (i w : Nat) : Nat := Reg.MEM_LOG i w

/-- A 16-byte body of a log record that Ndelia firmware writes for a memory event (R475). -/
def Dev.persist (d : Dev) (type : Nat) (body : List Byte) : Dev :=
  let standing := decide (3 ≤ type) && decide (type ≤ 6)
  let full := standing && decide (1024 ≤ (d.fc.flashLog.filter LogRec.standing).length +
    (d.fc.flashWait.filter LogRec.standing).length)
  let b := if full then body.set 8 1 else body
  let rest := leBytes 4 d.fc.ramSeq ++ leBytes 8 (dtStamp d.tb.dt) ++ b
  let x : LogRec := ⟨d.fc.ramSeq, leBytes 1 1 ++ leBytes 1 type ++ leBytes 2 (crc32 rest) ++ rest, standing && !full⟩
  let d1 := { d with fc := { d.fc with
    ramLog := (d.fc.ramLog ++ [x]).drop (d.fc.ramLog.length + 1 - 32768), ramSeq := d.fc.ramSeq + 1,
    flashWait := d.fc.flashWait ++ [x] } }
  if full then d1.raise 31 0 else d1

/-- An error log record (R405), copied to the persistent log; its number is MEM_LOG_COUNT before it. -/
def Dev.logError (d : Dev) (kind cls rank frame pchs symbols source : Nat) : Dev :=
  let i := d.reg Reg.MEM_LOG_COUNT % 64
  let page := d.framePage rank frame
  let w0 := kind * 2 ^ 28 + cls * 2 ^ 26 + rank * 2 ^ 21 + frame
  let w2 := symbols * 65536 + source
  let w3 := match page with
    | some p => 2 ^ 31 + p
    | none => 0
  let d1 := ((((((((d.setReg (memLog i 0) w0).setReg (memLog i 1) pchs).setReg (memLog i 2) w2).setReg
    (memLog i 3) w3).setReg (memLog i 4) (dtStamp d.tb.dt)).setReg (memLog i 5) (dtStamp d.tb.dt / 2 ^ 32)).setReg
    (memLog i 6) 0).setReg (memLog i 7) 0).count Reg.MEM_LOG_COUNT 1
  d1.persist 2 (leBytes 4 w0 ++ leBytes 4 pchs ++ leBytes 4 w2 ++ leBytes 4 w3)

/-- A self-test is queued for a frame, or the error is classed UNTESTED when 16 wait (R393). `log` is the number of its
log record. -/
def Dev.queueTest (d : Dev) (rank frame log pchs : Nat) : Dev :=
  let c := d.ctl (rank / 4)
  if c.tests.length < 16 then d.setCtl (rank / 4) { c with tests := c.tests ++ [⟨rank, frame, log, pchs⟩] }
  else if d.reg Reg.MEM_LOG_COUNT - log ≤ 64 then d.setFld (memLog (log % 64) 0) 27 26 3
  else d

/-! ### Spares and migration (R369, R397-R401) -/

def Dev.spareCount (d : Dev) : Nat := d.fld Reg.MAP_CTRL 3 1

/-- MEM_SPARES follows the states of the spares. -/
def Dev.spareRegs (d : Dev) : Dev :=
  let n := d.spareCount
  let st (k : Nat) : Nat := d.rankState (8 * k + 7)
  let mask (p : Nat → Bool) : Nat := (List.range n).foldl (fun v k => if p (st k) then v + 2 ^ k else v) 0
  d.setReg Reg.MEM_SPARES (mask (· == 7) * 256 + mask (fun x => x == 6 || x == 0 || x == 1 || x == 2 || x == 4) * 16 +
    ((List.range n).filter fun k => st k == 5).length)

/-- The spare that a migration of `rank` takes (R369). -/
def Dev.chooseSpare (d : Dev) (rank : Nat) : Option Nat :=
  let free := (List.range d.spareCount).filter fun k => d.rankState (8 * k + 7) == 5
  match free.find? (· == rank / 8) with
  | some k => some (8 * k + 7)
  | none => free.head?.map fun k => 8 * k + 7

/-- The one channel on which every PERSISTENT test of a rank has failed (R401). -/
def Dev.singleBadChan (d : Dev) (rank : Nat) : Option Nat :=
  let m := SMap.get (fun _ => 0) d.prot.badChans rank
  (List.range 16).find? fun c => m == 2 ^ c

/-- A DRAM channel is declared erased on a rank (R389, R395). -/
def Dev.erase (d : Dev) (rank chan : Nat) : Dev :=
  ((d.setFld (Reg.RANK_STATE rank) 31 16 (d.erasedChans rank ||| 2 ^ chan)).setEvent Reg.MEM_EVENTS 8).persist 5
    (leBytes 1 rank ++ leBytes 1 chan ++ leBytes 14 0)

/-- A rank enters HALF_MAST (R401). -/
def Dev.halfMast (d : Dev) (rank : Nat) : Dev :=
  let d1 := ((d.setRankState rank 4).setEvent Reg.MEM_EVENTS 7).memRaise (rank / 4) 4 (rank * 2 ^ 21) 0
  if d1.codeT = 128 ∧ d1.retiredBanks rank = 0 ∧ d1.erasedChans rank = 0 then
    match d1.singleBadChan rank with
    | some c => d1.erase rank c
    | none => d1
  else d1

/-- A migration of `rank` starts, or the rank enters HALF_MAST when no spare is left (R399). -/
def Dev.startMigration (d : Dev) (rank : Nat) : Dev :=
  match d.chooseSpare rank with
  | none => d.halfMast rank
  | some sp =>
    (((d.setRankState rank 1).setRankState sp 6).setReg Reg.MEM_MIG (2 ^ 31 + sp * 2 ^ 26 + rank * 2 ^ 21)).setEvent
      Reg.MEM_EVENTS 4 |>.spareRegs

/-- The ranks in WAITING start their migrations one at a time, in the order in which they failed (R400). -/
def Dev.nextMigration (d : Dev) : List Nat → Dev
  | [] => { d with prot := { d.prot with waiting := [] } }
  | r :: l =>
    let d1 := d.startMigration r
    if d1.flag Reg.MEM_MIG 31 then { d1 with prot := { d1.prot with waiting := l } } else d1.nextMigration l

/-- A spare fails (R394, R400). -/
def Dev.spareFail (d : Dev) (sp : Nat) : Dev :=
  (((d.setRankState sp 7).spareRegs).setEvent Reg.MEM_EVENTS 6).memRaise (sp / 4) 5 (sp * 2 ^ 21) 0

/-- A frame becomes POISONED (R397, R402). -/
def Dev.poison (d : Dev) (rank frame : Nat) : Dev :=
  let m := SMap.set (fun _ => false) d.prot.poisoned (rank * 2 ^ 21 + frame) true
  ({ d with prot := { d.prot with poisoned := m } }).setEvent Reg.MEM_EVENTS 3

/-- A failed rank leaves service (R397, R398). -/
def Dev.rankLeaves (d : Dev) (rank : Nat) : Dev :=
  if d.rankState rank ≠ 0 then d
  else
    let i := ((List.range 32).find? fun i => d.flag (Reg.RANK_MAP i) 5 && d.fld (Reg.RANK_MAP i) 4 0 == rank).getD 0
    let d1 := d.persist 6 (leBytes 1 rank ++ leBytes 1 (i / 8) ++ leBytes 1 (i % 8) ++ leBytes 13 0)
    if d1.flag Reg.MEM_MIG 31 then
      { d1.setRankState rank 2 with prot := { d1.prot with waiting := d1.prot.waiting ++ [rank] } }
    else d1.startMigration rank

/-- A read of a frame is uncorrectable, or a command failed twice: the rank fails (R397). -/
def Dev.uncorrectable (d : Dev) (rank frame : Nat) (e : FrameErr) (source : Nat) : Dev :=
  let log := d.reg Reg.MEM_LOG_COUNT
  let d1 := (((d.poison rank frame).setEvent Reg.MEM_EVENTS 2).count (Reg.MEM_COUNT 2) 1).logError
    (if e.command then 4 else 3) 0 rank frame e.pchs 0xFFFF source
  let w (k : Nat) : Nat := d1.reg (memLog (log % 64) k)
  ((d1.queueTest rank frame log e.pchs).memRaise (rank / 4) 3 (w 0) (w 2)).rankLeaves rank

/-- An entry of the DRT is taken with its log record, or freed (R391, R392). -/
def Dev.drtTake (d : Dev) (i rank frame log pchs : Nat) : Dev :=
  { d with prot := { d.prot with drt := SMap.insert d.prot.drt i (log, pchs) } }.setReg (Reg.DRT_ENTRY i)
    (2 ^ 31 + rank * 2 ^ 21 + frame)
def Dev.drtFree (d : Dev) (i : Nat) : Dev :=
  { d with prot := { d.prot with drt := SMap.erase d.prot.drt i } }.setReg (Reg.DRT_ENTRY i) 0

/-- A correctable error is written back and tested (R390); a deferred entry of the frame is done with (R392). -/
def Dev.correct (d : Dev) (rank frame : Nat) (e : FrameErr) (source : Nat) : Dev :=
  let log := d.reg Reg.MEM_LOG_COUNT
  let d1 := ((d.count (Reg.MEM_COUNT 0) 1).setEvent Reg.MEM_EVENTS 0).logError 1 0 rank frame e.pchs e.symbols source
  let w (k : Nat) : Nat := d1.reg (memLog (log % 64) k)
  let d2 := (d1.queueTest rank frame log e.pchs).memRaise (rank / 4) 0 (w 0) (w 2)
  (List.range 32).foldl (fun x i =>
    if x.flag (Reg.DRT_ENTRY i) 31 && x.fld (Reg.DRT_ENTRY i) 25 0 == rank * 2 ^ 21 + frame then x.drtFree i else x) d2

/-- A correctable error met by a real-time port: the frame goes to the DRT, or is corrected at once when the DRT is
full (R391). -/
def Dev.defer (d : Dev) (rank frame : Nat) (e : FrameErr) (source : Nat) : Dev :=
  let key := 2 ^ 31 + rank * 2 ^ 21 + frame
  if (List.range 32).any fun i => d.reg (Reg.DRT_ENTRY i) == key then d
  else match (List.range 32).find? fun i => !d.flag (Reg.DRT_ENTRY i) 31 with
    | some i => ((d.drtTake i rank frame (d.reg Reg.MEM_LOG_COUNT) e.pchs).count (Reg.MEM_COUNT 1) 1).logError 2 0 rank
        frame e.pchs e.symbols source
    | none => ((d.correct rank frame e source).setEvent Reg.MEM_EVENTS 1).memRaise (rank / 4) 1 0 0

/-- Whether a frame that its rank cannot give is read from the spare to which it has been copied (R398). -/
def Dev.onSpare (d : Dev) (rank frame : Nat) : Bool :=
  d.rankState rank == 1 && d.flag Reg.MEM_MIG 31 && d.fld Reg.MEM_MIG 25 21 == rank &&
    decide (frame < d.fld Reg.MEM_MIG 20 0)

/-- A read of a frame by a client, the patrol or the migration copy, which shows `e` (R385, R390, R391, R397). A read that the
spare answers under R398 has not failed (DEDUCED, log entry 98). -/
def Dev.frameRead (d : Dev) (rank frame : Nat) (e : FrameErr) (rt : Bool) (source : Nat) : Dev :=
  if d.framePoison rank frame then d
  else if !d.frameCorrectable rank frame e then
    (if d.onSpare rank frame then d else d.uncorrectable rank frame e source)
  else if e.symbols = 0 then d
  else if rt then d.defer rank frame e source
  else d.correct rank frame e source

/-! ### Serving requests (R370, R371) -/

/-- A request's row: a hit, or a miss that opens the row in every pseudo-channel (R371, R383). -/
def Dev.openRow (d : Dev) (s sid frame : Nat) (x : PmAttr) : Dev :=
  let b := frameBank frame
  let hit := SMap.get (fun _ => 0) (d.ctl s).rows (rowKey 0 sid b) == frameRow frame + 1
  let d1 := d.pmEvent (16 + s) (if hit then 0x22 else 0x23) 1 x
  let rows := (List.range 32).foldl
    (fun m p => SMap.set (fun _ => 0) m (rowKey p sid b) (frameRow frame + 1)) (d1.ctl s).rows
  d1.setCtl s { d1.ctl s with rows := rows }

/-- A controller serves a request: the codeword is read, and the page's bytes are returned or merged (R385, R386,
R402); a write of a whole page merges with nothing. -/
def Dev.serve (d : Dev) (s : Nat) (q : MemReq) (e : FrameErr) : Dev :=
  let f := d.pageFrame (q.addr / 4096)
  let x : PmAttr := ⟨none, some (0x6000 + q.client), some (q.addr / 4096), none⟩
  let d0 := d.setCtl s { d.ctl s with lastReq := d.tb.dt }
  let d1 := ((d0.openRow s (f.1 % 4) f.2 x).pmEvent (16 + s) (if q.write then 0x21 else 0x20) q.len x).bwAdd
    (if q.write then Reg.PM_BW_MEM_WR_LO q.client else Reg.PM_BW_MEM_RD_LO q.client) q.len
  let whole := q.write && q.addr % 4096 == 0 && q.len == 4096
  let d2 := if whole then d1 else d1.frameRead f.1 f.2 e (!q.write && d1.isRtClient q.client) (if q.write then 3 else 0)
  if q.write then d2.dataWrite q.addr q.data
  else if d2.rangePoison q.addr q.len then (d2.poisonRead q.addr q.len).emit (.memRead q.client [] true)
  else d2.emit (.memRead q.client (d2.dataRead q.addr q.len) false)

/-- The class of a held request in the order of R371: 0 for a port in panic, 1 for one past AGE_MAX, 2 for an open row,
3 for the rest. -/
def Dev.reqClass (d : Dev) (s : Nat) (q : MemReq) : Nat :=
  let f := d.pageFrame (q.addr / 4096)
  if (List.range 8).any fun k => bit (d.panics s) k && d.fld (Reg.RT_PORT_SEL k) 3 0 == q.client && q.client != 0 then 0
  else if q.at_ + d.fld (Reg.MC_SCHED s) 31 16 * 65536 < d.tb.dt then 1
  else if SMap.get (fun _ => 0) (d.ctl s).rows (rowKey 0 (f.1 % 4) (frameBank f.2)) = frameRow f.2 + 1 then 2
  else 3

/-- Held requests are served in the order of R371, the oldest first within a class. -/
def Dev.serveHeld (d : Dev) (s : Nat) : Nat → Dev
  | 0 => d
  | n + 1 =>
    let l := (d.ctl s).held
    match (List.range 4).findSome? fun c => l.find? fun q => d.reqClass s q == c with
    | none => d
    | some q => ((d.setCtl s { d.ctl s with held := l.erase q }).serve s q ⟨0, 0, false⟩).serveHeld s n

/-- Every held request of a stack that has stopped is answered with an error response (R20). -/
def Dev.heldLost (d : Dev) (s : Nat) : Dev :=
  (d.ctl s).held.foldl (fun e q => e.emit (.memRead q.client [] true)) (d.setCtl s { d.ctl s with held := [] })

/-- Every held request of a stack is served. -/
def Dev.serveAll (d : Dev) (s : Nat) : Dev := d.serveHeld s (d.ctl s).held.length

/-- A request reaches a controller (R370, R371, R377, R378). -/
def Dev.memRequest (d : Dev) (m : MemIn) : Dev :=
  let s := m.stack
  let q : MemReq := ⟨m.client, m.write, m.addr, m.len, m.data, d.tb.dt⟩
  let st := d.mcState s
  if d.stackLost s then (d.raise 45 0).emit (.memRead m.client [] true)
  else if st = 3 ∨ st = 4 ∨ (st = 2 ∧ (d.ctl s).srFreq) then
    d.setCtl s { d.ctl s with held := (d.ctl s).held ++ [q] }
  else
    let d1 := if st = 2 then (d.setMcState s 0).setEvent (Reg.MC_EVENTS s) 1 else if st = 1 then d.setMcState s 0 else d
    d1.serve s q m.err

/-! ### Urgency and panic (R374-R376) -/

/-- A port's panic begins at a controller (R375, R378, R380). -/
def Dev.panicOn (d : Dev) (s k : Nat) : Dev :=
  let st := d.mcState s
  let c := d.ctl s
  let d1 := (d.setFlag (Reg.MC_STATE s) k true).setCtl s
    { c with panicAt := c.panicAt.set k (some d.tb.dt), panicSaid := c.panicSaid.set k false }
  if st = 1 then d1.setMcState s 0
  else if st = 2 ∧ c.srFreq then
    let arm := c.arm.map fun a => { a with begun := false }
    ((d1.setMcState s 0).setCtl s { d1.ctl s with srFreq := false, arm := arm }).serveAll s
  else if st = 2 then (d1.setMcState s 0).setEvent (Reg.MC_EVENTS s) 1
  else d1

/-- A port's panic ends; when none is left, the postponed refreshes are issued (R372, R375). -/
def Dev.panicOff (d : Dev) (s k : Nat) : Dev :=
  let c := d.ctl s
  let d1 := (d.setFlag (Reg.MC_STATE s) k false).setCtl s { c with panicAt := c.panicAt.set k none }
  if d1.panics s = 0 then d1.flushPostponed s else d1

/-- A client's urgency is reported (R375). -/
def Dev.urgency (d : Dev) (s k u : Nat) : Dev :=
  let d1 := d.setCtl s { d.ctl s with urgency := (d.ctl s).urgency.set k u }
  let inPanic := d.flag (Reg.MC_STATE s) k
  if !inPanic && d.fld (Reg.RT_PORT_SEL k) 3 0 != 0 && decide (d.fld (Reg.RT_THRESH s k) 13 8 ≤ u) then d1.panicOn s k
  else if inPanic && decide (u ≤ d.fld (Reg.RT_THRESH s k) 5 0) then d1.panicOff s k
  else d1

/-! ### Frequency changes (R379-R381) -/

/-- The DT in MC_FREQ_DT0 to MC_FREQ_DT2. -/
def Dev.freqDt (d : Dev) (s : Nat) : Nat :=
  (d.fld (Reg.MC_FREQ_DT2 s) 15 0 * 2 ^ 32 + d.reg (Reg.MC_FREQ_DT1 s)) * unitsPerSec +
    d.reg (Reg.MC_FREQ_DT0 s) * 65536

/-- Timing registers loaded with the values of a point (R381). -/
def Dev.loadTiming (d : Dev) (s p : Nat) (base : Nat → Nat → Nat) : Dev :=
  (List.range 6).foldl (fun e k => e.setReg (base s k) (memTiming p (2 * k + 1) * 65536 + memTiming p (2 * k))) d

/-- ARM (R379): an armed change that has begun is not replaced. -/
def Dev.freqArm (d : Dev) (s : Nat) : Dev :=
  if (d.ctl s).arm.any FreqArm.begun then d
  else
    let p := d.fld (Reg.MC_FREQ_POINT s) 1 0
    ((d.loadTiming s p Reg.MC_TIMING_SHADOW).setCtl s { d.ctl s with arm := some ⟨p, d.freqDt s, false⟩ }).setFlag
      (Reg.MC_STATE s) 29 true

/-- CANCEL (R379). -/
def Dev.freqCancel (d : Dev) (s : Nat) : Dev :=
  if (d.ctl s).arm.any FreqArm.begun then d
  else (d.setCtl s { d.ctl s with arm := none }).setFlag (Reg.MC_STATE s) 29 false

/-- The change has completed (R380). -/
def Dev.freqDone (d : Dev) (s : Nat) : Dev :=
  ((d.setCtl s { d.ctl s with arm := none, srFreq := false, locked := false }).setFlag (Reg.MC_STATE s) 29
    false).setEvent (Reg.MC_EVENTS s) 2

/-- The armed change begins at its DT, or waits while a port is in panic (R379, R380). -/
def Dev.freqStart (d : Dev) (s : Nat) : Dev :=
  match (d.ctl s).arm with
  | none => d
  | some a =>
    let d1 := d.advanceDue a.at_
    if a.begun then d1
    else if a.target = d1.fld (Reg.MC_STATE s) 31 30 then d1.freqDone s
    else if d1.panics s ≠ 0 ∨ d1.mcState s = 5 then d1
    else
      let c := (d1.closeRows s).ctl s
      let d2 := (d1.closeRows s).setCtl s { c with arm := some ⟨a.target, a.at_, true⟩, srFreq := true, locked := false }
      let d3 := if d1.mcState s = 3 then d2 else d2.setMcState s 2
      if d1.late a.at_ then d3.setEvent (Reg.MC_EVENTS s) 3 else d3

/-- The self-refresh entry command is issued (R377). -/
def Dev.srIssue (d : Dev) (s : Nat) : Dev :=
  ((d.closeRows s).setMcState s 3).setCtl s { (d.closeRows s).ctl s with srAt := d.tb.dt }

/-! ### Address map (R368, R387) -/

/-- The tile that fails the capacity check, the lowest first (R368, R387, R388). -/
def Dev.capFail (d : Dev) : Option Nat :=
  (List.range 4).find? fun t =>
    let n := mapRanks d.spareCount t
    decide (n * d.codeF < d.quarters t 192 * 65536 + 262144 + n * 16384)

/-- MAP_TILE, RANK_MAP and the spares' states follow SPARES and the sections while the map is closed (R365, R369). -/
def Dev.mapFollow (d : Dev) : Dev :=
  let sp := d.spareCount
  let d1 := (List.range 4).foldl (fun e t => e.setReg (Reg.MAP_TILE t) (mapRanks sp t * 65536 + e.quarters t 192)) d
  let d2 := (List.range 32).foldl (fun e i =>
    e.setReg (Reg.RANK_MAP i) (b2n (i % 8 < mapRanks sp (i / 8)) * 32 + mapRank0 (i / 8) (i % 8))) d1
  ((List.range 32).foldl (fun e r => e.setRankState r (if isSpare sp r then 5 else 0)) d2).spareRegs

/-- Setting MAP_CTRL.ENABLE from 0 to 1, with the value's SPARES taken first (R92, R368). -/
def Dev.mapEnable (d : Dev) : Dev :=
  match d.capFail with
  | some t => (d.setReg Reg.MAP_STATUS (t * 4 + 2 + b2n (d.flag Reg.MAP_STATUS 0))).reject 48
  | none =>
    ((d.setFld Reg.MAP_STATUS 3 1 0).setFlag Reg.MAP_CTRL 0 true).setFlag (Reg.BLK_STATE 48) 2 false

/-! ### Self-test, patrol and migration (R392-R400) -/

/-- The oldest waiting self-test of a stack runs; `bad` are the pseudo-channels that mismatch (R393). -/
def Dev.selfTest (d : Dev) (s bad : Nat) : Dev :=
  match (d.ctl s).tests with
  | [] => d
  | q :: r =>
    if d.panics s ≠ 0 then d
    else
      let d1 := d.setCtl s { d.ctl s with tests := r }
      let hit := Nat.land bad q.pchs
      let d2 := if d1.reg Reg.MEM_LOG_COUNT - q.log ≤ 64 then
          d1.setFld (memLog (q.log % 64) 0) 27 26 (if hit = 0 then 1 else 2) else d1
      if hit = 0 then d2
      else
        let chans := (List.range 32).foldl (fun m p => if bit hit p then m ||| 2 ^ (p / 2) else m) 0
        let m := SMap.upd (fun _ => 0) d2.prot.badChans q.rank (fun x => Nat.lor x chans)
        ({ d2 with prot := { d2.prot with badChans := m } }).memRaise s 2
          (d2.reg (memLog (q.log % 64) 0)) (d2.reg (memLog (q.log % 64) 2))

/-- The DRT entries of a stack are repaired while no port is in panic (R392). -/
def Dev.repairDrt (d : Dev) (s : Nat) : Dev :=
  if d.panics s ≠ 0 then d
  else (List.range 32).foldl (fun x i =>
    if x.flag (Reg.DRT_ENTRY i) 31 && x.fld (Reg.DRT_ENTRY i) 25 23 == s then
      let r := x.fld (Reg.DRT_ENTRY i) 25 21
      let f := x.fld (Reg.DRT_ENTRY i) 20 0
      let l := (SMap.find x.prot.drt i).getD (0, 0)
      (x.queueTest r f l.1 l.2).drtFree i
    else x) d

/-- The patrol's states (R394). -/
def patrolled (st : Nat) : Bool := st == 0 || st == 1 || st == 4 || st == 5

/-- MC_SCRUB_POS moves to the next frame of the next patrolled rank; a pass ends after the last (R394). -/
def Dev.patrolNext (d : Dev) (s : Nat) : Dev :=
  let sid := d.fld (Reg.MC_SCRUB_POS s) 22 21
  let f := d.fld (Reg.MC_SCRUB_POS s) 20 0
  if patrolled (d.rankState (4 * s + sid)) && decide (f + 1 < d.codeF) then
    d.setReg (Reg.MC_SCRUB_POS s) (sid * 2 ^ 21 + f + 1)
  else match ((List.range 4).filter (sid < ·)).find? fun i => patrolled (d.rankState (4 * s + i)) with
    | some i => d.setReg (Reg.MC_SCRUB_POS s) (i * 2 ^ 21)
    | none => (d.setReg (Reg.MC_SCRUB_POS s)
        (((List.range 4).find? fun i => patrolled (d.rankState (4 * s + i))).getD 0 * 2 ^ 21)).count
        (Reg.MC_SCRUB_PASSES s) 1

/-- Interval of the patrol's frames for a pass of `h` hours (R394). -/
def Dev.patrolPeriod (d : Dev) (s h : Nat) : Nat :=
  h * 3600 * unitsPerSec / max 1 (((List.range 4).filter fun i => patrolled (d.rankState (4 * s + i))).length * d.codeF)

/-- The next patrol frame, which shows `e` (R394). -/
def Dev.patrol (d : Dev) (s : Nat) (e : FrameErr) : Dev :=
  let d1 := d.repairDrt s
  let h := d1.fld (Reg.MC_SCRUB s) 7 0
  if h = 0 then d1
  else
    let p := d1.patrolPeriod s h
    let x := match (d1.ctl s).patrol with
      | some y => if y.period = p then y else Series.start p d1.tb.dt
      | none => Series.start p d1.tb.dt
    let d2 := d1.advanceTo x.next
    let d3 := d2.setCtl s { d2.ctl s with patrol := some x.fire }
    let r := 4 * s + d3.fld (Reg.MC_SCRUB_POS s) 22 21
    let f := d3.fld (Reg.MC_SCRUB_POS s) 20 0
    let d4 := if !patrolled (d3.rankState r) then d3
      else if d3.rankState r = 5 ∧ !d3.frameCorrectable r f e then d3.spareFail r
      else d3.frameRead r f e false 1
    d4.patrolNext s

/-- The copy of a migration ends (R369, R399). The reserve frames in use move with the rank. -/
def Dev.migrationDone (d : Dev) (rank sp : Nat) : Dev :=
  let d1 := (List.range 32).foldl (fun x i =>
    if x.flag (Reg.RANK_MAP i) 5 && x.fld (Reg.RANK_MAP i) 4 0 == rank then
      (let y := x.setFld (Reg.RANK_MAP i) 4 0 sp
       if sp / 8 = i / 8 then y else y.setFlag Reg.MAP_STATUS 0 true) else x) d
  let used := d1.fld (Reg.RETIRED_PAGES rank) 14 0
  let d1 := (d1.setFld (Reg.RETIRED_PAGES sp) 14 0 used).setFld (Reg.RETIRED_PAGES rank) 14 0 0
  let d2 := ((((d1.setRankState rank 3).setRankState sp 0).setReg Reg.MEM_MIG 0).setEvent Reg.MEM_EVENTS 5).spareRegs
  d2.nextMigration d2.prot.waiting

/-- The migration copies its next frame (R399, R400). -/
def Dev.migrationFrame (d : Dev) (e : FrameErr) (spareBad : Bool) : Dev :=
  if !d.flag Reg.MEM_MIG 31 then d
  else
    let rank := d.fld Reg.MEM_MIG 25 21
    let sp := d.fld Reg.MEM_MIG 30 26
    let f := d.fld Reg.MEM_MIG 20 0
    let d0 := d.advanceTo (d.tb.dt + (4096 + 3 * d.codeT) * 65536 / max 1 (d.fld Reg.MEM_MIG_CTRL 7 0))
    if spareBad then
      let d1 := (d0.spareFail sp).setReg Reg.MEM_MIG 0
      let d2 := { d1 with prot := { d1.prot with poisoned := d1.prot.poisoned.filter fun x => x.1 / 2 ^ 21 != sp } }
      let d3 := d2.startMigration rank
      if d3.flag Reg.MEM_MIG 31 then d3 else d3.nextMigration d3.prot.waiting
    else
      let d1 := d0.frameRead rank f e false 2
      let d2 := if d1.framePoison rank f then d1.poison sp f else d1
      let d3 := d2.setFld Reg.MEM_MIG 20 0 (f + 1)
      if f + 1 < d3.codeF then d3 else d3.migrationDone rank sp

/-! ### Meanings -/

/-- MEM_REQUEST (R370, R371, R385-R391): an address outside the data space does not exist (R365). -/
def execMemRequest (q : MemIn) (s : State) : Host.Outcome State Fault Refusal :=
  if dataSpace < q.addr + q.len then .fault (.outsideDataSpace q.addr)
  else s.act fun d => (d.advanceTo q.t).memRequest q

/-- REFRESH_DUE (R372). -/
def execRefreshDue (stack sid : Nat) (s : State) : Host.Outcome State Fault Refusal :=
  s.keep fun d => (d.refreshDue stack sid).safePoint (40 + stack) 0

/-- STACK_TEMP_READ (R373). -/
def execStackTempRead (stack : Nat) (temp : Int) (s : State) : Host.Outcome State Fault Refusal :=
  s.keep fun d =>
    if 85 < temp then (d.setFlag (Reg.MC_STATE stack) 28 true).setEvent (Reg.MC_EVENTS stack) 0
    else if temp < 80 then d.setFlag (Reg.MC_STATE stack) 28 false
    else d

/-- URGENCY_REPORT (R375). -/
def execUrgencyReport (stack port urgency t : Nat) (s : State) : Host.Outcome State Fault Refusal :=
  s.act fun d => (d.advanceTo t).urgency stack port urgency

/-- PANIC_LONG (R376): once per panic. -/
def execPanicLong (stack port : Nat) (s : State) : Host.Outcome State Fault Refusal :=
  s.act fun d =>
    match (d.ctl stack).panicAt.getD port none with
    | none => d
    | some t =>
      if (d.ctl stack).panicSaid.getD port false then d
      else
        let e := d.advanceTo (t + d.fld (Reg.MC_PANIC stack) 31 16 * unitsPerUs)
        ((e.setCtl stack { e.ctl stack with panicSaid := (e.ctl stack).panicSaid.set port true }).setEvent
          (Reg.MC_EVENTS stack) 4).memRaise stack 6 port 0

/-- POWER_DOWN_ENTRY (R377). -/
def execPowerDownEntry (stack t : Nat) (s : State) : Host.Outcome State Fault Refusal :=
  s.act fun d0 =>
    let d := d0.advanceTo t
    let n := d.fld (Reg.MC_CTRL stack) 15 8
    if n ≠ 0 ∧ d.mcState stack = 0 ∧ d.panics stack = 0 ∧ (d.ctl stack).held = [] ∧
        (d.ctl stack).lastReq + d.hbmTime stack (64 * n) ≤ d.tb.dt then
      (d.closeRows stack).setMcState stack 1
    else d

/-- SELF_REFRESH_ENTRY (R377, R378): the entry begins with the drain and the all-bank precharge; `issued` is its third
step, the entry command. -/
def execSelfRefreshEntry (stack : Nat) (issued : Bool) (t : Nat) (s : State) : Host.Outcome State Fault Refusal :=
  s.act fun d0 =>
    let d := d0.advanceTo t
    let n := d.fld (Reg.MC_CTRL stack) 31 16
    let st := d.mcState stack
    if d.panics stack ≠ 0 then d
    else if st = 2 then (if issued then d.srIssue stack else d)
    else if n ≠ 0 ∧ (st = 0 ∨ st = 1) ∧ (d.ctl stack).held = [] ∧
        (d.ctl stack).lastReq + n * unitsPerUs ≤ d.tb.dt then
      (if issued then d.srIssue stack else (d.closeRows stack).setMcState stack 2)
    else d

/-- SELF_REFRESH_EXIT (R378, R380): after SR_MIN, and the PLL relock of a frequency change; an idle exit serves the held
requests once the exit time of 360 ns has passed, a frequency change goes on to PHY training. -/
def execSelfRefreshExit (stack : Nat) (s : State) : Host.Outcome State Fault Refusal :=
  s.act fun d =>
    let c := d.ctl stack
    if d.mcState stack ≠ 3 then d
    else if c.srFreq then
      (if c.locked then (d.advanceTo (c.srAt + 2 * unitsPerUs)).setMcState stack 4 else d)
    else
      let e := d.advanceTo (c.srAt + 2 * unitsPerUs)
      ((e.advanceTo (e.tb.dt + 360 * 65536)).setMcState stack 0).serveAll stack

/-- FREQ_CHANGE_START (R379, R380). -/
def execFreqChangeStart (stack : Nat) (s : State) : Host.Outcome State Fault Refusal :=
  s.act fun d => d.freqStart stack

/-- PLL_RELOCK (R380): the shadow timing becomes active and POINT the target. -/
def execPllRelock (stack t : Nat) (s : State) : Host.Outcome State Fault Refusal :=
  s.act fun d =>
    match (d.ctl stack).arm with
    | none => d
    | some a =>
      if (d.ctl stack).srFreq ∧ d.mcState stack = 3 then
        let e := d.advanceTo t
        (((List.range 6).foldl (fun x k =>
          x.setReg (Reg.MC_TIMING_ACTIVE stack k) (x.reg (Reg.MC_TIMING_SHADOW stack k))) e).setFld
          (Reg.MC_STATE stack) 31 30 a.target).setCtl stack { e.ctl stack with locked := true }
      else d

/-- PHY_TRAINING_DONE (R380): held requests are served and FREQ_DONE sets. -/
def execPhyTrainingDone (stack t : Nat) (s : State) : Host.Outcome State Fault Refusal :=
  s.act fun d =>
    if (d.ctl stack).srFreq ∧ d.mcState stack = 4 then
      (((d.advanceTo t).setMcState stack 0).freqDone stack).serveAll stack
    else d

/-- SELF_TEST (R393). -/
def execSelfTest (stack bad : Nat) (s : State) : Host.Outcome State Fault Refusal :=
  s.act fun d => d.selfTest stack bad

/-- PATROL_SCRUB (R392, R394). -/
def execPatrolScrub (stack : Nat) (e : FrameErr) (s : State) : Host.Outcome State Fault Refusal :=
  s.act fun d => d.patrol stack e

/-- MIGRATION_COPY (R399, R400). -/
def execMigrationCopy (e : FrameErr) (spareBad : Bool) (s : State) : Host.Outcome State Fault Refusal :=
  s.act fun d => d.migrationFrame e spareBad

def stMemRefused : Nat := 0x0160

/-- A refused memory command with its cause (R396). -/
def memRefused (cause : Nat) : Result := ⟨stMemRefused, 0, cause, 0⟩

/-- Whether a rank may be retired from (R396): IN_SERVICE or HALF_MAST. -/
def Dev.rankUsable (d : Dev) (r : Nat) : Bool := d.rankState r == 0 || d.rankState r == 4

/-- RETIRE_PAGE (R388, R395, R396): the page moves to a reserve frame and keeps its POISONED mark. -/
def Dev.retirePage (d : Dev) (a : Nat) : Dev × Result :=
  let p := a / 4096
  if dataSpace ≤ a then (d, memRefused 1)
  else if (SMap.find d.prot.retired p).isSome then (d, ⟨stOk, 0, 1, 0⟩)
  else
    let l := d.pageLogical p
    let f := d.pageFrame p
    let used := SMap.get (fun _ => 0) d.prot.reserve (8 * l.1 + l.2.1)
    if 16384 ≤ used then (d, memRefused 4)
    else if !d.rankUsable f.1 then (d, memRefused 5)
    else
      let nf := d.codeF - 16384 + used
      let d1 := { d with prot := { d.prot with
        retired := SMap.insert d.prot.retired p nf,
        reserve := SMap.set (fun _ => 0) d.prot.reserve (8 * l.1 + l.2.1) (used + 1),
        poisoned := if d.framePoison f.1 f.2 then
            SMap.set (fun _ => false) d.prot.poisoned (f.1 * 2 ^ 21 + nf) true else d.prot.poisoned } }
      ((d1.setFld (Reg.RETIRED_PAGES f.1) 14 0 (used + 1)).persist 3 (leBytes 8 a ++ leBytes 8 0), resOf stOk)

/-- RETIRE_BANK (R389, R395, R396). -/
def Dev.retireBank (d : Dev) (rank pch bank : Nat) : Dev × Result :=
  if d.codeT < 64 then (d, memRefused 2)
  else if d.prot.banks.contains (rank, pch, bank) then (d, resOf stOk)
  else if d.erasedChans rank ≠ 0 ∨ (if d.codeT = 128 then 2 else 1) ≤ d.retiredBanks rank then (d, memRefused 3)
  else if !d.rankUsable rank then (d, memRefused 5)
  else
    (({ d with prot := { d.prot with banks := d.prot.banks ++ [(rank, pch, bank)] } }).setFld
      (Reg.RANK_STATE rank) 9 8 (d.retiredBanks rank + 1) |>.persist 4
      (leBytes 1 rank ++ leBytes 1 pch ++ leBytes 1 bank ++ leBytes 13 0), resOf stOk)

/-- DECLARE_ERASURE (R389, R395, R396). -/
def Dev.declareErasure (d : Dev) (rank chan : Nat) : Dev × Result :=
  if d.codeT < 128 then (d, memRefused 2)
  else if bit (d.erasedChans rank) chan then (d, resOf stOk)
  else if d.erasedChans rank ≠ 0 ∨ d.retiredBanks rank ≠ 0 then (d, memRefused 3)
  else if !d.rankUsable rank then (d, memRefused 5)
  else (d.erase rank chan, resOf stOk)

/-- POISON_CLEAR (R395, R402, R411): zeros are written and the mark is cleared; a quarantined buffer that has no
POISONED page left becomes FREE. On a migrating rank the spare's copy is cleared too. -/
def Dev.poisonClear (d : Dev) (a : Nat) : Dev × Result :=
  if dataSpace ≤ a then (d, memRefused 1)
  else
    let f := d.pageFrame (a / 4096)
    let clr (m : SMap Bool) (r : Nat) : SMap Bool := SMap.set (fun _ => false) m (r * 2 ^ 21 + f.2) false
    let m1 := clr d.prot.poisoned f.1
    let m2 := if d.flag Reg.MEM_MIG 31 ∧ d.fld Reg.MEM_MIG 25 21 = f.1 then clr m1 (d.fld Reg.MEM_MIG 30 26) else m1
    ((({ d with prot := { d.prot with poisoned := m2 } }).dataPut a (List.replicate 4096 0)).unquarantine (a / 4096),
      resOf stOk)

/-- The format of a memory command that names a page (R395). -/
def pageFormat (x : Desc) : Bool := noLength x && zeroAt x 8 8 && Desc.le x 16 8 % 4096 == 0 && zeroAt x 24 40

/-- RETIRE_PAGE (R395). -/
def execRetirePage (o : RingOp) (s : State) : Host.Outcome State Fault Refusal :=
  s.act fun d => d.runAdmin o levelOne pageFormat fun e op => e.retirePage (Desc.le op.desc 16 8)

/-- RETIRE_BANK (R395). -/
def execRetireBank (o : RingOp) (s : State) : Host.Outcome State Fault Refusal :=
  s.act fun d => d.runAdmin o levelOne
    (fun x => noLength x && Desc.field x 8 7 5 == 0 && Desc.field x 9 7 5 == 0 && Desc.field x 10 7 4 == 0 &&
      zeroAt x 11 53) fun e op =>
    e.retireBank (Desc.field op.desc 8 4 0) (Desc.field op.desc 9 4 0) (Desc.field op.desc 10 3 0)

/-- DECLARE_ERASURE (R395). -/
def execDeclareErasure (o : RingOp) (s : State) : Host.Outcome State Fault Refusal :=
  s.act fun d => d.runAdmin o levelOne
    (fun x => noLength x && Desc.field x 8 7 5 == 0 && Desc.field x 9 7 4 == 0 && zeroAt x 10 54) fun e op =>
    e.declareErasure (Desc.field op.desc 8 4 0) (Desc.field op.desc 9 3 0)

/-- POISON_CLEAR (R395). -/
def execPoisonClear (o : RingOp) (s : State) : Host.Outcome State Fault Refusal :=
  s.act fun d => d.runAdmin o levelOne pageFormat fun e op => e.poisonClear (Desc.le op.desc 16 8)

end Sys2Proof.Machine
end

