-- ==== Sys2Proof/Machine/DmaOps.lean ====
section
/-! DEFINITION. The DMA engine (spec/18_dma_engine.md) and the commands of its family that need no register write. -/

namespace Sys2Proof.Machine

def stDmaRange : Nat := 0x0180

def Dev.dmaChan (d : Dev) (c : Nat) : DmaChan := SMap.get (fun _ => dmaChanReset) d.dma.chans c
def Dev.setDmaChan (d : Dev) (c : Nat) (x : DmaChan) : Dev :=
  { d with dma := { d.dma with chans := SMap.set (fun _ => dmaChanReset) d.dma.chans c x } }

/-- DMA_STATE.ENGINE: 0 RUNNING, 1 STOPPING, 2 STOPPED (R439). -/
def Dev.dmaEngine (d : Dev) : Nat := d.fld Reg.DMA_STATE 1 0
def Dev.setDmaEngine (d : Dev) (x : Nat) : Dev := d.setFld Reg.DMA_STATE 1 0 x

def Dev.dmaEn (d : Dev) (c : Nat) : Bool := d.flag (Reg.DMA_CH_CFG c) 31
def Dev.dmaSpace (d : Dev) (c : Nat) : Nat := d.fld (Reg.DMA_CH_CFG c) 30 30
def Dev.dmaSel (d : Dev) (c : Nat) : Nat := d.fld (Reg.DMA_CH_CFG c) 28 24
def Dev.dmaReqs (d : Dev) (c : Nat) : Nat := d.fld (Reg.DMA_CH_STATUS c) 31 16

/-- Bytes of an address space: 0 host bus, 1 data space (R429). -/
def Dev.spaceRead (d : Dev) (sp a n : Nat) : List Byte := if sp = 0 then d.hostRead a n else d.dataRead a n
def Dev.spaceWrite (d : Dev) (sp a : Nat) (l : List Byte) : Dev := if sp = 0 then d.hostPut pmDma a l else d.dataWrite a l

/-! ### Descriptors (R428-R430) -/

def dmaSrcSpace (x : Desc) : Nat := Desc.field x 8 0 0
def dmaDstSpace (x : Desc) : Nat := Desc.field x 8 1 1
def dmaNoPace (x : Desc) : Bool := Desc.field x 8 2 2 == 1
def dmaBytes (x : Desc) : Nat := if opcodeOf x = 0 then 0 else Desc.le x 12 4
def dmaSrc (x : Desc) : Nat := Desc.le x 16 8
def dmaDst (x : Desc) : Nat := Desc.le x 24 8

/-- The status a descriptor earns at fetch (R428, R430): 0 when it may run. -/
def dmaCheck (x : Desc) : Nat :=
  let head := flagChain x || flagForceKey x || bits (Desc.byte x 1) 7 4 != 0 || lengthOf x != 0
  if opcodeOf x = 0 then when_ (head || !zeroAt x 8 56) stMalformed
  else if opcodeOf x = 0x90 ∨ opcodeOf x = 0x91 then
    worst [when_ (head || Desc.field x 8 7 3 != 0 || !zeroAt x 9 3 || !zeroAt x 32 32) stMalformed,
      when_ (opcodeOf x == 0x91 && dmaSrcSpace x != 0) stMalformed,
      when_ (decide (2 ^ 30 < dmaBytes x)) stMalformed,
      when_ (opcodeOf x == 0x90 && dmaSrcSpace x == 1 && decide (dataSpace < dmaSrc x + dmaBytes x)) stDmaRange,
      when_ (dmaDstSpace x == 1 && decide (dataSpace < dmaDst x + dmaBytes x)) stDmaRange]
  else stMalformed

/-- Whether a COPY's ranges overlap in one space (R429). -/
def dmaOverlap (x : Desc) : Bool :=
  opcodeOf x == 0x90 && dmaSrcSpace x == dmaDstSpace x &&
  decide (dmaSrc x < dmaDst x + dmaBytes x) && decide (dmaDst x < dmaSrc x + dmaBytes x)

/-- A descriptor just fetched. -/
def dmaFetched (x : Desc) : DmaDesc := ⟨x, 0, 0, [], dmaCheck x, false, false, none, false⟩

/-- Bytes of a descriptor that no burst has taken. -/
def DmaDesc.left (x : DmaDesc) : Nat := if x.refused ≠ 0 ∨ x.stop ∨ x.halted then 0 else dmaBytes x.desc - x.issued

/-! ### Channel state (R427) -/

/-- Whether a channel's bursts need a request (R431): not when FREE, with NO_PACE, or once EN or ENABLE has fallen
(R427). -/
def Dev.dmaPaced (d : Dev) (c : Nat) (x : DmaDesc) : Bool :=
  d.dmaSel c != 0 && !dmaNoPace x.desc && d.dmaEn c && d.flag Reg.DMA_CTRL 0

/-- The first descriptor with bytes left. -/
def DmaChan.front (x : DmaChan) : Option DmaDesc := x.descs.find? fun y => decide (0 < y.left)

/-- Transactions of a channel that have not returned. -/
def DmaChan.inFlight (x : DmaChan) : Nat := (x.descs.map fun y => y.flight.length).sum

/-- Bursts of a channel in flight (R423): a barrier read is none. -/
def DmaChan.bursts (x : DmaChan) : Nat := (x.descs.map fun y => (y.flight.filter fun e => e.2.2 != 2).length).sum

/-- The state that DMA_CH_STATUS reports (R427). -/
def Dev.dmaStateOf (d : Dev) (c : Nat) : Nat :=
  let x := d.dmaChan c
  if !d.dmaEn c && x.descs.isEmpty then 0
  else if d.dmaEngine ≠ 0 then 6
  else if x.stopped then 5
  else if x.cqWait then 4
  else if x.descs.isEmpty then 1
  else match x.front with
    | some y => if x.inFlight = 0 ∧ d.dmaPaced c y ∧ d.dmaReqs c = 0 then 2 else 3
    | none => 3

/-- DMA_CH_STATUS follows; a disabled channel with nothing left is DISABLED, and the block is quiesced when it is off
and nothing is left (R427, R442). -/
def Dev.dmaFollow (d : Dev) : Dev :=
  (List.range 64).foldl (fun e c => e.setFld (Reg.DMA_CH_STATUS c) 2 0 (e.dmaStateOf c)) d

/-! ### Completion (R435-R438) -/

/-- Whether every transaction of a descriptor has returned and nothing of it is left. -/
def DmaDesc.spent (x : DmaDesc) : Bool := x.flight.isEmpty && decide (x.left = 0)

/-- The result of a descriptor (R430, R435-R439). -/
def DmaDesc.result (x : DmaDesc) : Result :=
  let st := worst [x.refused, when_ x.poisoned stPoison, when_ x.busError.isSome stBus,
    when_ (x.halted && x.busError.isNone) stStopped,
    when_ (opcodeOf x.desc != 0 && dmaBytes x.desc == 0 && x.refused == 0) stZero]
  match x.busError with
  | some (det, a) => ⟨st, x.done, det, a⟩
  | none => ⟨st, x.done, 0, 0⟩

/-- The 32 bytes of a DMA completion record (R437). -/
def dmaRecord (c : Nat) (x : Desc) (r : Result) (dt phase : Nat) : List Byte :=
  leBytes 4 (tagOf x) ++ leBytes 2 r.status ++ leBytes 1 (opcodeOf x) ++ leBytes 1 0 ++ leBytes 4 r.done ++
  leBytes 2 c ++ leBytes 2 r.detail ++ leBytes 8 (dtStamp dt) ++ leBytes 4 r.aux ++ leBytes 2 0 ++ leBytes 1 0 ++
  leBytes 1 phase

/-- Address of a channel's ring record, ring and queue. -/
def Dev.dmaRec (d : Dev) (c : Nat) : Nat := d.pair64 (Reg.DMA_CH_REC_LO c) (Reg.DMA_CH_REC_HI c)
def Dev.dmaRing (d : Dev) (c : Nat) : Nat := d.pair64 (Reg.DMA_CH_RING_LO c) (Reg.DMA_CH_RING_HI c)
def Dev.dmaCq (d : Dev) (c : Nat) : Nat := d.pair64 (Reg.DMA_CH_CQ_LO c) (Reg.DMA_CH_CQ_HI c)
def Dev.dmaCqSize (d : Dev) (c : Nat) : Nat := 2 ^ d.fld (Reg.DMA_CH_CFG c) 4 0

/-- A bus error, of a descriptor or of none (R439-R441): the first one puts the engine into STOPPING. -/
def Dev.dmaError (d : Dev) (c : Nat) (desc : Bool) (detail addr : Nat) : Dev :=
  if d.dmaEngine = 0 then
    ({ d with dma := { d.dma with first := some (c, desc, detail, addr) } }).setDmaEngine 1
  else d

/-- Whether `n` bytes of a channel's ring, record or queue lie on a stack that has stopped (R20, R441). -/
def Dev.dmaGone (d : Dev) (c a n : Nat) : Bool := d.dmaSpace c == 1 && d.rangeLost a n

/-- DETAIL of a Halyard error on a read and on a write that belong to no descriptor (R440, R441). -/
def haltRead : Nat := 0x05
def haltWrite : Nat := 0x15

/-- The status half of a channel's ring record (R61, R426). -/
def Dev.dmaWriteStatus (d : Dev) (c : Nat) : Dev :=
  let x := d.dmaChan c
  if d.dmaGone c (d.dmaRec c + 32) 32 then d.dmaError c false haltWrite (d.dmaRec c + 32)
  else d.spaceWrite (d.dmaSpace c) (d.dmaRec c + 32)
    (leBytes 4 x.ci ++ leBytes 2 x.epoch ++ leBytes 2 (2 * b2n x.stopped + 4 * b2n x.indexError + 8 * b2n x.cqWait) ++
      leBytes 8 (dtStamp d.tb.dt) ++ leBytes 16 0)

/-- A completion record is written; one whose write fails is lost (R441). -/
def Dev.dmaPutRecord (d : Dev) (c : Nat) (y : DmaDesc) (written : Nat) : Dev :=
  let a := d.dmaCq c + written % d.dmaCqSize c * 32
  if d.dmaGone c a 32 then (d.setEvent Reg.DMA_EVENTS 2).dmaError c false haltWrite a
  else d.spaceWrite (d.dmaSpace c) a (dmaRecord c y.desc y.result d.tb.dt (1 - written / d.dmaCqSize c % 2))

/-- Descriptors that are over complete in order while the queue has room (R66, R67, R426, R435). -/
def Dev.dmaComplete (d : Dev) (c : Nat) : Nat → Dev
  | 0 => d
  | n + 1 =>
    let x := d.dmaChan c
    match x.descs with
    | [] => d
    | y :: r =>
      if !y.spent then d
      else if d.pins.fatalStop then d
      else if d.dmaCqSize c ≤ x.written - x.consumed then
        (if x.cqWait then d else (d.setDmaChan c { x with cqWait := true }).dmaWriteStatus c)
      else
        let d1 := d.dmaPutRecord c y x.written
        let d2 := (d1.setDmaChan c { x with descs := r, written := x.written + 1 }).pmEvent 38 0x60 1
          pmDma
        (d2.intEdge (640 + c) (flagWake y.desc)).dmaComplete c n

/-- Completions of a channel that may go are written. -/
def Dev.dmaSettle (d : Dev) (c : Nat) : Dev := d.dmaComplete c (d.dmaChan c).descs.length

/-! ### Polling and fetching (R426, R430) -/

/-- A barrier read follows the last write to a host destination (R436), or stands alone where nothing is moved (R70, R430). -/
def DmaDesc.barrier (y : DmaDesc) : DmaDesc :=
  if flagBarrier y.desc && dmaDstSpace y.desc == 0 && y.refused == 0 && y.flight.isEmpty && decide (y.left = 0) &&
      (decide (0 < y.done) || dmaBytes y.desc == 0) then
    { y with flight := [(y.done, 0, 2)] }
  else y

/-- Channel `c` has read `n` bytes of its records or its ring, which may lie in host memory. -/
def Dev.dmaIn (d : Dev) (c n : Nat) : Dev := if d.dmaSpace c = 0 then d.pcieIn n pmDma else d

/-- A descriptor is fetched into a channel; one that moves nothing has its barrier at once. -/
def Dev.dmaTake (d : Dev) (c : Nat) (y : Desc) : Dev :=
  let x := d.dmaChan c
  let z := if dmaBytes y = 0 then (dmaFetched y).barrier else dmaFetched y
  (d.dmaIn c 64).setDmaChan c { x with descs := x.descs ++ [z], ci := (x.ci + 1) % 2 ^ 32 }

/-- Descriptors from CI up to PI, at most 8 ahead (R423). -/
def Dev.dmaFetch (d : Dev) (c : Nat) : Nat → Dev
  | 0 => d
  | n + 1 =>
    let x := d.dmaChan c
    if 8 ≤ x.descs.length ∨ x.ci = x.lastPi then d
    else
      let a := d.dmaRing c + x.ci % 2 ^ d.fld (Reg.DMA_CH_CFG c) 12 8 * 64
      if d.dmaGone c a 64 then d.dmaError c false haltRead a
      else (d.dmaTake c (BitVec.ofNat 512 (leNum (d.spaceRead (d.dmaSpace c) a 64)))).dmaFetch c n

/-- Whether a channel fetches: enabled, the engine running, its ring not stopped (R426, R427, R439). -/
def Dev.dmaFetches (d : Dev) (c : Nat) : Bool :=
  d.dmaEn c && d.flag Reg.DMA_CTRL 0 && d.dmaEngine == 0 && !(d.dmaChan c).stopped

/-- The head record of a full queue is read (R67), whether or not the channel still fetches; not while the engine is
STOPPING. -/
def Dev.dmaHead (d : Dev) (c : Nat) : Dev :=
  let x := d.dmaChan c
  if d.dmaEngine = 1 then d
  else if x.cqWait && d.dmaGone c (d.dmaCq c - 64) 8 then d.dmaError c false haltRead (d.dmaCq c - 64)
  else if x.cqWait then
    let used := (x.written % 2 ^ 32 + 2 ^ 32 - leNum (d.spaceRead (d.dmaSpace c) (d.dmaCq c - 64) 4)) % 2 ^ 32
    if used < d.dmaCqSize c then
      (((d.dmaIn c 4).setDmaChan c { x with consumed := x.written - used, cqWait := false }).dmaWriteStatus c).dmaSettle c
    else d.dmaIn c 4
  else d

/-- A poll of a channel's ring record (R62, R426). -/
def Dev.dmaPoll (d : Dev) (c : Nat) : Dev :=
  let d0 := d.dmaHead c
  if !d0.dmaFetches c then d0
  else if d0.dmaGone c (d0.dmaRec c) 64 then d0.dmaError c false haltRead (d0.dmaRec c)
  else
    let d1 := d0.dmaIn c 6
    let x := d1.dmaChan c
    let rec_ := d1.spaceRead (d1.dmaSpace c) (d1.dmaRec c) 6
    let pi := leNum (rec_.take 4)
    if x.cqWait then d1
    else if leNum (rec_.drop 4) ≠ x.epoch then d1.setDmaChan c { x with stale := x.stale + 1 }
    else if 2 ^ d1.fld (Reg.DMA_CH_CFG c) 12 8 < (pi + 2 ^ 32 - x.ci) % 2 ^ 32 then
      ((d1.setDmaChan c { x with stopped := true, indexError := true }).dmaWriteStatus c).setEvent Reg.DMA_EVENTS 1
        |>.raise 49 c
    else
      let d2 := (d1.setDmaChan c { x with lastPi := pi }).dmaFetch c 8
      (if (d2.dmaChan c).ci = x.ci then d2 else d2.dmaWriteStatus c).dmaSettle c

/-- One descriptor fetched on a channel (R430). -/
def Dev.dmaFetchOne (d : Dev) (c : Nat) (y : Desc) : Dev :=
  if d.dmaFetches c && decide ((d.dmaChan c).descs.length < 8) && !(d.dmaChan c).cqWait then
    let d1 := d.dmaTake c y
    ((d1.setDmaChan c { d1.dmaChan c with lastPi := (d1.dmaChan c).ci }).dmaWriteStatus c).dmaSettle c |>.dmaFollow
  else d

/-! ### Bursts (R431, R435, R438) -/

/-- Whether a channel is eligible for a burst (R431). -/
def Dev.dmaEligible (d : Dev) (c : Nat) : Bool :=
  let x := d.dmaChan c
  decide (x.bursts < 4) && match x.front with
    | some y => !d.dmaPaced c y || decide (0 < d.dmaReqs c)
    | none => false

/-- The channel a free burst slot is granted to: the highest level, round-robin within it (R431). -/
def Dev.dmaNext (d : Dev) : Option Nat :=
  (List.range 8).reverse.findSome? fun l =>
    let from_ := SMap.get (fun _ => 63) d.dma.last l + 1
    ((List.range 64).map fun i => (from_ + i) % 64).find? fun c =>
      d.fld (Reg.DMA_CH_PRIO c) 2 0 == l && d.dmaEligible c

/-- The first descriptor with bytes left replaced. -/
def replaceFront (f : DmaDesc → DmaDesc) : List DmaDesc → List DmaDesc
  | [] => []
  | y :: r => if 0 < y.left then f y :: r else y :: replaceFront f r

/-- Bytes of a range before the first POISONED page (R438). -/
def Dev.cleanPrefix (d : Dev) (a n : Nat) : Nat :=
  match (pagesOf a n).find? d.pagePoison with
  | some p => p * 4096 - a
  | none => n

/-- The bytes a burst of a descriptor writes at offset `off`: the source's, the pattern's, or undefined ones where the
ranges of a COPY overlap (R429). -/
def Dev.dmaData (d : Dev) (x : Desc) (off n : Nat) : List Byte :=
  if opcodeOf x = 0x91 then (List.range n).map fun i => BitVec.ofNat 8 (Desc.byte x (16 + (off + i) % 8))
  else if dmaOverlap x then leBytes n d.freeNat
  else d.spaceRead (dmaSrcSpace x) (dmaSrc x + off) n

/-- The write of a burst (R435, R438): DONE counts its bytes; a POISONED destination page marks the descriptor. -/
def Dev.dmaStore (d : Dev) (y : DmaDesc) (off n : Nat) : Dev × DmaDesc :=
  let x := y.desc
  let bad := dmaDstSpace x == 1 && d.rangePoison (dmaDst x + off) n
  let d0 := if opcodeOf x = 0x90 ∧ dmaSrcSpace x = 0 then d.pcieIn n pmDma else d
  let d1 := d0.spaceWrite (dmaDstSpace x) (dmaDst x + off) (d.dmaData x off n)
  ((if dmaOverlap x then d1.useFree else d1).pmEvent 38 0x61 n pmDma,
    { y with done := y.done + n, poisoned := y.poisoned || bad })

/-- A burst of channel `c` is issued (R431). -/
def Dev.dmaBurst (d : Dev) (c : Nat) : Dev :=
  let x := d.dmaChan c
  match x.front with
  | none => d
  | some y =>
    let lasts := SMap.set (fun _ => 63) d.dma.last (d.fld (Reg.DMA_CH_PRIO c) 2 0) c
    let d0 := { d with dma := { d.dma with last := lasts } }
    let d1 := if d.dmaPaced c y then d0.setFld (Reg.DMA_CH_STATUS c) 31 16 (d.dmaReqs c - 1) else d0
    let n := min (2 ^ d.fld (Reg.DMA_CH_CFG c) 19 16) y.left
    let off := y.issued
    if opcodeOf y.desc = 0x90 then
      let m := if dmaSrcSpace y.desc = 1 then d1.cleanPrefix (dmaSrc y.desc + off) n else n
      let d2 := if m < n then d1.poisonRead (dmaSrc y.desc + off) n else d1
      let fl := if m = 0 then y.flight else y.flight ++ [(off, m, 0)]
      let z := { y with issued := off + m, flight := fl, stop := decide (m < n), poisoned := y.poisoned || decide (m < n) }
      (d2.setDmaChan c { x with descs := replaceFront (fun _ => z.barrier) x.descs }).dmaSettle c
    else
      let s := d1.dmaStore y off n
      let fl := if dmaDstSpace y.desc = 1 then y.flight ++ [(off, n, 1)] else y.flight
      let z := { s.2 with issued := off + n, flight := fl }
      (s.1.setDmaChan c { x with descs := replaceFront (fun _ => z.barrier) x.descs }).dmaSettle c

/-- The first transaction of phase `p` of a channel returns: `f` gives the descriptor after it. -/
def takeFlight (p : Nat) (f : DmaDesc → Nat → Nat → Dev × DmaDesc) (d : Dev) : List DmaDesc → Dev × List DmaDesc
  | [] => (d, [])
  | y :: r => match y.flight.find? fun e => e.2.2 == p with
    | some e =>
      let z := f { y with flight := y.flight.erase e } e.1 e.2.1
      (z.1, z.2 :: r)
    | none =>
      let z := takeFlight p f d r
      (z.1, y :: z.2)

/-- DETAIL of a bus error (R440). -/
def dmaDetail (y : DmaDesc) (phase kind : Nat) : Nat :=
  b2n (y.done == dmaBytes y.desc) * 64 + phase % 4 * 16 + kind % 16

/-- Whether a transaction of phase `p` at offset `off` of a descriptor addresses a stack that has stopped (R20). -/
def Dev.dmaLost (d : Dev) (y : DmaDesc) (p off n : Nat) : Bool :=
  (p == 0 && dmaSrcSpace y.desc == 1 && d.rangeLost (dmaSrc y.desc + off) n) ||
  (p == 1 && dmaDstSpace y.desc == 1 && d.rangeLost (dmaDst y.desc + off) n)

/-- A transaction of a channel returns (R435, R436, R439, R440): `kind0` says how, and one to a stopped stack returns a
Halyard error response. -/
def Dev.dmaReturn (d : Dev) (c phase kind0 addr0 : Nat) : Dev :=
  let x := d.dmaChan c
  let z := takeFlight phase (fun y off n =>
    let kind := if kind0 = 0 ∧ d.dmaLost y phase off n then 5 else kind0
    let addr := if kind0 = 0 then (if phase = 0 then dmaSrc y.desc else dmaDst y.desc) + off else addr0
    if kind ≠ 0 then
      let det := dmaDetail y phase kind
      let d1 := if phase = 1 ∧ dmaDstSpace y.desc = 1 then
          (d.dataWrite (dmaDst y.desc + off) (leBytes n d.freeNat)).useFree else d
      (d1.dmaError c true det addr, { y with busError := some (y.busError.getD (det, addr)) })
    else if phase = 0 then
      (if d.dmaEngine ≠ 0 then (d, { y with halted := true })
       else
        let s := d.dmaStore y off n
        (s.1, if dmaDstSpace y.desc = 1 then { s.2 with flight := s.2.flight ++ [(off, n, 1)] } else s.2.barrier))
    else if phase = 1 then (d, y)
    else (d, y)) d x.descs
  let d1 := z.1.setDmaChan c { (z.1.dmaChan c) with descs := z.2 }
  if d1.dmaEngine = 0 then d1.dmaSettle c else d1

/-- Whether a transaction is outstanding on any channel. -/
def Dev.dmaOutstanding (d : Dev) : Bool := d.dma.chans.any fun e => decide (0 < e.2.inFlight)

/-- The engine's stop ends every descriptor that has been fetched (R439); results that a full queue holds back stay as they
are (R67; DEDUCED, log entry 99). -/
def DmaChan.halt (x : DmaChan) : DmaChan :=
  let kept := if x.cqWait then x.descs.takeWhile DmaDesc.spent else []
  { x with descs := kept ++ (x.descs.drop kept.length).map fun y => { y with halted := true } }

/-- Every outstanding transaction has returned: completions are written and the engine is STOPPED (R439). -/
def Dev.dmaStopped (d : Dev) : Dev :=
  if d.dmaEngine ≠ 1 ∨ d.dmaOutstanding then d
  else
    let d1 := (List.range 64).foldl (fun e c =>
      if (e.dmaChan c).descs.isEmpty then e else (e.setDmaChan c (e.dmaChan c).halt).dmaSettle c) d
    let f := d1.dma.first.getD (0, false, 0, 0)
    let info := b2n f.2.1 * 2 ^ 30 + f.1 * 65536 + f.2.2.1
    ((((((((d1.setDmaEngine 2).setEvent Reg.DMA_EVENTS 0).setReg Reg.DMA_ERR_INFO (2 ^ 31 + info)).setReg
      Reg.DMA_ERR_ADDR_LO f.2.2.2).setReg Reg.DMA_ERR_ADDR_HI (f.2.2.2 / 2 ^ 32)).count Reg.DMA_STOPS 1).raise 363
      (f.2.2.1 + f.1 * 65536 + b2n f.2.1 * 2 ^ 22)).dmaFollow)

/-- A successful clear of DMA_EVENTS.STOPPED restarts a STOPPED engine (R442). -/
def Dev.dmaRestart (d : Dev) : Dev :=
  if d.dmaEngine = 2 then
    ((({ d with dma := { d.dma with first := none } }).setDmaEngine 0).setFlag Reg.DMA_ERR_INFO 31 false).dmaFollow
  else d

/-! ### Requests (R432-R434) -/

/-- One request to a channel (R432). -/
def Dev.dmaRequest (d : Dev) (c : Nat) : Dev :=
  if !d.dmaEn c then d
  else if d.dmaReqs c < 65535 then (d.setFld (Reg.DMA_CH_STATUS c) 31 16 (d.dmaReqs c + 1))
  else d.setEvent Reg.DMA_EVENTS 3

/-- One request to every channel whose REQ_SEL is `code`. -/
def Dev.dmaLine (d : Dev) (code : Nat) : Dev :=
  ((List.range 64).foldl (fun e c => if e.dmaSel c = code then e.dmaRequest c else e) d).dmaFollow

/-- REQ_SEL codes of R432. -/
def dmaSelOk (c : Nat) : Bool := decide (c ≤ 8) || (decide (16 ≤ c) && decide (c ≤ 31))

/-- DMA_CH_CFG is written (R425, R427): with EN at 1 only EN may change; setting EN checks the set-up. -/
def Dev.dmaCfgWrite (d : Dev) (c v : Nat) : Dev :=
  let old := d.reg (Reg.DMA_CH_CFG c)
  let new := putBits (putBits (putBits (putBits (putBits (putBits 0 31 31 (bits v 31 31)) 30 30 (bits v 30 30)) 28 24
    (bits v 28 24)) 19 16 (bits v 19 16)) 12 8 (bits v 12 8)) 4 0 (bits v 4 0)
  let fieldsOk := decide (6 ≤ bits v 19 16) && decide (bits v 19 16 ≤ 12) && decide (6 ≤ bits v 12 8) &&
    decide (bits v 12 8 ≤ 16) && decide (6 ≤ bits v 4 0) && decide (bits v 4 0 ≤ 16) && dmaSelOk (bits v 28 24)
  let aligned := d.reg (Reg.DMA_CH_RING_LO c) % 4096 == 0 && d.reg (Reg.DMA_CH_CQ_LO c) % 4096 == 0 &&
    d.reg (Reg.DMA_CH_REC_LO c) % 64 == 0
  if bit old 31 then
    -- the other fields are refused a change; EN itself may fall
    let d1 := if new % 2 ^ 31 = old % 2 ^ 31 then d else d.reject 5
    if bit v 31 then d1
    else
      let d2 := (d1.setFlag (Reg.DMA_CH_CFG c) 31 false).setFld (Reg.DMA_CH_STATUS c) 31 16 0
      d2.dmaFollow
  else if !dmaSelOk (bits v 28 24) || (bit v 31 && !(fieldsOk && aligned)) then d.reject 5
  else if bit v 31 then
    -- descriptors fetched before EN last fell still run (R427)
    ((d.setReg (Reg.DMA_CH_CFG c) new).setDmaChan c { dmaChanReset with descs := (d.dmaChan c).descs }).dmaFollow
  else d.setReg (Reg.DMA_CH_CFG c) new

/-- A DMA timer's period is written (R434): 1 to 999 is refused, 0 stops the series. -/
def Dev.dmaTimerWrite (d : Dev) (k v : Nat) : Dev :=
  if 0 < v ∧ v < 1000 then d.reject 5
  else
    let d1 := d.setReg (Reg.DMA_TIMER k) v
    let m := if v = 0 then SMap.erase d1.dma.timers k
      else SMap.insert d1.dma.timers k (Series.start (v * 65536) d1.tb.dt)
    { d1 with dma := { d1.dma with timers := m } }

/-- A DMA timer fires: its line takes an edge (R433, R434). -/
def Dev.dmaTimerFire (d : Dev) (k : Nat) : Dev :=
  match SMap.find d.dma.timers k with
  | none => d
  | some x =>
    let e := d.advanceTo x.next
    ({ e with dma := { e.dma with timers := SMap.insert e.dma.timers k x.fire } }).dmaLine (16 + k)

/-- The channels of a write to DMA_SWREQ that a writer may reach each get one request (R424, R432). -/
def Dev.dmaSwreq (d : Dev) (hi : Bool) (v : Nat) (fw : Bool) : Dev :=
  let b := if hi then 32 else 0
  let d1 := if hi && !fw && bits v 31 24 != 0 then d.bar0Refuse else d
  ((List.range 32).foldl (fun e i =>
    if bit v i && (fw || decide (b + i < 56)) then e.dmaRequest (b + i) else e) d1).dmaFollow

/-! ### Meanings -/

/-- DMA_RING_POLL (R426). -/
def execDmaRingPoll (ch : Nat) (st : Stores) (s : State) : Host.Outcome State Fault Refusal :=
  s.act fun d => ((d.hostStores st).dmaPoll ch).dmaFollow

/-- COPY (R429, R430): the channel fetches this descriptor (DEDUCED, log entry 9). -/
def execCopy (ch : Nat) (x : Desc) (s : State) : Host.Outcome State Fault Refusal :=
  s.act fun d => d.dmaFetchOne ch x

/-- FILL (R429, R430): the channel fetches this descriptor (DEDUCED, log entry 9). -/
def execFill (ch : Nat) (x : Desc) (s : State) : Host.Outcome State Fault Refusal :=
  s.act fun d => d.dmaFetchOne ch x

/-- DMA_BURST_GRANT (R431). -/
def execDmaBurstGrant (s : State) : Host.Outcome State Fault Refusal :=
  s.act fun d =>
    if d.dmaEngine ≠ 0 ∨ 32 ≤ (d.dma.chans.map fun e => e.2.bursts).sum then d
    else match d.dmaNext with
      | some c => (d.dmaBurst c).dmaFollow
      | none => d

/-- DMA_BURST_RESPONSE (R435-R440). -/
def execDmaBurstResponse (r : BurstResp) (s : State) : Host.Outcome State Fault Refusal :=
  s.act fun d => ((((d.hostStores r.st).advanceTo r.t).dmaReturn r.ch r.phase r.kind r.addr).dmaFollow).safePoint 5 0

/-- DMA_ENGINE_STOPPED (R439). -/
def execDmaEngineStopped (s : State) : Host.Outcome State Fault Refusal :=
  s.act fun d => d.dmaStopped

/-- DREQ_EDGE (R433). -/
def execDreqEdge (line : Nat) (s : State) : Host.Outcome State Fault Refusal :=
  s.keep fun d => d.dmaLine (1 + line)

/-- DMA_TIMER_FIRE (R434). -/
def execDmaTimerFire (k : Nat) (s : State) : Host.Outcome State Fault Refusal := s.keep fun d => d.dmaTimerFire k

end Sys2Proof.Machine
end

