-- ==== Sys2Proof/Machine/QueueOps.lean ====
section
/-! DEFINITION. The Cell Store and its queues (spec/14_queues_scheduling.md R337-R346), ports, their counters and their pause
state (spec/12_ethernet_ports.md R298-R311). -/

namespace Sys2Proof.Machine

/-! ### Ports (R298, R299, R304, R307) -/

/-- A port at rest: link down, nothing stopped. -/
def portReset : Port := { up := false, stopped := List.replicate 9 none, asked := 0, refresh := none, due := [], freeAt := 0 }

def Dev.port (d : Dev) (p : Nat) : Port := SMap.get (fun _ => portReset) d.eth.ports p
def Dev.setPort (d : Dev) (p : Nat) (x : Port) : Dev :=
  { d with eth := { d.eth with ports := SMap.set (fun _ => portReset) d.eth.ports p x } }

/-- Lanes of a port in a mode. -/
def modeLanes (m : Nat) : Nat := [1, 4, 16].getD m 1

/-- Whether a number names a port (R299). -/
def Dev.portNamed (d : Dev) (p : Nat) : Bool := decide (p < 128) && p % modeLanes (d.portMode p) == 0

/-- Whether a port is enabled (R316). -/
def Dev.portOn (d : Dev) (p : Nat) : Bool :=
  d.portNamed p && d.enabled (28 + p / 16) && d.flag (Reg.LG_PORT_EN (p / 16)) (p % 16)

/-- Live counter `k` of a port takes `n` more (R304). -/
def Dev.ethCount (d : Dev) (p k n : Nat) : Dev :=
  { d with eth := { d.eth with counters := SMap.upd (fun _ => 0) d.eth.counters (14 * p + k) (· + n) } }

/-- PORT_STATUS of a port. -/
def Dev.portReg (_ : Dev) (p : Nat) : Nat := Reg.PORT_STATUS (p / 16) (p % 16)

/-- FLOWCTL of a port. -/
def Dev.flowCtl (d : Dev) (p : Nat) : Nat := d.fld (Reg.PORT_CTRL (p / 16) (p % 16)) 3 2

/-! ### Received pause (R308) -/

/-- Whether the partner stops a class now; entry 8 is Annex 31B pause. -/
def Dev.stops (d : Dev) (p c : Nat) : Bool :=
  let t (i : Nat) : Bool := ((d.port p).stopped.getD i none).any fun e => decide (d.tb.dt < e)
  t 8 || t c

/-- Stops of a port change, and PORT_STATUS.PAUSED with them. -/
def Dev.setStops (d : Dev) (p : Nat) (l : List (Option Nat)) : Dev :=
  let m := if (l.getD 8 none).isSome then 0xFF
    else (List.range 8).foldl (fun v c => if (l.getD c none).isSome then v + 2 ^ c else v) 0
  (d.setPort p { d.port p with stopped := l }).setFld (d.portReg p) 15 8 m

/-- A stop of `q` quanta that begins at `t`; none for 0. -/
def Dev.pauseEnd (d : Dev) (p t q : Nat) : Option Nat := if q = 0 then none else some (t + d.bitTime p (512 * q))

/-- A PAUSE frame (R308): opcode and times stand behind the addresses and the Ethertype. -/
def Dev.pauseRx (d : Dev) (p : Nat) (f : List Byte) : Dev :=
  let d1 := d.ethCount p 5 1
  if d.flowCtl p = 1 then d1.setStops p ((d1.port p).stopped.set 8 (d1.pauseEnd p d1.tb.dt (beNum ((f.drop 16).take 2))))
  else d1

/-- A PFC frame (R308): classes of its vector that PFC_EN enables. -/
def Dev.pfcRx (d : Dev) (p : Nat) (f : List Byte) : Dev :=
  let d1 := d.ethCount p 5 1
  let v := beNum ((f.drop 16).take 2) &&& d.fld (Reg.PORT_CTRL (p / 16) (p % 16)) 15 8
  if d.flowCtl p = 2 then
    d1.setStops p ((List.range 8).foldl (fun l c =>
      if bit v c then l.set c (d1.pauseEnd p d1.tb.dt (beNum ((f.drop (18 + 2 * c)).take 2))) else l) (d1.port p).stopped)
  else d1

/-! ### Cells and queues (R338-R346) -/

/-- Queues of management receive and of the ingest demux, and of Host Receive ring `r`. -/
def mgmtQueue : Nat := 12288
def ringQueue (r : Nat) : Nat := 12288 + r

def queueReset : Queue := { frames := [], above := false, tag := 0, headTag := none, wasElig := false }

def Dev.queue (d : Dev) (q : Nat) : Queue := SMap.get (fun _ => queueReset) d.qm.queues q
def Dev.setQueue (d : Dev) (q : Nat) (x : Queue) : Dev :=
  { d with qm := { d.qm with queues := SMap.set (fun _ => queueReset) d.qm.queues q x } }

/-- Cells of a frame (R339), and of a queue's frames, those spilled included (R341). -/
def cellsOf (f : QFrame) : Nat := ceilDiv f.data.length 256
def Queue.fill (x : Queue) : Nat := (x.frames.map cellsOf).sum

/-- Free cells of the pool. -/
def Dev.freeCells (d : Dev) : Nat := d.fld Reg.QM_FREE 17 0

/-- QMAX of a queue in cells. -/
def Dev.qmax (d : Dev) (q : Nat) : Nat := d.fld (Reg.QUEUE_LIMIT q) 13 0 * 16

/-- A watermark's next state (R341). -/
def watermark (above : Bool) (fill lo hi : Nat) : Bool := if above then decide (lo < fill) else decide (hi ≤ fill)

/-- The state of a queue's watermark after its fill has changed; the management queue has its own in KiB (R333). -/
def Dev.queueCheck (d : Dev) (q : Nat) : Dev :=
  let x := d.queue q
  if q = mgmtQueue then
    let up := watermark d.par.mgmtAbove x.fill (d.fld Reg.MGMT_WM 15 0 * 4) (d.fld Reg.MGMT_WM 31 16 * 4)
    let e := { d with par := { d.par with mgmtAbove := up } }
    if up && !d.par.mgmtAbove then e.setEvent Reg.PAR_EVENTS 3 else e
  else
    let up := watermark x.above x.fill (d.fld (Reg.QUEUE_WM q) 19 8 * 16) (d.fld (Reg.QUEUE_WM q) 31 20 * 16)
    d.setQueue q { x with above := up }

/-- Whether a queue is ABOVE. -/
def Dev.queueAbove (d : Dev) (q : Nat) : Bool := if q = mgmtQueue then d.par.mgmtAbove else (d.queue q).above

/-- Cells counted against a port and class, and their watermark (R344). -/
def Dev.ingressAdd (d : Dev) (x : Option (Nat × Nat)) (n : Int) : Dev :=
  match x with
  | none => d
  | some (p, c) =>
    let k := 8 * p + c
    let v := (((SMap.get (fun _ => 0) d.qm.ingress k : Nat) : Int) + n).toNat
    let up := watermark (SMap.get (fun _ => false) d.qm.ingAbove k) v (d.fld (Reg.ING_WM p) 15 0 * 16)
      (d.fld (Reg.ING_WM p) 31 16 * 16)
    { d with qm := { d.qm with ingress := SMap.set (fun _ => 0) d.qm.ingress k v,
                               ingAbove := SMap.set (fun _ => false) d.qm.ingAbove k up } }

/-- Classes that a port wants its partner to stop: a vector of priorities, or 256 for Annex 31B pause (R344). -/
def Dev.wantStop (d : Dev) (p : Nat) : Nat :=
  let src (c : Nat) : Bool := d.qm.xoff || SMap.get (fun _ => false) d.qm.ingAbove (8 * p + c)
  if d.flowCtl p = 2 then (List.range 8).foldl (fun v c => if src c then v + 2 ^ c else v) 0
  else if d.flowCtl p = 1 then (if (List.range 8).any src then 256 else 0)
  else 0

/-- Quanta and refresh interval of a port's pause frames (R309). -/
def Dev.quanta (d : Dev) (p : Nat) : Nat := d.fld (Reg.PAUSE_CFG (p / 16)) 31 16
def Dev.refreshAfter (d : Dev) (p : Nat) : Nat := d.tb.dt + d.bitTime p (512 * d.fld (Reg.PAUSE_CFG (p / 16)) 15 0)

/-- The pause frame that tells the classes `m` to stop if they are in `on`, else to go on. -/
def Dev.pauseFrame (d : Dev) (p m on : Nat) : Nat × List Nat :=
  if bit m 8 then (0, [if bit on 8 then d.quanta p else 0])
  else (m, (List.range 8).map fun c => if bit m c && bit on c then d.quanta p else 0)

/-- A port's requests follow its watermarks (R309): a frame is due for the classes that change. -/
def Dev.pauseAsk (d : Dev) (p : Nat) : Dev :=
  let x := d.port p
  let want := d.wantStop p
  if want = x.asked then d
  else
    d.setPort p { x with asked := want, due := x.due ++ [d.pauseFrame p (want ^^^ x.asked) want],
                         refresh := if want = 0 then none else some (d.refreshAfter p) }

/-- The level that FLOW_STOP_N[k] takes (R345): true for low. -/
def Dev.flowStopLow (d : Dev) (k : Nat) : Bool :=
  let v := d.reg (Reg.FSTOP_CFG k)
  let i := bits v 13 0
  bit v 31 && (if bits v 30 29 = 0 then d.queueAbove i
    else if bits v 30 29 = 1 then d.qm.xoff
    else SMap.get (fun _ => false) d.qm.ingAbove i)

/-- The pins FLOW_STOP_N follow their sources. -/
def Dev.flowStops (d : Dev) : Dev :=
  (List.range 8).foldl (fun e k =>
    let low := e.flowStopLow k
    if low = bit e.qm.fstop k then e
    else { e with qm := { e.qm with fstop := putBits e.qm.fstop k k (b2n low) } }.emit (.flowStop k low)) d

/-- Pool, pins and pause requests follow what has changed (R343-R345). -/
def Dev.qmReact (d : Dev) : Dev :=
  let free := d.freeCells
  let off := if d.qm.xoff then decide (free < d.fld Reg.QM_POOL 15 0 * 16) else decide (free ≤ d.fld Reg.QM_POOL 31 16 * 16)
  let d1 := { d with qm := { d.qm with xoff := off } }
  let d2 := if off && !d.qm.xoff then d1.setEvent Reg.QM_EVENTS 1 else d1
  ((List.range 128).foldl (fun e p => e.pauseAsk p) d2).flowStops

/-- Cells taken from the pool, or given back when negative. -/
def Dev.takeCells (d : Dev) (n : Int) : Dev := d.setFld Reg.QM_FREE 17 0 ((d.freeCells : Int) - n).toNat

/-- A frame enters a queue with its cells. -/
def Dev.putFrame (d : Dev) (q : Nat) (f : QFrame) : Dev :=
  let x := d.queue q
  let g := { f with id := d.qm.nextFrame }
  let d1 := { d with qm := { d.qm with nextFrame := d.qm.nextFrame + 1 } }
  let d2 := d1.setQueue q { x with frames := x.frames ++ [g] }
  let d3 := if f.spilled then { d2 with qm := { d2.qm with spill := d2.qm.spill + cellsOf f } }
    else (d2.takeCells (cellsOf f)).ingressAdd f.ingress (cellsOf f)
  (d3.queueCheck q).qmReact

/-- The cells of a frame that has left a queue go back. -/
def Dev.freeFrame (d : Dev) (f : QFrame) : Dev :=
  if f.spilled then { d with qm := { d.qm with spill := d.qm.spill - cellsOf f } }.qmReact
  else ((d.takeCells (-(cellsOf f : Int))).ingressAdd f.ingress (-(cellsOf f : Int))).qmReact

/-- A spilled frame at the head of a queue returns to the Cell Store once the pool has cells for it (R346). -/
def Dev.unspill (d : Dev) (q : Nat) : Dev :=
  let x := d.queue q
  match x.frames with
  | f :: r =>
    if f.spilled && decide (cellsOf f ≤ d.freeCells) then
      let e := { d with qm := { d.qm with spill := d.qm.spill - cellsOf f } }
      (((e.setQueue q { x with frames := { f with spilled := false } :: r }).takeCells (cellsOf f)).ingressAdd f.ingress
        (cellsOf f)).qmReact
    else d
  | [] => d

/-- A queue loses its head; its cells are still held. -/
def Dev.popFrame (d : Dev) (q : Nat) : Dev :=
  let x := d.queue q
  ((d.setQueue q { x with frames := x.frames.drop 1 }).queueCheck q).unspill q

/-- A discard of R339 or R346: its counter and event. -/
def Dev.qmDrop (d : Dev) (k event : Nat) : Dev := (d.count (Reg.QM_COUNT k) 1).setEvent Reg.QM_EVENTS event

/-- Spill area in cells (R337). -/
def spillCells : Nat := 256 * 2 ^ 20 / 256

/-- Whether a queue number is an egress queue that a port feeds (R339): enabled, and bound to it. -/
def Dev.egressBound (d : Dev) (q p : Nat) : Bool :=
  decide (q < 12288) && d.flag (Reg.QUEUE_CFG q) 31 && d.fld (Reg.QUEUE_CFG q) 30 24 == p && d.portNamed p

/-- Whether a frame from Hoist or a Host Transmit ring may enter its queue now (R339, R342, R343). -/
def Dev.egressRoom (d : Dev) (q n : Nat) : Bool :=
  !d.qm.xoff && !(d.queue q).above && decide ((d.queue q).fill + ceilDiv n 256 ≤ d.qmax q) &&
  decide (ceilDiv n 256 ≤ d.freeCells)

/-- What refuses a frame of a receive pipeline at a queue (R339, R346): the counter of the discard; `port` is the port that
the action names, for an egress queue. -/
def Dev.rxRefused (d : Dev) (q : Nat) (port : Option Nat) (f : QFrame) : Option (Nat × Nat) :=
  let x := d.queue q
  let spills := d.flag (Reg.QUEUE_LIMIT q) 17
  let m := match port with
    | some _ => d.frameLimit q
    | none => let v := d.fld (Reg.QUEUE_LIMIT q) 31 18; if v = 0 then 9216 else v
  if d.flag Reg.QM_CTRL 0 = false then some (0, 0)
  else if port.any fun p => !d.egressBound q p then some (3, 0)
  else if m < f.data.length + 4 then some (6, 0)
  else if spills && x.above then
    (if spillCells < d.qm.spill + cellsOf f then some (5, 4) else none)
  else if !spills && decide (d.qmax q < x.fill + cellsOf f) then some (1, 0)
  else if d.freeCells < cellsOf f then some (2, 0)
  else none

/-- Whether a frame that enters a queue is spilled (R346): while the queue is ABOVE. -/
def Dev.spillsNow (d : Dev) (q : Nat) : Bool := d.flag (Reg.QUEUE_LIMIT q) 17 && (d.queue q).above

/-- A frame from a receive pipeline goes to a queue, or is discarded and counted. -/
def Dev.rxEnqueue (d : Dev) (q : Nat) (port : Option Nat) (f : QFrame) : Dev :=
  match d.rxRefused q port f with
  | some (0, _) => d.count (Reg.QM_COUNT 0) 1
  | some (k, e) => d.qmDrop k e
  | none => d.putFrame q { f with spilled := d.spillsNow q }

/-- Whether a copy's destination can take it at once (R324, R342). -/
def Dev.copyFits (d : Dev) (q : Nat) (port : Option Nat) (f : QFrame) : Bool :=
  (d.rxRefused q port f).isNone && !d.queueAbove q

/-! ### Host Receive rings (R326, R338) -/

/-- Whether a ring takes frames: it exists and has type Host Receive. -/
def Dev.hostRing (d : Dev) (r : Nat) : Bool := decide (64 ≤ r) && d.ringType r == 2

/-- The 32-byte prefix of a frame (R326); `trunc` for one that is cut. -/
def rxPrefix (f : QFrame) (port : Nat) (trunc : Bool) : List Byte :=
  let m (i : Nat) : Nat := f.meta_.getD i 0
  leBytes 12 (dt96 f.rxDt) ++ leBytes 1 port ++ leBytes 1 (m 0) ++ leBytes 2 (m 1) ++ leBytes 2 (m 2) ++
  leBytes 1 (m 3 + 16 * b2n trunc) ++ leBytes 1 (m 4) ++ leBytes 4 (m 5) ++ leBytes 2 f.data.length ++ leBytes 2 0 ++
  leBytes 3 (m 6) ++ leBytes 1 0

/-- Buffers posted to a ring whose operations still wait. -/
def Dev.rxBufsOf (d : Dev) (r : Nat) : List (Nat × Nat × Nat × Nat) :=
  d.qm.rxBufs.filter fun b => b.1 == r && (d.op b.2.1).any fun o => o.result.isNone

/-- TRUNCATED of R336. -/
def stTruncated : Nat := 0x01A0

/-- The head of a ring's queue, which has its cells, is written into the ring's next buffer, which completes (R326). -/
def Dev.hostRxPut (d : Dev) (r : Nat) : Dev :=
  match (d.queue (ringQueue r)).frames, d.rxBufsOf r with
  | f :: _, (_, op, addr, len) :: _ =>
    if f.spilled || !d.hostRing r || (((d.ring r).bind fun x => d.cq x.cq).any Cq.full) then d
    else
      let n := min f.data.length (len - 32)
      let cut := decide (n < f.data.length)
      let port := (f.meta_.getD 7 0)
      let d1 := d.hostPut pmSelf addr (rxPrefix f port cut ++ f.data.take n)
      let d2 := { d1 with qm := { d1.qm with rxBufs := d1.qm.rxBufs.filter fun b => b.2.1 != op } }
      let flags := f.meta_.getD 3 0 + 16 * b2n cut
      (((d2.popFrame (ringQueue r)).freeFrame f).finish op
        ⟨if cut then stTruncated else stOk, n, f.meta_.getD 0 0 + 256 * flags, f.meta_.getD 5 0⟩)
  | _, _ => d

/-- The next frame of a Host Receive ring is delivered. -/
def Dev.hostRxDeliver (d : Dev) (r : Nat) : Dev := (d.unspill (ringQueue r)).hostRxPut r

/-! ### Meanings -/

/-- What refuses an RX_BUFFER. -/
def Dev.rxBufferStatus (e : Dev) (op : Op) : Nat :=
  let x := op.desc
  e.gate op 2 false false (opcodeOf x == 0x70 && zeroAt x 8 8 && zeroAt x 24 40 &&
    (lengthOf x == 0 || decide (64 ≤ lengthOf x)) && Desc.le x 16 8 % 64 == 0) true

/-- RX_BUFFER (R326): opcode 0x70 of a Host Receive ring. -/
def execRxBuffer (o : RingOp) (s : State) : Host.Outcome State Fault Refusal :=
  s.act fun d => d.runLater o (fun op => keyRing op.ring) fun e op =>
    let x := op.desc
    let st := e.rxBufferStatus op
    if st ≠ 0 then (e, some (resOf st))
    else if lengthOf x = 0 then (e, some (resOf stZero))
    else
      ({ e with qm := { e.qm with rxBufs := e.qm.rxBufs ++ [(op.ring, op.id, Desc.le x 16 8, lengthOf x)] } }, none)

/-- PAUSE_EXPIRE (R308): the time of class `cls` runs out, or of Annex 31B pause for 8. -/
def execPauseExpire (port cls : Nat) (s : State) : Host.Outcome State Fault Refusal :=
  s.act fun d =>
    match (d.port port).stopped.getD cls none with
    | none => d
    | some t =>
      let e := d.advanceTo t
      e.setStops port ((e.port port).stopped.set cls none)

/-- PAUSE_REFRESH (R309): the frame is due again while the stop lasts. -/
def execPauseRefresh (port : Nat) (s : State) : Host.Outcome State Fault Refusal :=
  s.act fun d =>
    match (d.port port).refresh with
    | none => d
    | some t =>
      let e := d.advanceTo t
      let x := e.port port
      e.setPort port { x with due := x.due ++ [e.pauseFrame port x.asked x.asked], refresh := some (e.refreshAfter port) }

end Sys2Proof.Machine
end

