-- ==== Sys2Proof/Machine/FlowOps.lean ====
section
/-! DEFINITION. Delivery flows (spec/11_packaging_delivery.md R283-R297): their contexts, cache and operations, the
records and packets they build, and their pacing by Hoist (spec/14_queues_scheduling.md R350, R351). -/

namespace Sys2Proof.Machine

/-! ### Status codes (R297, R361) -/

def stFlowState : Nat := 0x0142
def stFlowClosed : Nat := 0x0143
def stFlowCorrupt : Nat := 0x0144
def stTxNoQueue : Nat := 0x0150

/-! ### Flow contexts (R283, R284) -/

def Dev.flow (d : Dev) (f : Nat) : Option Flow := SMap.find d.dlv.flows f
def Dev.setFlow (d : Dev) (f : Nat) (x : Flow) : Dev :=
  { d with dlv := { d.dlv with flows := SMap.insert d.dlv.flows f x } }

/-- State of a flow: 0 FREE, 1 OPEN, 2 CLOSING, 3 FAILED. -/
def Dev.flowState (d : Dev) (f : Nat) : Nat := match d.flow f with
  | some x => x.state
  | none => 0

/-- Byte, field and big-endian number of a flow context's 256 bytes. -/
def ctxByte (b : List Byte) (k : Nat) : Nat := (b.getD k 0).toNat
def ctxLe (b : List Byte) (k n : Nat) : Nat := leNum ((b.drop k).take n)
def ctxBe (b : List Byte) (k n : Nat) : Nat := beNum ((b.drop k).take n)

/-- What refuses a flow context at OPEN (R284, R287, R267). -/
def flowCtxStatus (b : List Byte) : Nat :=
  let z (k n : Nat) : Bool := ctxLe b k n == 0
  let fl := ctxByte b 3
  let quic := ctxByte b 2 == 1
  let mss := ctxLe b 16 2
  let hdr := ctxByte b 20
  let common := decide (ctxByte b 2 ≤ 1) && decide (fl < 16) && decide (ctxLe b 4 2 < 128) &&
    decide (ctxLe b 6 2 < 16384) && z 46 2 && (bit fl 0 || z 64 16) && z 148 12 && decide (42 ≤ hdr) &&
    decide (hdr ≤ 96) && decide (ctxByte b 21 < hdr) && decide (ctxByte b 22 < hdr) && decide (mss ≤ 9000)
  let own := if quic then
      !bit fl 3 && decide (1200 ≤ mss) && z 18 2 && decide (ctxByte b 23 ≤ 20) && decide (ctxLe b 24 8 < 2 ^ 62) &&
      z 32 14 && z 92 4
    else
      !bit fl 2 && decide (536 ≤ mss) && decide (256 ≤ ctxLe b 18 2) && decide (ctxLe b 18 2 ≤ 16384) && z 28 4 &&
      z 140 8 && (!bit fl 3 || decide (ctxByte b 23 < hdr))
  worst [when_ (ctxLe b 0 2 != 1) stVersion, when_ (!(common && own)) stMalformed]

/-- The flow that a context of 256 bytes makes. -/
def flowOfCtx (fn now : Nat) (b : List Byte) : Flow :=
  let fl := ctxByte b 3
  let quic := ctxByte b 2 == 1
  { fn := fn, state := 1, mode := ctxByte b 2, aes256 := bit fl 0, ipv6 := bit fl 1, keyPhase := bit fl 2,
    tcpTs := bit fl 3, prevValid := false, port := ctxLe b 4 2, queue := ctxLe b 6 2, rate := ctxLe b 8 4,
    burst := ctxLe b 12 4, mss := ctxLe b 16 2, record := ctxLe b 18 2, hdrLen := ctxByte b 20, l3Off := ctxByte b 21,
    l4Off := ctxByte b 22, tsOff := ctxByte b 23, next := ctxLe b 24 8, tlsSeq := ctxLe b 32 8,
    ackNum := ctxLe b 40 4, window := ctxLe b 44 2, key := ctxBe b 48 32, iv := ctxBe b 80 12, tsecr := ctxLe b 92 4,
    prevKey := ctxBe b 96 32, prevIv := if quic then 0 else ctxBe b 128 12, dcid := if quic then ctxBe b 128 20 else 0,
    template := (b.drop 160).take (ctxByte b 20),
    ipId := ctxBe b (160 + ctxByte b 21 + 4) 2, credit := 0, creditAt := now, ops := [], sent := 0, sentPkts := 0,
    next0 := ctxLe b 24 8, tls0 := ctxLe b 32 8, abort := false, corrupt := false, readyAt := now, since := none,
    seals := 1 }

/-! ### The flow cache (R285) -/

/-- Entries of the flow cache (R267). -/
def flowEntries : Nat := 16384

/-- The flow is the most recently used of the cache. -/
def Dev.flowUse (d : Dev) (f : Nat) : Dev :=
  { d with dlv := { d.dlv with cache := d.dlv.cache.filter (· != f) ++ [f] } }

/-- The idle flow used least recently. -/
def Dev.flowIdle (d : Dev) : Option Nat := d.dlv.cache.find? fun f => ((d.flow f).map fun x => x.ops.isEmpty).getD true

/-- A flow leaves the cache; its context is sealed and written with the next write count. -/
def Dev.flowEvict (d : Dev) (f : Nat) : Dev :=
  let e := { d with dlv := { d.dlv with cache := d.dlv.cache.filter (· != f) } }
  match e.flow f with
  | some x => e.setFlow f { x with seals := wrapAdd 32 x.seals 1 }
  | none => e

/-- An entry for a flow: the device, and whether it has one; a miss takes a free entry or that of an idle flow. -/
def Dev.flowEntry (d : Dev) (f : Nat) : Dev × Bool :=
  if d.dlv.cache.contains f then ((d.flowUse f).count Reg.FLOW_CACHE_HITS 1, true)
  else if d.dlv.cache.length < flowEntries then ((d.flowUse f).count Reg.FLOW_CACHE_MISSES 1, true)
  else match d.flowIdle with
    | some g => (((d.flowEvict g).flowUse f).count Reg.FLOW_CACHE_MISSES 1, true)
    | none => (d, false)

/-- A context fails authentication (R285). -/
def Dev.flowCorrupt (d : Dev) (f : Nat) (x : Flow) : Dev :=
  ((d.setFlow f { x with state := 3, corrupt := true }).setEvent Reg.CRY_EVENTS 0).raise 334 f

/-! ### Payload of a segment or a data-space range (R271, R288) -/

/-- Bytes of the buffers of the segment at handle `h`, from its payload bytes and its count of buffers. -/
def segUnit (bytes bufs : Nat) : Nat :=
  ([131072, 1048576, 8388608, 33554432].find? fun z => max 1 (ceilDiv (bytes + 256) z) == bufs).getD 33554432

/-- The buffers of a segment, the first first (R271). -/
def Dev.segBufs (d : Dev) (h : Nat) : List Nat :=
  h :: ((List.range 48).map fun k => leNum (d.dataRead (d.bufAddr h + 64 + 4 * k) 4)).filter (· != noHandle)

/-- Payload bytes of a segment (R273). -/
def Dev.segBytes (d : Dev) (h : Nat) : Nat := leNum (d.dataRead (d.bufAddr h + 20) 4)

/-- Pieces of data space that hold bytes `a` to `a + n - 1` of a chain of buffers of `z` bytes. -/
def Dev.chainSpans (d : Dev) (z : Nat) : List Nat → Nat → Nat → List (Nat × Nat)
  | [], _, _ => []
  | h :: r, a, n =>
    if n = 0 then []
    else if z ≤ a then d.chainSpans z r (a - z) n
    else
      let k := min n (z - a)
      (d.bufAddr h + a, k) :: d.chainSpans z r 0 (n - k)

/-- Pieces of data space that hold bytes `a` to `a + n - 1` of the payload that a SEND or RESEND names. -/
def Dev.srcSpans (d : Dev) (x : Desc) (a n : Nat) : List (Nat × Nat) :=
  let h := Desc.le x 12 4
  let o := Desc.le x 24 4 + a
  if h = noHandle then [(Desc.le x 16 8 + o, n)]
  else
    let bufs := d.segBufs h
    d.chainSpans (segUnit (d.segBytes h) bufs.length) bufs (256 + o) n

/-- Those bytes. -/
def Dev.srcRead (d : Dev) (x : Desc) (a n : Nat) : List Byte := (d.srcSpans x a n).flatMap fun s => d.dataRead s.1 s.2

/-- What reading them earns: nothing, MEM_POISONED or BUS_ERROR. -/
def Dev.srcStatus (d : Dev) (x : Desc) (a n : Nat) : Nat := worst ((d.srcSpans x a n).map fun s => d.readStatus s.1 s.2)

/-- Whether one of them cannot be read. -/
def Dev.srcPoison (d : Dev) (x : Desc) (a n : Nat) : Bool :=
  (!d.prot.poisoned.isEmpty || (List.range 8).any d.stackLost) && d.srcStatus x a n != 0

/-! ### Headers (R289, R290) -/

/-- Bytes of a list from `k` replaced; bytes beyond its end are dropped. -/
def poke (l : List Byte) (k : Nat) (b : List Byte) : List Byte :=
  l.take k ++ (b.take (l.length - k)) ++ l.drop (k + b.length)

/-- The ones' complement sum of 16-bit words, not yet folded. -/
def sum16 : List Byte → Nat
  | [] => 0
  | [a] => a.toNat * 256
  | a :: b :: r => a.toNat * 256 + b.toNat + sum16 r

/-- A sum folded to 16 bits. -/
def fold16 (v : Nat) : Nat :=
  let w := v % 65536 + v / 65536
  let u := w % 65536 + w / 65536
  u % 65536 + u / 65536

/-- The Internet checksum of a sum. -/
def inetSum (v : Nat) : Nat := 65535 - fold16 v

/-- The IP header of a packet whose transport part has `n` bytes. -/
def Flow.fillIp (x : Flow) (h : List Byte) (n : Nat) : List Byte :=
  let o := x.l3Off
  if x.ipv6 then poke h (o + 4) (beBytes 2 (x.l4Off - o - 40 + n))
  else
    let h1 := poke (poke (poke h (o + 2) (beBytes 2 (x.l4Off - o + n))) (o + 4) (beBytes 2 x.ipId)) (o + 10) (beBytes 2 0)
    let ihl := ctxByte h1 o % 16 * 4
    poke h1 (o + 10) (beBytes 2 (inetSum (sum16 ((h1.drop o).take ihl))))

/-- The sum of the pseudo header. -/
def Flow.pseudo (x : Flow) (h : List Byte) (proto n : Nat) : Nat :=
  (if x.ipv6 then sum16 ((h.drop (x.l3Off + 8)).take 32) else sum16 ((h.drop (x.l3Off + 12)).take 8)) + proto +
    n / 65536 + n % 65536

/-- A TCP packet: sequence number, further flag bits, payload. -/
def Flow.tcpPacket (x : Flow) (now seq flags : Nat) (body : List Byte) : List Byte :=
  let o := x.l4Off
  let n := x.hdrLen - o + body.length
  let h1 := x.fillIp x.template n
  let h2 := poke (poke (poke h1 (o + 4) (beBytes 4 seq)) (o + 8) (beBytes 4 x.ackNum)) (o + 14) (beBytes 2 x.window)
  let h3 := poke (poke h2 (o + 13) [BitVec.ofNat 8 (ctxByte h2 (o + 13) ||| flags)]) (o + 16) (beBytes 2 0)
  let h4 := if x.tcpTs then poke h3 (x.tsOff + 2) (beBytes 4 (now / (1000 * unitsPerUs)) ++ beBytes 4 x.tsecr) else h3
  poke h4 (o + 16) (beBytes 2 (inetSum (x.pseudo h4 6 n + sum16 (h4.drop o ++ body)))) ++ body

/-- A UDP packet. -/
def Flow.udpPacket (x : Flow) (body : List Byte) : List Byte :=
  let o := x.l4Off
  let n := x.hdrLen - o + body.length
  let h1 := poke (poke (x.fillIp x.template n) (o + 4) (beBytes 2 n)) (o + 6) (beBytes 2 0)
  let c := inetSum (x.pseudo h1 17 n + sum16 (h1.drop o ++ body))
  poke h1 (o + 6) (beBytes 2 (if c = 0 then 65535 else c)) ++ body

/-- What AES-GCM makes of a text: the text's bytes and 16 more. -/
def Flow.seal (x : Flow) (key iv seq : Nat) (aad text : List Byte) : List Byte :=
  let k := if x.aes256 then key else key / 2 ^ 128
  let l := Config.gcmSeal x.aes256 k (iv ^^^ seq) aad text
  (l ++ List.replicate (text.length + 16) 0).take (text.length + 16)

/-- A TLS record of R289: its inner content type and text; `n + 22` bytes. -/
def Flow.tlsRecord (x : Flow) (key iv seq inner : Nat) (text : List Byte) : List Byte :=
  let head : List Byte := [23, 3, 3] ++ beBytes 2 (text.length + 17)
  head ++ x.seal key iv (seq % 2 ^ 64) head (text ++ [BitVec.ofNat 8 inner])

/-- A QUIC number at its shortest length. -/
def varint (v : Nat) : List Byte :=
  if v < 2 ^ 6 then beBytes 1 v
  else if v < 2 ^ 14 then beBytes 2 (2 ^ 14 + v)
  else if v < 2 ^ 30 then beBytes 4 (2 * 2 ^ 30 + v)
  else beBytes 8 (3 * 2 ^ 62 + v)

/-- Bytes of the DCID. -/
def Flow.dcidBytes (x : Flow) : List Byte := (beBytes 20 x.dcid).take x.tsOff

/-- A QUIC packet that holds one frame, under packet number `pn` (R290). -/
def Flow.quicPacket (x : Flow) (pn : Nat) (frame : List Byte) : List Byte :=
  let first := 0x43 + 4 * b2n x.keyPhase
  let head := BitVec.ofNat 8 first :: x.dcidBytes ++ beBytes 4 pn
  let body := x.seal x.key x.iv (pn % 2 ^ 64) head frame
  let hp := if x.aes256 then x.prevKey else x.prevKey / 2 ^ 128
  let mask := beBytes 16 (Config.aesBlock x.aes256 hp (BitVec.ofNat 128 (beNum (body.take 16)))).toNat
  let head1 := poke head 0 [BitVec.ofNat 8 (first ^^^ (ctxByte mask 0 % 32))]
  let k := 1 + x.tsOff
  let pnb := (List.range 4).map fun i => BitVec.ofNat 8 (ctxByte head (k + i) ^^^ ctxByte mask (1 + i))
  x.udpPacket (poke head1 k pnb ++ body)

/-! ### What an operation sends (R288-R295) -/

/-- Opcodes and fields of delivery operations. -/
def opSend : Nat := 0x40
def opResend : Nat := 0x41
def opRekey : Nat := 0x45
def opClose : Nat := 0x43
def flowNum (x : Desc) : Nat := Desc.field x 8 17 0

/-- Whether an operation sends payload. -/
def isSend (x : Desc) : Bool := opcodeOf x == opSend || opcodeOf x == opResend

/-- Whether an operation is a RESEND of R292's own layout. -/
def Flow.tcpResend (fl : Flow) (x : Desc) : Bool := fl.mode == 0 && opcodeOf x == opResend

/-- Bytes of a SEND, or of the SEND that a RESEND names. -/
def sendBytes (x : Desc) : Nat := Desc.le x 28 4

/-- TCP bytes of a SEND of `n` bytes. -/
def Flow.tcpBytes (fl : Flow) (n : Nat) : Nat := n + 22 * ceilDiv n (max fl.record 1)

/-- Bytes of a full record on the wire. -/
def Flow.wireRecord (fl : Flow) : Nat := max fl.record 1 + 22

/-- Where an operation starts and ends: TCP bytes of the SEND, or data bytes in QUIC. -/
def Flow.startOf (fl : Flow) (x : Desc) : Nat := if fl.tcpResend x then Desc.le x 44 4 else 0
def Flow.endOf (fl : Flow) (x : Desc) : Nat :=
  if fl.tcpResend x then Desc.le x 44 4 + Desc.le x 48 4
  else if fl.mode = 0 then fl.tcpBytes (sendBytes x) else sendBytes x

/-- Data bytes of a full QUIC packet: D of R290. -/
def Flow.quicData (fl : Flow) (x : Desc) : Nat := fl.mss - 21 - fl.tsOff - (11 + (varint (Desc.le x 32 8)).length)

/-- Where a SEND or RESEND stops, given CLOSE with ABORT (R295): the record boundary at or after what was launched. -/
def Flow.abortStop (fl : Flow) (x : Desc) : Nat :=
  let p := fl.startOf x + fl.sent
  if fl.abort = false then fl.endOf x
  else if fl.mode = 0 ∧ 0 < fl.sent then min (fl.endOf x) (ceilDiv p fl.wireRecord * fl.wireRecord)
  else p

/-- The first TCP byte at or after `p`, below `p + mss`, of a record that cannot be read (R291). -/
def Dev.poisonStop (d : Dev) (fl : Flow) (x : Desc) (p : Nat) : Option Nat :=
  if fl.mode = 0 then
    let w := fl.wireRecord
    let ks := (List.range (fl.mss / w + 2)).map (p / w + ·)
    (ks.find? fun k => (decide (p ≤ k * w) || fl.sent == 0) && decide (k * w < p + fl.mss) &&
      d.srcPoison x (k * max fl.record 1) (min (max fl.record 1) (sendBytes x - k * max fl.record 1))).map
        fun k => max p (k * w)
  else if d.srcPoison x p (min (fl.quicData x) (sendBytes x - p)) then some p
  else none

/-- What stops it there: MEM_POISONED, or BUS_ERROR on a stack that has stopped. -/
def Dev.stopStatus (d : Dev) (fl : Flow) (x : Desc) (p : Nat) : Nat :=
  if fl.mode = 0 then
    let k := p / fl.wireRecord
    d.srcStatus x (k * max fl.record 1) (min (max fl.record 1) (sendBytes x - k * max fl.record 1))
  else d.srcStatus x p (min (fl.quicData x) (sendBytes x - p))

/-- Bytes of the next packet of a SEND or RESEND, from its position: 0 when it sends no more. -/
def Dev.nextLen (d : Dev) (fl : Flow) (x : Desc) : Nat :=
  let p := fl.startOf x + fl.sent
  let stop := min (fl.abortStop x) ((d.poisonStop fl x p).getD (fl.endOf x))
  min (if fl.mode = 0 then fl.mss else fl.quicData x) (stop - p)

/-- The status with which a SEND or RESEND that sends no more completes (R291, R295). -/
def Dev.sendStatus (d : Dev) (fl : Flow) (x : Desc) : Nat :=
  let p := fl.startOf x + fl.sent
  if fl.endOf x ≤ p then stOk
  else worst [when_ (decide (fl.abortStop x ≤ p)) stFlowClosed, if (d.poisonStop fl x p).any (· ≤ p) then d.stopStatus fl x p else 0]

/-- The completion of a SEND or RESEND (R291, R292). -/
def Dev.sendResult (d : Dev) (fl : Flow) (x : Desc) : Result :=
  let st := d.sendStatus fl x
  if fl.mode = 1 then ⟨st, fl.sent, min fl.sentPkts 65535, fl.next0 % 2 ^ 32⟩
  else if fl.tcpResend x then ⟨st, fl.sent, 0, (Desc.le x 32 4 + Desc.le x 44 4) % 2 ^ 32⟩
  else
    let k := fl.sent / fl.wireRecord
    ⟨st, if fl.endOf x ≤ fl.sent then sendBytes x else k * fl.record, 0, fl.next0 % 2 ^ 32⟩

/-- TCP bytes `a` to `b - 1` of a SEND, rebuilt from its records. -/
def Dev.tcpSlice (d : Dev) (fl : Flow) (x : Desc) (a b : Nat) : List Byte :=
  let w := fl.wireRecord
  let prev := fl.tcpResend x && bit (Desc.byte x 52) 0
  let key := if prev then fl.prevKey else fl.key
  let iv := if prev then fl.prevIv else fl.iv
  let seq := if fl.tcpResend x then Desc.le x 36 8 else fl.tls0
  let one (k : Nat) : List Byte :=
    let r := max fl.record 1
    fl.tlsRecord key iv (seq + k) 23 (d.srcRead x (k * r) (min r (sendBytes x - k * r)))
  (((List.range ((b - 1) / w + 1 - a / w)).flatMap fun i => one (a / w + i)).drop (a % w)).take (b - a)

/-- The next packet of a SEND or RESEND, `n` bytes of it. -/
def Dev.sendPacket (d : Dev) (fl : Flow) (x : Desc) (n : Nat) : List Byte :=
  let p := fl.startOf x + fl.sent
  if fl.mode = 0 then
    let total := fl.tcpBytes (sendBytes x)
    let seq := (if fl.tcpResend x then Desc.le x 32 4 else fl.next0) + p
    fl.tcpPacket d.tb.dt seq (if p + n = total then 8 else 0) (d.tcpSlice fl x p (p + n))
  else
    let fin := bit (Desc.byte x 60) 0 && p + n == sendBytes x
    let frame := BitVec.ofNat 8 (0x0E + b2n fin) :: varint (Desc.le x 32 8) ++
      beBytes 8 (3 * 2 ^ 62 + (Desc.le x 40 8 + p) % 2 ^ 62) ++ beBytes 2 (2 ^ 14 + n) ++ d.srcRead x p n
    fl.quicPacket fl.next frame

/-- Whether a REKEY sends a KeyUpdate record first (R294), and a CLOSE a final packet (R295). -/
def Flow.keyUpdate (fl : Flow) (x : Desc) : Bool := opcodeOf x == opRekey && fl.mode == 0 && bit (Desc.byte x 12) 0
def Flow.notifies (fl : Flow) (x : Desc) : Bool := opcodeOf x == opClose && bit (Desc.byte x 12) 1 && !fl.corrupt

/-- Whether an operation has a packet to send. -/
def Flow.opHasPacket (fl : Flow) (x : Desc) : Bool := isSend x || fl.keyUpdate x || fl.notifies x

/-- Whether a flow has a packet left to send. -/
def Dev.flowHasPacket (d : Dev) (fl : Flow) : Bool :=
  fl.ops.any fun i => (d.op i).any fun o => fl.opHasPacket o.desc

/-- Bytes of the next packet's payload of IP for the operation at the front: TCP or QUIC bytes; none when nothing can
be sent. -/
def Dev.frontLen (d : Dev) (fl : Flow) (x : Desc) : Option Nat :=
  if isSend x then
    let n := d.nextLen fl x
    if n = 0 then none
    else some (if fl.mode = 0 then n else n + 32 + fl.tsOff + (varint (Desc.le x 32 8)).length)
  else if fl.keyUpdate x then some 27
  else if fl.notifies x then
    some (if fl.mode = 0 then 24 else 21 + fl.tsOff + (1 + (varint (Desc.le x 16 8)).length + 1 + 1))
  else none

/-- The next packet itself. -/
def Dev.frontPacket (d : Dev) (fl : Flow) (x : Desc) : List Byte :=
  if isSend x then d.sendPacket fl x (d.nextLen fl x)
  else if fl.keyUpdate x then
    fl.tcpPacket d.tb.dt fl.next 0
      (fl.tlsRecord fl.key fl.iv fl.tlsSeq 22 ([0x18, 0, 0, 1] ++ [BitVec.ofNat 8 (b2n (bit (Desc.byte x 12) 1))]))
  else if fl.mode = 0 then fl.tcpPacket d.tb.dt fl.next 1 (fl.tlsRecord fl.key fl.iv fl.tlsSeq 21 [1, 0])
  else fl.quicPacket fl.next ([0x1D] ++ varint (Desc.le x 16 8) ++ varint 0 ++ varint 0)

/-! ### Credit (R350) -/

/-- The instant at which the credit is 0 or more; none while it never is. -/
def Flow.zeroAt (fl : Flow) : Option Nat :=
  if 0 ≤ fl.credit then some fl.creditAt
  else if fl.rate = 0 then none
  else some (fl.creditAt + ceilDiv (fl.credit.natAbs * 1000000000) (fl.rate * 125))

/-- LAUNCH_DT of an operation. -/
def launchOf (x : Desc) : Nat := if isSend x ∧ Desc.le x 48 12 ≠ 0 then ofDt96 (Desc.le x 48 12) else 0

/-- The credit at `now`, while a packet waits whose LAUNCH_DT is `launch`, or none does. Above 0 it rises only as long as
queue, pool or enables hold the packet back (rules 2 and 4). -/
def Flow.creditOf (fl : Flow) (now : Nat) (waits : Bool) (launch : Nat) : Int :=
  let r := fl.rate * 125
  let up (a b : Nat) : Int := ((r * (b - a) / 1000000000 : Nat) : Int)
  match fl.zeroAt with
  | none => fl.credit
  | some z =>
    if fl.rate = 0 then (if waits then fl.credit else min fl.credit 0)
    else if now < z then fl.credit + up fl.creditAt now
    else if waits then
      let c := max fl.credit 0
      min (max c (fl.burst * 65536)) (c + up (max (max z launch) fl.readyAt) (min now (fl.since.getD now)))
    else 0

/-- The front operation of a flow. -/
def Dev.frontOf (d : Dev) (fl : Flow) : Option Op := fl.ops.head?.bind d.op

/-- LAUNCH_DT of the front operation. -/
def Dev.frontLaunch (d : Dev) (fl : Flow) : Nat := match d.frontOf fl with
  | some o => launchOf o.desc
  | none => 0

/-- The credit is brought up to date. -/
def Dev.flowCredit (d : Dev) (fl : Flow) : Flow :=
  { fl with credit := fl.creditOf d.tb.dt (d.flowHasPacket fl) (d.frontLaunch fl), creditAt := d.tb.dt }

/-! ### Running a flow's operations (R296) -/

/-- The segment that a SEND or RESEND holds is released (R276). -/
def Dev.sendRelease (d : Dev) (op : Op) : Dev :=
  let h := Desc.le op.desc 12 4
  if h = noHandle then d else d.release h (ownerFn op.fn)

/-- The operation at the front of a flow is gone. -/
def Flow.pop (fl : Flow) : Flow :=
  { fl with ops := fl.ops.drop 1, sent := 0, sentPkts := 0, next0 := fl.next, tls0 := fl.tlsSeq }

/-- The new keys of a REKEY (R294). -/
def Flow.rekey (fl : Flow) (x : Desc) : Flow :=
  let key := beNum ((leBytes 64 x.toNat).drop 16 |>.take 32)
  let iv := beNum ((leBytes 64 x.toNat).drop 48 |>.take 12)
  if fl.mode = 0 then { fl with prevKey := fl.key, prevIv := fl.iv, prevValid := true, tlsSeq := 0, key := key, iv := iv }
  else { fl with keyPhase := !fl.keyPhase, key := key, iv := iv }

/-- Operations at the front that have nothing more to send complete, and the next one begins; `n` bounds how many. -/
def Dev.flowRun (d : Dev) (f : Nat) : Nat → Dev
  | 0 => d
  | n + 1 => match d.flow f with
    | none => d
    | some fl => match fl.ops with
      | [] => d
      | id :: _ => match d.op id with
        | none => (d.setFlow f fl.pop).flowRun f n
        | some op =>
          if isSend op.desc then
            (if d.nextLen fl op.desc = 0 then
              let r := d.sendResult fl op.desc
              let d1 := if r.status = stPoison then d.count (Reg.MEM_COUNT 3) 1 else d
              (((d1.setFlow f fl.pop).sendRelease op).finish id r).flowRun f n
            else d)
          else if opcodeOf op.desc = opRekey then
            (if fl.keyUpdate op.desc && fl.sentPkts == 0 then d
            else ((d.setFlow f (fl.rekey op.desc).pop).finish id (resOf stOk)).flowRun f n)
          else d

/-- A flow's operations run on, and its credit follows rule 3 of R350 when nothing is left. -/
def Dev.flowGo (d : Dev) (f : Nat) : Dev :=
  match d.flow f with
  | none => d
  | some fl =>
    let e := d.flowRun f (fl.ops.length + 1)
    match e.flow f with
    | none => e
    | some y => if e.flowHasPacket y then e else e.setFlow f { y with credit := min y.credit 0 }

/-! ### Release by Hoist (R351) -/

/-- Conditions 3 to 5 of R351 for a packet of `n` frame bytes. -/
def Dev.hoistRoom (d : Dev) (fl : Flow) (n : Nat) : Bool :=
  d.egressBound fl.queue fl.port && d.egressRoom fl.queue n && d.enabled 11 && d.enabled 15 && d.enabled 10

/-- Frame bytes of a flow's next packet. -/
def Dev.flowFrame (d : Dev) (fl : Flow) : Option Nat :=
  (d.frontOf fl).bind fun o => (d.frontLen fl o.desc).map fun n => fl.hdrLen + n

/-- Since when a flow meets conditions 3 to 5 is kept up to date, and with a change its credit. -/
def Dev.flowMark (d : Dev) (fl : Flow) : Flow :=
  let room := (d.flowFrame fl).any fun n => d.hoistRoom fl n
  if room = fl.since.isSome then fl else { d.flowCredit fl with since := if room then some d.tb.dt else none }

/-- The same for every flow. -/
def Dev.hoistMark (d : Dev) : Dev :=
  { d with dlv := { d.dlv with flows := d.dlv.flows.map fun e => (e.1, d.flowMark e.2) } }

/-- The DT at which a flow's next packet becomes releasable; none while a condition fails. -/
def Dev.releasableAt (d : Dev) (fl : Flow) : Option Nat :=
  match fl.since, fl.zeroAt with
  | some s, some z => if fl.rate = 0 then none else some (max (max s z) (d.due (max (d.frontLaunch fl) fl.readyAt)))
  | _, _ => none

/-- Whether another flow of the same queue is released first (R351). -/
def Dev.releasedBefore (d : Dev) (f : Nat) (fl : Flow) (t : Nat) : Bool :=
  d.dlv.flows.any fun e => e.1 != f && e.2.queue == fl.queue &&
    (d.releasableAt e.2).any fun u => decide (u < t) || (u == t && decide (e.1 < f))

/-- A packet enters its queue, or is discarded when it exceeds the queue's frame limit (R339). -/
def Dev.hoistPut (d : Dev) (f : Nat) (fl : Flow) (pkt : List Byte) : Dev :=
  if d.frameLimit fl.queue < pkt.length + 4 then d.qmDrop 6 0
  else d.putFrame fl.queue
    { id := 0, data := pkt, ingress := none, rxDt := 0, meta_ := [], spilled := false, op := none, flow := some f }

/-- A flow's record after its next packet has been released (R289-R291, R294). -/
def Dev.afterRelease (d : Dev) (fl : Flow) (x : Desc) (frame : Nat) : Flow :=
  let c := d.flowCredit fl
  let c := { c with credit := c.credit - (wireBytes frame : Nat) * 65536, sentPkts := c.sentPkts + 1,
                    ipId := wrapAdd 16 c.ipId 1 }
  if isSend x then
    let n := d.nextLen fl x
    let sent := fl.sent + n
    if fl.mode = 1 then { c with sent := sent, next := wrapAdd 62 fl.next 1 }
    else if fl.tcpResend x then { c with sent := sent }
    else { c with sent := sent, next := (fl.next0 + sent) % 2 ^ 32, tlsSeq := (fl.tls0 + ceilDiv sent fl.wireRecord) % 2 ^ 64 }
  else if fl.mode = 1 then { c with next := wrapAdd 62 fl.next 1 }
  else { c with next := wrapAdd 32 fl.next (frame - fl.hdrLen), tlsSeq := wrapAdd 64 fl.tlsSeq 1 }

/-- Hoist releases a flow's next packet: the device after the packet has been queued, at the DT of its release; none when
it may not go. -/
def Dev.hoistFlow (d : Dev) (f : Nat) : Option Dev :=
  match d.flow f with
  | none => none
  | some fl => match d.frontOf fl, d.releasableAt fl with
    | some op, some t =>
      if d.releasedBefore f fl t then none
      else
        let e := d.advanceTo t
        let pkt := e.frontPacket fl op.desc
        let e1 := (e.setFlow f (e.afterRelease fl op.desc pkt.length)).hoistPut f fl pkt
        let x : PmAttr := ⟨some op.level, some (0x1000 + op.fn), none, none⟩
        some (e1.pmEvent 36 0x61 pkt.length x)
    | _, _ => none

/-! ### Taking an operation (R283-R296) -/

/-- Fields of an operation that R286 reserves in the flow's mode are 0, and the layout's own bits are. -/
def flowOpFormat (fl : Flow) (x : Desc) : Bool :=
  let op := opcodeOf x
  if op = opSend ∨ (op = opResend ∧ fl.mode = 1) then
    dt96Ok (Desc.le x 48 12) && zeroAt x 61 3 && decide (sendBytes x ≤ 2 ^ 30) &&
    (if fl.mode = 0 then zeroAt x 32 16 && zeroAt x 60 1
     else decide (Desc.byte x 60 < 2) && decide (Desc.le x 32 8 < 2 ^ 62) && decide (Desc.le x 40 8 < 2 ^ 62))
  else if op = opResend then decide (Desc.byte x 52 < 2) && zeroAt x 53 11 && decide (sendBytes x ≤ 2 ^ 30)
  else if op = opRekey then decide (Desc.byte x 12 < (if fl.mode = 0 then 4 else 1)) && zeroAt x 13 3 && zeroAt x 60 4
  else if op = opClose then
    decide (Desc.byte x 12 < 4) && zeroAt x 13 3 && zeroAt x 24 40 &&
    (if fl.mode = 0 then zeroAt x 16 8 else decide (Desc.le x 16 8 < 2 ^ 62))
  else
    decide (Desc.byte x 16 < (if fl.mode = 0 then 4 else 2)) && zeroAt x 17 3 && zeroAt x 26 2 && zeroAt x 32 32

/-- What refuses the segment or range that a SEND or RESEND names (R276, R288, R292). -/
def Dev.sendRange (d : Dev) (op : Op) (fl : Flow) : Nat :=
  let x := op.desc
  let h := Desc.le x 12 4
  let n := sendBytes x
  let beyond := fl.tcpResend x && decide (fl.tcpBytes n < Desc.le x 44 4 + Desc.le x 48 4)
  worst [when_ beyond stBadSegment,
    if h = noHandle then
      when_ (!d.windowHas op.fn op.level (Desc.le x 16 8 + Desc.le x 24 4) n) stProt
    else if d.handleOk h = false || (d.buf h).state != 1 || d.segSerial h != Desc.le x 16 8 then stBadSegment
    else worst [when_ (decide (d.segBytes h < Desc.le x 24 4 + n)) stBadSegment,
      when_ (!d.ownsStream op (leNum (d.dataRead (d.bufAddr h + 4) 2) % 8192)) stProt]]

/-- Whether the state of a flow accepts an operation (R283). -/
def flowAccepts (state : Nat) (x : Desc) : Bool := state == 1 || (state == 3 && opcodeOf x == opClose)

/-- What refuses an operation before its flow's context is needed: R8, R68, R75, R83, R283, R286. -/
def Dev.flowGate (d : Dev) (op : Op) : Nat :=
  let x := op.desc
  let f := flowNum x
  worst [d.deliveryGate op (opcodeOf x == opRekey) (Desc.field x 8 31 18 == 0),
    when_ (!d.owns FnState.flows op.fn op.level f) stProt, when_ (!flowAccepts (d.flowState f) x) stFlowState,
    match d.flow f with
    | some fl => when_ (!flowOpFormat fl x) stMalformed
    | none => 0]

/-- What refuses a SEND or RESEND once the context is loaded. -/
def Dev.sendGate (d : Dev) (op : Op) (fl : Flow) : Nat :=
  let x := op.desc
  worst [d.sendRange op fl, when_ (!d.egressBound fl.queue fl.port) stTxNoQueue,
    when_ (fl.tcpResend x && bit (Desc.byte x 52) 0 && !fl.prevValid) stFlowState]

/-- SET_RATE's effect (R293). -/
def Dev.setRate (d : Dev) (fl : Flow) (x : Desc) : Flow :=
  let c := d.flowCredit fl
  let c1 := if bit (Desc.byte x 16) 0 then { c with rate := Desc.le x 12 4 } else c
  if bit (Desc.byte x 16) 1 then
    { c1 with ackNum := Desc.le x 20 4, window := Desc.le x 24 2, tsecr := Desc.le x 28 4 }
  else c1

/-- Operations behind the front that ABORT ends before they begin (R295). -/
def Dev.abortRest (d : Dev) (l : List Nat) : Dev :=
  l.foldl (fun e i => match e.op i with
    | some o => if isSend o.desc then (e.sendRelease o).finish i (resOf stFlowClosed) else e
    | none => e) d

/-- An operation whose flow is in the cache is performed or joins the flow's operations. -/
def Dev.flowTake (d : Dev) (op : Op) (fl : Flow) : Dev :=
  let x := op.desc
  let f := flowNum x
  let fl1 := d.flowCredit fl
  let fl2 := { fl1 with ops := fl1.ops ++ [op.id],
                        readyAt := if d.flowHasPacket fl then fl1.readyAt else d.tb.dt }
  if opcodeOf x = 0x42 then (d.setFlow f (d.setRate fl x)).finish op.id (resOf stOk)
  else if isSend x then
    let st := d.judged op fun e => e.sendGate op fl
    let n := if fl.tcpResend x then Desc.le x 48 4 else sendBytes x
    if st ≠ 0 then
      (if st = stTxNoQueue then (d.setEvent Reg.HOIST_EVENTS 1).pmEvent 35 0x62 1 op.attr
       else d).finish op.id (resOf st)
    else if n = 0 ∨ sendBytes x = 0 then d.finish op.id (resOf stZero)
    else if Desc.le x 12 4 = noHandle then (d.setFlow f fl2).flowGo f
    else
      let y := d.hold (Desc.le x 12 4)
      if y.2 ≠ 0 then y.1.finish op.id (resOf (if y.2 = stNoBuffer then stNoBuffer else stBadSegment))
      else (y.1.setFlow f fl2).flowGo f
  else if opcodeOf x = opRekey then (d.setFlow f fl2).flowGo f
  else
    let ab := bit (Desc.byte x 12) 0
    let d1 := (if ab then d.abortRest (fl.ops.drop 1) else d).setReg Reg.FLOWS_OPEN (d.reg Reg.FLOWS_OPEN - 1)
    let gone (i : Nat) : Bool := ab && (fl.ops.drop 1).contains i && (d.op i).any fun o => isSend o.desc
    (d1.setFlow f { fl2 with state := 2, abort := ab, ops := fl2.ops.filter fun i => !gone i }).flowGo f

/-- An operation meets its flow: it is refused, by the rules of its epoch (R85), waits for a cache entry, finds the context
corrupt, or is taken. -/
def Dev.flowMeet (d : Dev) (op : Op) (ok : Bool) : Dev :=
  let f := flowNum op.desc
  match d.judged op (fun e => e.flowGate op), d.flow f with
  | 0, some fl =>
    if d.dlv.cacheWait.any (fun i => (d.op i).any fun o => flowNum o.desc == f) then
      { d with dlv := { d.dlv with cacheWait := d.dlv.cacheWait ++ [op.id] } }
    else
      let hit := d.dlv.cache.contains f
      let y := d.flowEntry f
      if y.2 = false then { d with dlv := { d.dlv with cacheWait := d.dlv.cacheWait ++ [op.id] } }
      else if !hit && !ok && fl.state == 1 then (y.1.flowCorrupt f fl).finish op.id (resOf stFlowCorrupt)
      else y.1.flowTake op fl
  | st, _ => d.finish op.id (resOf st)

/-- The order class of a flow's operations (R74, R296). -/
def flowKey (op : Op) : Nat := keyFlow (flowNum op.desc)

/-- A delivery operation's start: it keeps its place among its flow's operations (R74, R296). -/
def Dev.flowStart (d : Dev) (o : RingOp) (code : Nat) (ok : Bool) : Dev :=
  match d.start o flowKey with
  | (e, none) => e
  | (e, some (op, bad)) =>
    if bad ≠ 0 then e.finish op.id (resOf (worst [bad, e.judged op fun y => y.flowGate op]))
    else if opcodeOf op.desc ≠ code then e.finish op.id (resOf stMalformed)
    else (e.flowMeet op ok).hoistMark

/-! ### Meanings -/

/-- SEND (R288-R291): opcode 0x40; `ok` says whether the context authenticates where it must be loaded (R285). -/
def execSend (o : RingOp) (ok : Bool) (s : State) : Host.Outcome State Fault Refusal :=
  s.act fun d => d.flowStart o 0x40 ok

/-- RESEND (R292). -/
def execResend (o : RingOp) (ok : Bool) (s : State) : Host.Outcome State Fault Refusal :=
  s.act fun d => d.flowStart o 0x41 ok

/-- SET_RATE (R293). -/
def execSetRate (o : RingOp) (ok : Bool) (s : State) : Host.Outcome State Fault Refusal :=
  s.act fun d => d.flowStart o 0x42 ok

/-- CLOSE (R295). -/
def execCloseFlow (o : RingOp) (ok : Bool) (s : State) : Host.Outcome State Fault Refusal :=
  s.act fun d => d.flowStart o 0x43 ok

/-- REKEY (R294). -/
def execRekey (o : RingOp) (ok : Bool) (s : State) : Host.Outcome State Fault Refusal :=
  s.act fun d => d.flowStart o 0x45 ok

/-- What refuses an OPEN (R287). -/
def Dev.openStatus (e : Dev) (op : Op) : Nat :=
  let x := op.desc
  let f := flowNum x
  worst [e.deliveryGate op true (opcodeOf x == 0x44 && Desc.field x 8 31 18 == 0 && zeroAt x 12 4 &&
        zeroAt x 24 40 && Desc.le x 16 8 % 64 == 0),
      when_ (!e.owns FnState.flows op.fn op.level f) stProt, when_ (e.flowState f != 0) stFlowState,
    flowCtxStatus (e.hostRead (Desc.le x 16 8) 256)]

/-- OPEN (R287). -/
def execOpenFlow (o : RingOp) (s : State) : Host.Outcome State Fault Refusal :=
  s.act fun d => d.runOp o flowKey fun e0 op =>
    let e := e0.opRead op 256
    let x := op.desc
    let f := flowNum x
    let b := e.hostRead (Desc.le x 16 8) 256
    let st := e.openStatus op
    if st ≠ 0 then (e, resOf st)
    else (((e.setFlow f (flowOfCtx (e.createdFor FnState.flows op f) e.tb.dt b)).flowEntry f).1.count Reg.FLOWS_OPEN 1, resOf stOk)

/-- FLOW_CLOSE_DONE (R295): the earlier operations have ended; the final packet goes if one is asked for, and the flow
becomes FREE. -/
def execFlowCloseDone (flow : Nat) (s : State) : Host.Outcome State Fault Refusal :=
  s.act fun d =>
    match d.flow flow with
    | none => d
    | some fl => match d.frontOf fl with
      | none => d
      | some op =>
        if opcodeOf op.desc ≠ opClose then d
        else
          let after := if fl.notifies op.desc then d.hoistFlow flow else some d
          match after with
          | none => d
          | some e =>
            (({ e with dlv := { e.dlv with flows := SMap.erase e.dlv.flows flow,
                                           cache := e.dlv.cache.filter (· != flow) } }).finish op.id (resOf stOk)).hoistMark

/-- FLOW_CACHE_ENTRY_FREE (R285): the entry of a flow with no operation frees, and the operation that has waited longest
takes it, and those of the same flow with it. -/
def execFlowCacheEntryFree (flow : Nat) (ok : Bool) (s : State) : Host.Outcome State Fault Refusal :=
  s.act fun d =>
    if !d.dlv.cache.contains flow || (d.flow flow).any fun x => !x.ops.isEmpty then d
    else
      let e := d.flowEvict flow
      let waiters : List Op := e.dlv.cacheWait.filterMap e.op
      match waiters with
      | [] => e
      | op :: r =>
        let same := op :: r.filter fun o => flowNum o.desc == flowNum op.desc
        let rest := r.filter fun o => flowNum o.desc != flowNum op.desc
        let e1 := { e with dlv := { e.dlv with cacheWait := rest.map Op.id } }
        (same.foldl (fun (e : Dev) (o : Op) =>
          if e.flowState (flowNum op.desc) = 3 ∧ opcodeOf o.desc ≠ opClose then e.finish o.id (resOf stFlowCorrupt)
          else e.flowMeet o ok) e1).hoistMark

end Sys2Proof.Machine
end

