-- ==== Sys2Proof/Machine/EgressOps.lean ====
section
/-! DEFINITION. Hoist's release of frames, the choice of frames at a port, their transmission (spec/14_queues_scheduling.md
R350-R361), and the link of a port (spec/12_ethernet_ports.md R302-R311). -/

namespace Sys2Proof.Machine

def stTxTooLong : Nat := 0x0151

/-! ### Transmitted frames (R306, R310, R311, R359) -/

/-- The transmit pipeline's frame events and the port's bandwidth (R510, R519): `code` events and bytes of a frame of `n`
bytes with FCS. -/
def Dev.pmTx (d : Dev) (p tc n : Nat) : Dev :=
  let x : PmAttr := ⟨none, some (0x5000 + p), none, some tc⟩
  (((d.pmEvent (32 + p / 64) 0x50 1 x).pmEvent (32 + p / 64) 0x51 n x).bwAdd (Reg.PM_BW_PORT_TX_LO p) n)

/-- A signed delay register in 1/256 ns, in 2^-16 ns. -/
def Dev.tsDelay (d : Dev) (a : Nat) : Int := signed 32 (d.reg a) * 256

/-- The transmit timestamp of a frame whose first bit left at `t`. -/
def Dev.txStamp (d : Dev) (p t : Nat) : Nat := ((t : Int) + d.tsDelay (Reg.TS_TX_DELAY (p / 16) (p % 16))).toNat

/-- A TX_FRAME whose first bit left at `first` completes (R359, R360). -/
def Dev.txDone (d : Dev) (f : QFrame) (p first : Nat) : Dev :=
  match f.op with
  | none => d
  | some id => match d.qm.tx.find? fun w => w.op == id with
    | none => d
    | some w =>
      let late := w.timed && (decide (w.launch + d.fld Reg.HOIST_CTRL 25 16 * unitsPerNs < first) ||
        decide (first + 2 ^ 47 * unitsPerSec < w.launch))
      let d1 := match w.tsAddr with
        | some a => match d.op id with
          | some op => d.opWrite op a (leBytes 12 (dt96 (d.txStamp p first)) ++ leBytes 4 0)
          | none => d
        | none => d
      let d2 := if late then (d1.count Reg.HOIST_LATE 1).setEvent Reg.HOIST_EVENTS 0 else d1
      let d3 := { d2 with qm := { d2.qm with tx := d2.qm.tx.filter fun y => y.op != id } }
      d3.finish id ⟨if late then stLate else stOk, f.data.length, 0, 0⟩

/-- A TX_FRAME ends without leaving. -/
def Dev.txFail (d : Dev) (id st : Nat) : Dev :=
  let d1 := { d with qm := { d.qm with tx := d.qm.tx.filter fun y => y.op != id } }
  let d2 := if st = stTxNoQueue then (d1.setEvent Reg.HOIST_EVENTS 1).pmEvent 35 0x62 1 pmNone else d1
  d2.finish id (resOf st)

/-- Frame bytes with FCS, padded (R306). -/
def txBytes (n : Nat) : Nat := max 64 (n + 4)

/-- A frame as it leaves, without its FCS: padded to 60 bytes. -/
def padded (l : List Byte) : List Byte := l ++ List.replicate (60 - l.length) 0

/-- The frame on a port's wire. -/
def Dev.onWire (d : Dev) (p : Nat) : Option OnWire := d.qm.wire.find? fun w => w.port == p

/-- The wire of a port is free again. -/
def Dev.clearWire (d : Dev) (p : Nat) : Dev := { d with qm := { d.qm with wire := d.qm.wire.filter fun w => w.port != p } }

/-- A port's next frame begins no earlier than `t`. -/
def Dev.portBusy (d : Dev) (p t : Nat) : Dev := d.setPort p { d.port p with freeAt := t }

/-! ### The choice of a frame (R352, R353) -/

/-- HOIST_PORT of a port, as its unit of the window has it. -/
def Dev.hoistPort (d : Dev) (p : Nat) : Nat := d.liveReg 11 p (Reg.HOIST_PORT p)

/-- Queues with frames whose QUEUE_CFG names a port, in rising order. -/
def Dev.portQueues (d : Dev) (p : Nat) : List Nat :=
  d.qm.queues.filterMap fun e =>
    if decide (e.1 < 12288) && d.fld (Reg.QUEUE_CFG e.1) 30 24 == p && !e.2.frames.isEmpty then some e.1 else none

/-- Strict slot or weighted group of a queue, and its traffic class. -/
def Dev.slotOf (d : Dev) (q : Nat) : Nat := d.fld (Reg.QUEUE_CFG q) 23 21
def Dev.classOf (d : Dev) (q : Nat) : Nat := d.fld (Reg.QUEUE_CFG q) 20 18

/-- Whether the head of a queue is eligible now. -/
def Dev.eligible (d : Dev) (p q : Nat) : Bool :=
  bit (d.hoistPort p) (d.slotOf q) && !d.stops p (d.classOf q) && d.gateOpen p q (d.classOf q) && d.enabled 14 && d.enabled 11

/-- The virtual time of a port. -/
def Dev.vtime (d : Dev) (p : Nat) : Nat := SMap.get (fun _ => 0) d.qm.vt p

/-- The increment of a frame of `n` bytes in queue `q`. -/
def Dev.tagInc (d : Dev) (p q n : Nat) : Nat :=
  ceilDiv (wireBytes n * 1024) (max (bits (d.liveReg 11 p (Reg.HOIST_WEIGHT q)) 11 0) 1)

/-- A weighted queue's tag is set when its head becomes eligible, and forgotten when it is not. -/
def Dev.tagQueue (d : Dev) (p q : Nat) : Dev :=
  let x := d.queue q
  match x.frames with
  | [] => d.setQueue q { x with wasElig := false, headTag := none }
  | f :: _ =>
    if d.eligible p q = false then d.setQueue q { x with wasElig := false, headTag := none }
    else
      let inc := d.tagInc p q f.data.length
      let t := if x.wasElig then x.headTag.getD (wrapAdd 64 x.tag inc) else wrapAdd 64 (max (d.vtime p) x.tag) inc
      d.setQueue q { x with wasElig := true, headTag := some t }

/-- Weighted queues of a port that hold frames or a memory of their last selection. -/
def Dev.groupQueues (d : Dev) (p : Nat) : List Nat :=
  d.qm.queues.filterMap fun e =>
    if decide (e.1 < 12288) && d.fld (Reg.QUEUE_CFG e.1) 30 24 == p && d.slotOf e.1 == 4 then some e.1 else none

/-- The lowest tag's queue, a tie going to the lower number. -/
def leastTag : List (Nat × Nat) → Option (Nat × Nat)
  | [] => none
  | x :: r => match leastTag r with
    | none => some x
    | some y => if x.2 ≤ y.2 then some x else some y

/-- The queue whose head a port sends next; the tags are set already. -/
def Dev.chooseQueue (d : Dev) (p : Nat) : Option Nat :=
  let l := d.portQueues p
  match (List.range 4).findSome? fun s => l.find? fun q => d.slotOf q == s && d.eligible p q with
  | some q => some q
  | none =>
    (leastTag (l.filterMap fun q =>
      if d.slotOf q == 4 && d.eligible p q then (d.queue q).headTag.map fun t => (q, t) else none)).map Prod.fst

/-- The tag of a weighted queue that has been chosen becomes its last one and the port's virtual time. -/
def Dev.tagTaken (d : Dev) (p q : Nat) : Dev :=
  let x := d.queue q
  match x.headTag with
  | some t =>
    let e := d.setQueue q { x with tag := t, headTag := none }
    { e with qm := { e.qm with vt := SMap.set (fun _ => 0) e.qm.vt p t } }
  | none => d

/-- The head of a queue goes to the wire of a port, or is discarded when it exceeds the port's MAX_FRAME (R306). -/
def Dev.sendHead (d : Dev) (p q : Nat) : Dev :=
  match (d.queue q).frames with
  | [] => d
  | f :: _ =>
    let tc := d.classOf q
    let d1 := (if d.slotOf q = 4 then d.tagTaken p q else d).popFrame q
    if d1.maxFrame p < txBytes f.data.length then
      let d2 := (d1.ethCount p 8 1).freeFrame f
      match f.op with
      | some id => d2.txFail id stTxTooLong
      | none => d2
    else { d1 with qm := { d1.qm with wire := d1.qm.wire ++ [{ port := p, queue := q, frame := f, first := d1.tb.dt, tc := tc }] } }

/-- A pause frame that is due leaves (R309): 64 bytes. -/
def Dev.sendPause (d : Dev) (p : Nat) (x : Nat × List Nat) (r : List (Nat × List Nat)) : Dev :=
  let y := d.port p
  let e := ((d.setPort p { y with due := r, freeAt := d.tb.dt + d.bitTime p (84 * 8) }).ethCount p 9 1).emit
    (.pause p x.1 x.2)
  e.bwAdd (Reg.PM_BW_PORT_TX_LO p) 64

/-- A frame boundary of a port (R352). -/
def Dev.egressSelect (d : Dev) (p : Nat) : Dev :=
  if !d.portOn p || !(d.port p).up || (d.onWire p).isSome then d
  else
    let e := d.advanceTo (d.port p).freeAt
    match (e.port p).due with
    | x :: r => ((e.groupQueues p).foldl (fun y q => y.tagQueue p q) e).sendPause p x r
    | [] =>
      let t := (e.groupQueues p).foldl (fun y q => y.tagQueue p q) e
      match t.chooseQueue p with
      | some q => t.sendHead p q
      | none => e

/-- The last bit of the frame on a port's wire leaves (R306, R310, R359); `out` is false in loopback. -/
def Dev.txEnd (d : Dev) (p : Nat) (out : Bool) : Dev :=
  match d.onWire p with
  | none => d
  | some w =>
    let n := txBytes w.frame.data.length
    let e := d.advanceTo (w.began + d.bitTime p (8 * n))
    let e1 := (((e.clearWire p).ethCount p 6 1).ethCount p 7 n).pmTx p w.tc n
    let e2 := (if out then e1.emit (.frame p (padded w.frame.data) (e1.txStamp p w.first)) else e1).freeFrame w.frame
    ((e2.txDone w.frame p w.first).portBusy p (w.began + e2.bitTime p (8 * (n + 20)))).safePoint 11 p

/-- The frame on a port's wire is cut short: it still counts as launched (R306). -/
def Dev.txCut (d : Dev) (p : Nat) : Dev :=
  match d.onWire p with
  | none => d
  | some w =>
    let e := (((d.clearWire p).ethCount p 8 1).emit (.frameAbort p)).freeFrame w.frame
    (e.txDone w.frame p w.first).safePoint 11 p

/-! ### Frames of Host Transmit rings (R358-R360) -/

/-- The first frame of a ring that waits for its release. -/
def Dev.txFront (d : Dev) (ring : Nat) : Option TxWait := d.qm.tx.find? fun w => w.ring == ring && !w.released

/-- Hoist releases the next frame of a Host Transmit ring into its queue (R359): it must be due, and its queue, the pool
and the enables must let it. -/
def Dev.hoistOne (d : Dev) (ring : Nat) : Dev :=
  match d.txFront ring with
  | none => d
  | some w =>
    if !d.enabled 11 || !d.enabled 10 then d
    else if !d.egressBound w.queue w.port then d.txFail w.op stTxNoQueue
    else if d.egressRoom w.queue w.data.length = false then d
    else
      let e := d.advanceDue w.launch
      if e.frameLimit w.queue < w.data.length + 4 then (e.qmDrop 6 0).txFail w.op stTxTooLong
      else
        let l := e.qm.tx.map fun y => if y.op = w.op then { y with released := true } else y
        let e1 := { e with qm := { e.qm with tx := l } }
        (e1.pmEvent 35 0x61 w.data.length pmNone).putFrame w.queue
          { id := 0, data := w.data, ingress := none, rxDt := 0, meta_ := [], spilled := false, op := some w.op,
            flow := none }

/-- Rings whose next frame has the launch time of ring `ring`'s and was scheduled before it, in the order of their
scheduling (R44). -/
def Dev.hoistBefore (d : Dev) (ring : Nat) : List Nat :=
  match d.txFront ring with
  | none => []
  | some w =>
    (d.qm.tx.filter fun y => !y.released && decide (0 < w.launch) && y.launch == w.launch && decide (y.op < w.op) &&
      (d.txFront y.ring).any fun z => z.op == y.op).map TxWait.ring

/-- The next frame of a ring is released, behind those that R44 puts before it. -/
def Dev.hoistFrame (d : Dev) (ring : Nat) : Dev := ((d.hoistBefore ring).foldl Dev.hoistOne d).hoistOne ring

/-- HOIST_CTRL.ENABLE rises (R353): virtual times and tags start at 0. -/
def Dev.hoistRise (d : Dev) : Dev :=
  { d with qm := { d.qm with
      vt := [], queues := d.qm.queues.map fun e => (e.1, { e.2 with tag := 0, headTag := none, wasElig := false }) } }

/-! ### The link (R302, R303, R307) -/

/-- First lane of the port that a lane belongs to. -/
def Dev.portOfLane (d : Dev) (l : Nat) : Nat := l / modeLanes (d.portMode l) * modeLanes (d.portMode l)

/-- Bit of a port in its group's LG_EVENTS. -/
def Dev.lgEvent (d : Dev) (p b : Nat) : Dev := d.setEvent (Reg.LG_EVENTS (p / 16)) b

/-- A port starts again from negotiation: nothing is resolved and no lane is trained. -/
def Dev.portRestart (d : Dev) (p : Nat) : Dev :=
  let e := (d.setFlag (d.portReg p) 7 false).setFlag (d.portReg p) 6 false
  { e with eth := { e.eth with trained := e.eth.trained.filter fun x => e.portOfLane x.1 != p } }

/-- The link of a port comes up. -/
def Dev.linkUp (d : Dev) (p : Nat) : Dev :=
  if !d.portOn p || (d.port p).up then d
  else
    let a := d.portReg p
    let e := d.setPort p { d.port p with up := true }
    let e1 := ((e.setFld a 3 0 3).lgEvent p (p % 16))
    if e1.flag (Reg.LG_CTRL (p / 16)) 3 then e1 else e1.setFld a 5 4 (e1.fld (Reg.LG_CTRL (p / 16)) 9 8)

/-- The link of a port goes down: what of REMOTE_FAULT, LOCAL_FAULT and ALIGNED shows it, the command does not say (DESIGN CHOICE, log
entry 18). -/
def Dev.linkDown (d : Dev) (p : Nat) : Dev :=
  if !(d.port p).up then d
  else
    let a := d.portReg p
    let e := (d.setPort p { d.port p with up := false }).setFlag a 0 false
    let e1 := (e.setFld a 3 1 e.freeNat).useFree
    ((e1.lgEvent p (p % 16)).ethCount p 13 1).txCut p

/-- Whether technology `t` is of a mode (R302): 0 to 3 25GBASE-KR, CR, KR-S and CR-S, 4 and 5 100GBASE-KR4 and CR4. -/
def techFits (mode t : Nat) : Bool := if mode = 0 then decide (t ≤ 3) else mode == 1 && (t == 4 || t == 5)

/-- Auto-negotiation of a port ends (R302). -/
def Dev.anResolve (d : Dev) (p : Nat) (ok : Bool) (tech fec : Nat) : Dev :=
  let g := p / 16
  if !d.portOn p || !d.flag (Reg.LG_CTRL g) 3 then d
  else if ok && techFits (d.portMode p) tech then
    (d.setFlag (d.portReg p) 7 true).setFld (d.portReg p) 5 4 (min fec (d.fld (Reg.LG_CTRL g) 9 8))
  else (d.portRestart p).lgEvent p 16

/-- A lane has trained (R303). -/
def Dev.laneTrained (d : Dev) (l : Nat) : Dev :=
  let p := d.portOfLane l
  if !d.portOn p || !d.flag (Reg.LG_CTRL (l / 16)) 2 then d
  else
    let e := { d with eth := { d.eth with trained := SMap.set (fun _ => false) d.eth.trained l true } }
    let all := (List.range (modeLanes (e.portMode p))).all fun i => SMap.get (fun _ => false) e.eth.trained (p + i)
    if all then e.setFlag (e.portReg p) 6 true else e

/-- The counters of a lane group are copied into their snapshot (R304). -/
def Dev.cntSnap (d : Dev) (g : Nat) : Dev :=
  (List.range 16).foldl (fun e l => (List.range 14).foldl (fun y k =>
    let v := SMap.get (fun _ => 0) y.eth.counters (14 * (16 * g + l) + k)
    (y.setReg (Reg.COUNTER_LO g l k) v).setReg (Reg.COUNTER_HI g l k) (v / 2 ^ 32)) e) d

/-! ### Meanings -/

/-- What refuses a TX_FRAME (R360, R361). -/
def Dev.txStatus (e : Dev) (op : Op) : Nat :=
  let x := op.desc
  let n := lengthOf x
  let q := Desc.le x 10 2
  let fl := Desc.byte x 12
  let l := Desc.le x 24 12
  let ts := Desc.le x 40 8
  let fmt := opcodeOf x == 0x80 && decide (Desc.byte x 8 < 128) && zeroAt x 9 1 && decide (fl < 4) && zeroAt x 13 3 &&
    zeroAt x 36 4 && zeroAt x 48 16 && dt96Ok l && (if bit fl 0 then ts % 16 == 0 else ts == 0) &&
    !(bit fl 1 && l == 0) && (n == 0 || decide (14 ≤ n)) && decide (q < 16384)
  let own := e.fld (Reg.QUEUE_CFG q) 17 12 == op.fn || (op.fn == 0 && decide (op.level ≤ 1))
  let bound := e.egressBound q (Desc.byte x 8)
  worst [e.gate op 4 false false fmt (decide (op.level ≤ 2)), when_ (!bound) stTxNoQueue,
    when_ (bound && decide (e.frameLimit q < n + 4)) stTxTooLong, when_ (bound && !own) stProt]

/-- A frame that TX_FRAME has taken, waiting for its release (R360). -/
def Dev.txWait (e : Dev) (op : Op) : TxWait :=
  let x := op.desc
  { op := op.id, ring := op.ring, port := Desc.byte x 8, queue := Desc.le x 10 2,
    launch := if Desc.le x 24 12 = 0 then 0 else ofDt96 (Desc.le x 24 12), timed := bit (Desc.byte x 12) 1,
    tsAddr := if bit (Desc.byte x 12) 0 then some (Desc.le x 40 8) else none,
    data := e.hostRead (Desc.le x 16 8) (lengthOf x), released := false }

/-- TX_FRAME (R358, R359): opcode 0x80 of a Host Transmit ring. -/
def execTxFrame (o : RingOp) (s : State) : Host.Outcome State Fault Refusal :=
  s.act fun d => d.runLater o (fun op => keyRing op.ring) fun e op =>
    let st := e.txStatus op
    if st = stTxNoQueue then
      (((e.setEvent Reg.HOIST_EVENTS 1).pmEvent 35 0x62 1 op.attr),
        some (resOf st))
    else if st ≠ 0 then (e, some (resOf st))
    else if lengthOf op.desc = 0 then (e, some (resOf stZero))
    else ({ e with qm := { e.qm with tx := e.qm.tx ++ [e.txWait op] } }.opRead op (lengthOf op.desc), none)

/-- HOIST_RELEASE (R351, R359): a flow's next packet, or a ring's next frame. -/
def execHoistRelease (r : ReleaseRef) (s : State) : Host.Outcome State Fault Refusal :=
  s.act fun d =>
    match r with
    | .flow f =>
      -- the final packet of CLOSE is FLOW_CLOSE_DONE's
      if ((d.flow f).bind d.frontOf).any (fun o => opcodeOf o.desc == opClose) then d
      else match d.hoistFlow f with
        | some e => (e.flowGo f).hoistMark
        | none => d
    | .frame ring => (d.hoistFrame ring).hoistMark

/-- EGRESS_SELECT (R352). -/
def execEgressSelect (port : Nat) (s : State) : Host.Outcome State Fault Refusal :=
  s.act fun d => (d.egressSelect port).hoistMark

/-- HOST_RX_DELIVERY (R326). -/
def execHostRxDelivery (ring : Nat) (s : State) : Host.Outcome State Fault Refusal :=
  s.act fun d => (d.hostRxDeliver ring).hoistMark

/-- LINK_UP (R307). -/
def execLinkUp (port : Nat) (s : State) : Host.Outcome State Fault Refusal :=
  s.keep fun d => d.linkUp port

/-- LINK_DOWN (R307, R306). -/
def execLinkDown (port : Nat) (s : State) : Host.Outcome State Fault Refusal :=
  s.keep fun d => (d.linkDown port).hoistMark

/-- AN_RESOLVE (R302). -/
def execAnResolve (port : Nat) (ok : Bool) (tech fec : Nat) (s : State) : Host.Outcome State Fault Refusal :=
  s.keep fun d => d.anResolve port ok tech fec

/-- LT_COMPLETE (R303). -/
def execLtComplete (lane : Nat) (s : State) : Host.Outcome State Fault Refusal :=
  s.keep fun d => d.laneTrained lane

/-- LT_FAIL (R303): 500 ms have passed for a lane at `t`. -/
def execLtFail (lane t : Nat) (s : State) : Host.Outcome State Fault Refusal :=
  s.keep fun d =>
    let p := d.portOfLane lane
    if !d.portOn p || !d.flag (Reg.LG_CTRL (lane / 16)) 2 then d
    else ((d.advanceTo t).portRestart p).lgEvent p 17

end Sys2Proof.Machine
end

