-- ==== Sys2Proof/Machine/FcOps.lean ====
section
/-! DEFINITION. The Fault Collector's commands and logs (spec/20_fault_collection.md) and the performance monitors
(spec/22_performance_monitors.md). -/

namespace Sys2Proof.Machine

/-! ### Masthead and forcing (R465, R466, R472) -/

/-- A write of FC_MH_REARM (R466). -/
def Dev.rearm (d : Dev) (v : Nat) : Dev :=
  if v = d.reg Reg.FC_MH_COUNT ∧ d.flag Reg.FC_MH_SRC 31 then
    ((d.setFlag Reg.FC_MH_SRC 31 false).setFlag Reg.FC_MH_SRC 30 false).setReg Reg.FC_MH_COUNT 0
  else d.setEvent (Reg.BLK_STATUS 4) 1

/-- A write of FC_FORCE (R472): refused for a reserved source or one of 512 to 639. -/
def Dev.force (d : Dev) (v : Nat) : Dev :=
  let src := bits v 9 0
  if (fcSeverity src).isNone ∨ 512 ≤ src then d.reject 4
  else d.raise src (2 ^ 63 + bits (d.reg Reg.FC_FORCE_INFO_HI) 23 0 * 2 ^ 32 + d.reg Reg.FC_FORCE_INFO_LO)

/-! ### Logs (R474-R477) -/

/-- A record renumbered for another place: it keeps its type, DT_STAMP and body (R476). -/
def LogRec.renumber (x : LogRec) (seq : Nat) : LogRec :=
  { x with seq := seq, data := logBytes (leNum ((x.data.drop 1).take 1)) seq (leNum ((x.data.drop 8).take 8)) (x.data.drop 16) }

/-- A record in the RAM log, and in the queue for the flash when `flash` (R474). -/
def Dev.logRam (d : Dev) (type stamp : Nat) (body : List Byte) (flash : Bool) : Dev :=
  let x : LogRec := ⟨d.fc.ramSeq, logBytes type d.fc.ramSeq stamp body, false⟩
  { d with fc := { d.fc with
      ramLog := (d.fc.ramLog ++ [x]).drop (d.fc.ramLog.length + 1 - 32768), ramSeq := d.fc.ramSeq + 1,
      flashWait := if flash then d.fc.flashWait ++ [x] else d.fc.flashWait } }

/-- Ndelia firmware takes a fault from the event queue (R474). -/
def Dev.takeFault (d : Dev) : Dev :=
  match d.fc.queue with
  | [] => d
  | f :: r =>
    (({ d with fc := { d.fc with queue := r } }).logRam 1 (dtStamp f.dt) (faultBody f.src f.sev f.info false false)
      (decide (d.fld Reg.FC_CTRL 10 8 ≤ f.sev))).pmEvent 39 0x71 1 pmNone

/-- A record appended to the flash ring of 2,048; a standing record that would be overwritten is copied forward with a
new SEQ (R476). `n` bounds how many are copied. -/
def flashAppend : Nat → List LogRec → Nat → LogRec → List LogRec × Nat
  | 0, l, seq, x => (l ++ [x.renumber seq], seq + 1)
  | n + 1, l, seq, x =>
    match l with
    | old :: r =>
      if 2048 ≤ l.length then
        (if old.standing then flashAppend n (r ++ [old.renumber seq]) (seq + 1) x
         else (r ++ [x.renumber seq], seq + 1))
      else (l ++ [x.renumber seq], seq + 1)
    | [] => ([x.renumber seq], seq + 1)

/-- The next record that waits for the flash is written, or dropped from flash above 100 a second (R474). -/
def Dev.flashWrite (d : Dev) : Dev :=
  match d.fc.flashWait with
  | [] => d
  | x :: r =>
    let fresh := d.fc.flashUsed == 0 || decide (d.fc.flashFrom + unitsPerSec ≤ d.tb.dt)
    let used := if fresh then 0 else d.fc.flashUsed
    let d1 := { d with fc := { d.fc with flashWait := r } }
    if 100 ≤ used then d1.count Reg.FC_FLASH_DROPS 1
    else
      let y := flashAppend 2048 d.fc.flashLog d.fc.flashSeq x
      { d1 with fc := { d1.fc with flashLog := y.1, flashSeq := y.2, flashUsed := used + 1,
                                   flashFrom := if fresh then d.tb.dt else d.fc.flashFrom } }

/-- LOG_READ (R477): the records to return and the SEQ after them. -/
def logSelect (l : List LogRec) (next first n : Nat) : List LogRec × Nat :=
  let x := (l.filter fun r => decide (first ≤ r.seq)).take n
  (x, match x.getLast? with
    | some r => r.seq + 1
    | none => next)

/-! ### Performance monitors (R513-R519) -/

/-- The registers that a window end loads (R519): the lower words. -/
def bwRegs : List Nat :=
  (List.range 128).flatMap (fun p => [Reg.PM_BW_PORT_RX_LO p, Reg.PM_BW_PORT_TX_LO p]) ++
  [Reg.PM_BW_PCIE_RX_LO, Reg.PM_BW_PCIE_TX_LO] ++
  (List.range 19).flatMap (fun c => [Reg.PM_BW_MEM_RD_LO (c + 1), Reg.PM_BW_MEM_WR_LO (c + 1)])

/-- A bandwidth window ends (R519). -/
def Dev.windowEnd (d : Dev) : Dev :=
  match d.pm.window with
  | none => d
  | some x =>
    let e := d.advanceTo x.next
    let d1 := bwRegs.foldl (fun y a =>
      let v := SMap.get (fun _ => 0) e.pm.acc a
      (y.setReg a v).setReg (a + 4) (v / 2 ^ 32)) e
    let t := dt96 x.at_
    let d2 := ((d1.setReg Reg.PM_BW_DT0 t).setReg Reg.PM_BW_DT1 (t / 2 ^ 32)).setReg Reg.PM_BW_DT2 (t / 2 ^ 64)
    let d3 := (d2.countFld Reg.PM_BW_SEQ 30 0 1).setFlag Reg.PM_BW_SEQ 31 x.missed.isSome
    { d3 with pm := { d3.pm with acc := [], window := some x.fire } }

/-- PM_CTRL.ENABLE rises: the window series starts (R519, R540). -/
def Dev.pmStart (d : Dev) : Dev :=
  { d with pm := { d.pm with
      window := some (Series.start (d.fld Reg.PM_BW_CTRL 19 0 * unitsPerUs) d.tb.dt) } }

/-- PM_CLEAR (R515). -/
def Dev.pmClear (d : Dev) (u v : Nat) : Dev :=
  let m := (List.range 8).foldl (fun m k =>
    if bit v k then SMap.set (fun _ => 0) m (8 * u + k) 0 else m) d.pm.counters
  { d with pm := { d.pm with counters := m } }

/-- Whether a reading path shows unit `u` (R518): 0 PF BAR0, 65 the management cores, 1 + f function f's user page. -/
def Dev.pmShown (d : Dev) (path u : Nat) : Bool :=
  path == 0 || path == 65 ||
    ((if u < 32 then d.flag Reg.PM_USER_EN_LO u else d.flag Reg.PM_USER_EN_HI (u - 32)) &&
     (if path - 1 < 32 then d.flag Reg.PM_USER_FN_LO (path - 1) else d.flag Reg.PM_USER_FN_HI (path - 33)))

/-- A counter of monitor unit `u`; `k` of 8 is the cycle counter. -/
def Dev.pmValue (d : Dev) (u k : Nat) : Nat :=
  if k = 8 then SMap.get (fun _ => 0) d.pm.cycles u else SMap.get (fun _ => 0) d.pm.counters (8 * u + k) % 2 ^ 48

/-- The upper bits of a counter are latched for a reading path (R516). -/
def Dev.pmLatch (d : Dev) (path u k : Nat) : Dev :=
  { d with pm := { d.pm with latch := SMap.insert d.pm.latch (path * 1024 + u * 16 + k) (d.pmValue u k / 2 ^ 32) } }

/-- A read of a LO word: the counter is sampled and its upper bits are latched for the path (R516). A read through a
function's BAR0 makes the function's posted writes visible (R53). -/
def Dev.pmRead (d : Dev) (path u k : Nat) : Dev :=
  let e := if path < 65 then d.flushPosted (path - 1) else d
  if !e.pmShown path u then e.emit (.regData 0)
  else (e.pmLatch path u k).emit (.regData (e.pmValue u k % 2 ^ 32))

/-! ### Meanings -/

/-- CLOCK_MONITOR_TRIP (R23): `dom` is the source of R460, 0 to 23; a stopped domain leaves GLB_CLOCKS. -/
def execClockMonitorTrip (dom : Nat) (stopped : Bool) (s : State) : Host.Outcome State Fault Refusal :=
  s.keep fun d =>
    let d1 := if stopped then d.setFlag Reg.GLB_CLOCKS (if dom = 0 then 0 else dom + 1) false else d
    let d2 := if stopped && decide (12 ≤ dom) && decide (dom < 16) then
        d1.setTile (dom - 12) { d1.tile (dom - 12) with stopped := true }
      else if stopped && decide (16 ≤ dom) && decide (dom < 24) then d1.setMcState (dom - 16) 5
      else d1
    d2.raise dom (b2n stopped)

/-- CONDITION_RERAISE (R461). -/
def execConditionReraise (src : Nat) (s : State) : Host.Outcome State Fault Refusal :=
  s.keep fun d =>
    match SMap.find d.fc.conds src with
    | some info => d.raise src info
    | none => d

/-- FAULT_EVENT_TAKE (R462, R474): while Ndelia firmware runs. -/
def execFaultEventTake (s : State) : Host.Outcome State Fault Refusal :=
  s.keep fun d => if d.mgmt.restarting then d else d.takeFault

/-- FLASH_LOG_WRITE (R474, R476). -/
def execFlashLogWrite (s : State) : Host.Outcome State Fault Refusal :=
  s.keep fun d => if d.mgmt.restarting then d else d.flashWrite

/-- LOG_READ (R477). -/
def execLogRead (o : RingOp) (s : State) : Host.Outcome State Fault Refusal :=
  s.act fun d => d.runAdmin o levelOne
    (fun x => decide (Desc.byte x 8 ≤ 1) && zeroAt x 9 3 && Desc.le x 16 8 % 32 == 0 && zeroAt x 24 40) fun e op =>
    if lengthOf op.desc = 0 then (e, resOf stZero)
    else
      let y := if Desc.byte op.desc 8 = 0 then
          logSelect e.fc.ramLog e.fc.ramSeq (Desc.le op.desc 12 4) (lengthOf op.desc)
        else logSelect e.fc.flashLog e.fc.flashSeq (Desc.le op.desc 12 4) (lengthOf op.desc)
      (e.opWrite op (Desc.le op.desc 16 8) (y.1.flatMap LogRec.data), ⟨stOk, y.1.length, 0, y.2⟩)

/-- PM_COUNTER_LO_READ (R516, R518). -/
def execPmCounterLoRead (path unit k : Nat) (s : State) : Host.Outcome State Fault Refusal :=
  s.keep fun d => d.pmRead path unit k

/-- PM_OVERFLOW (R514): counter `k` of the unit adds `n` in a cycle, while it counts. -/
def execPmOverflow (unit k n : Nat) (s : State) : Host.Outcome State Fault Refusal :=
  s.keep fun d => if d.flag Reg.PM_CTRL 0 && d.flag (Reg.PM_EVT unit k) 31 then d.pmAdd unit 8 k n else d

/-- BW_WINDOW_END (R519). -/
def execBwWindowEnd (s : State) : Host.Outcome State Fault Refusal :=
  s.keep fun d => d.windowEnd.safePoint 7 0

end Sys2Proof.Machine
end

