-- ==== Sys2Proof/Machine/MgmtOps.lean ====
section
/-! DEFINITION. The management subsystem, its admin commands, sensors, SMBus and JTAG (spec/21_management_security.md,
spec/23_pins_power_package.md). -/

namespace Sys2Proof.Machine

/-! ### Status codes (R495) -/

def stAdminHeld : Nat := 0x0190
def stSigFail : Nat := 0x0191
def stRollback : Nat := 0x0192
def stSlotState : Nat := 0x0193
def stConfigBad : Nat := 0x0194
def stSoBad : Nat := 0x0195
def stSoState : Nat := 0x0196
def stBufferSmall : Nat := 0x0197
def stMgmtRestarted : Nat := 0x0198

/-- MGMT_BOOT.STATE (R481). -/
def Dev.bootState (d : Dev) : Nat := d.fld Reg.MGMT_BOOT 2 0

/-- The 16-byte device serial number (R493). -/
def Dev.serial (d : Dev) : List Byte := (List.range 4).flatMap fun k => leBytes 4 (d.reg (Reg.GLB_SERIAL k))

/-- A digest as bytes. -/
def digest (l : List Byte) : List Byte := beBytes 64 (Config.sha512 l).toNat

/-- Measurement register `m` is extended with a digest (R504). -/
def Dev.extend (d : Dev) (m : Nat) (dig : List Byte) : Dev :=
  let old := beBytes 64 (d.mgmt.measures.getD m 0).toNat
  { d with mgmt := { d.mgmt with measures := d.mgmt.measures.set m (Config.sha512 (old ++ dig)) } }

/-- SMBx_ALERT_N (R527). -/
def Dev.pinAlert (d : Dev) : Dev :=
  { d with pins := { d.pins with smbAlert :=
      (SMap.find d.fc.conds 24).isSome || (SMap.find d.fc.conds 26).isSome || d.bootState == 4 || d.bootState == 5 } }

/-! ### Credential (R492, R493) -/

/-- An owner-key signature: not checked while no owner key is stored. -/
def Dev.ownerSigned (d : Dev) (msg sig : List Byte) : Bool :=
  match d.mgmt.ownerKey with
  | none => true
  | some k => Config.verify k msg sig

/-- The format of a command whose only field is ADDR in bytes 16 to 23. -/
def addrOnly (x : Desc) : Bool := noLength x && zeroAt x 8 8 && zeroAt x 24 40

/-- The format of a command without fields. -/
def noFields (x : Desc) : Bool := noLength x && zeroAt x 8 56

def addrOf (x : Desc) : Nat := Desc.le x 16 8

/-- GET_CHALLENGE (R493): the challenge is a free value. -/
def execGetChallenge (o : RingOp) (s : State) : Host.Outcome State Fault Refusal :=
  s.act fun d => d.runAdmin o levelPf addrOnly fun e op =>
    let data := leBytes 64 e.freeNat ++ e.serial
    let e1 := { e.useFree with mgmt := { e.mgmt with
      challenge := some (e.tb.dt + 60 * unitsPerSec), challengeData := data } }
    (e1.opWrite op (addrOf op.desc) data, resOf stOk)

/-- CLAIM_ADMIN (R493): a challenge serves one claim, whatever its outcome. -/
def execClaimAdmin (o : RingOp) (s : State) : Host.Outcome State Fault Refusal :=
  s.act fun d => d.runAdmin o levelPf addrOnly fun e0 op =>
    let e := e0.opRead op 512
    let live := e.mgmt.challenge.any fun t => decide (e.tb.dt < t)
    let st := worst [when_ (e.flag (Reg.FN_STATUS 0) 1) stAdminHeld,
      when_ (!live || !e.ownerSigned e.mgmt.challengeData (e.hostRead (addrOf op.desc) 512)) stSigFail]
    let e1 := { e with mgmt := { e.mgmt with challenge := none } }
    (if st = 0 then e1.setFlag (Reg.FN_STATUS 0) 1 true else e1, resOf st)

/-- RELEASE_ADMIN (R493). -/
def execReleaseAdmin (o : RingOp) (s : State) : Host.Outcome State Fault Refusal :=
  s.act fun d => d.runAdmin o levelOne noFields fun e _ => (e.setFlag (Reg.FN_STATUS 0) 1 false, resOf stOk)

/-- CHALLENGE_LAPSE (R493): 60 s after GET_CHALLENGE. -/
def execChallengeLapse (s : State) : Host.Outcome State Fault Refusal :=
  s.keep fun d => match d.mgmt.challenge with
    | none => d
    | some t =>
      let e := d.advanceTo t
      { e with mgmt := { e.mgmt with challenge := none } }

/-- OWNER_SET (R492, R504): with no owner key stored the signature field must be 0. -/
def execOwnerSet (o : RingOp) (s : State) : Host.Outcome State Fault Refusal :=
  s.act fun d => d.runAdmin o levelOne addrOnly fun e0 op =>
    let e := e0.opRead op 1036
    let b := e.hostRead (addrOf op.desc) 1036
    let key := b.take 512
    let sig := (b.drop 512).take 512
    let ok := match e.mgmt.ownerKey with
      | none => sig.all (· == 0)
      | some _ => e.ownerSigned key sig
    let st := worst [when_ (!(b.drop 1024).all (· == 0)) stMalformed, when_ (!ok) stSigFail]
    if st = 0 then (({ e with mgmt := { e.mgmt with ownerKey := some key } }).extend 5 (digest key), resOf stOk)
    else (e, resOf st)

/-! ### Watchdog, keys, reset -/

/-- WATCHDOG (R501, R478). -/
def execWatchdog (o : RingOp) (s : State) : Host.Outcome State Fault Refusal :=
  s.act fun d =>
    let fmt (x : Desc) := noLength x && zeroAt x 12 52 &&
      (Desc.le x 8 4 == 0 || decide (100 ≤ Desc.le x 8 4) && decide (Desc.le x 8 4 ≤ 600000))
    d.runAdmin o levelOne fmt fun e op =>
      let ms := Desc.le op.desc 8 4
      let due := if ms = 0 then none else some (e.tb.dt + ms * 1000 * unitsPerUs)
      ({ e with mgmt := { e.mgmt with wdog := due } }, resOf stOk)

/-- KEY_LOAD (R491). -/
def execKeyLoad (o : RingOp) (s : State) : Host.Outcome State Fault Refusal :=
  s.act fun d =>
    let slot (x : Desc) := Desc.le x 8 2
    d.runAdmin o levelTwo (fun x => noLength x && decide (slot x < 4096) && zeroAt x 10 6 && zeroAt x 32 32) fun e op =>
      if e.owns FnState.keySlots op.fn op.level (slot op.desc % 4096) then
        ({ e with mgmt := { e.mgmt with keys := SMap.insert e.mgmt.keys (slot op.desc) (Desc.le op.desc 16 16) } },
          resOf stOk)
      else (e, resOf stProt)

/-- KEY_CLEAR (R491). -/
def execKeyClear (o : RingOp) (s : State) : Host.Outcome State Fault Refusal :=
  s.act fun d =>
    let slot (x : Desc) := Desc.le x 8 2
    d.runAdmin o levelTwo (fun x => noLength x && decide (slot x < 4096) && zeroAt x 10 54) fun e op =>
      if e.owns FnState.keySlots op.fn op.level (slot op.desc % 4096) then
        ({ e with mgmt := { e.mgmt with keys := SMap.erase e.mgmt.keys (slot op.desc) } }, resOf stOk)
      else (e, resOf stProt)

/-- RESET (R507): its completion, and a warm reset 10 ms later. -/
def execReset (o : RingOp) (s : State) : Host.Outcome State Fault Refusal :=
  s.act fun d => d.runAdmin o levelOne noFields fun e _ =>
    ({ e with mgmt := { e.mgmt with resetDue := some (e.tb.dt + 10000 * unitsPerUs) } }, resOf stOk)

/-! ### Attestation (R504-R506) -/

/-- Bytes 0 to 623 of a quote (R505). -/
def Dev.quote (d : Dev) (nonce : List Byte) : List Byte :=
  leBytes 4 0x51414458 ++ leBytes 2 1 ++ leBytes 2 8 ++ d.serial ++ dtBytes d.tb.dt ++ nonce ++
  leBytes 4 d.mgmt.fwVersion ++ leBytes 4 d.mgmt.fuses ++ leBytes 4 0 ++
  d.mgmt.measures.flatMap fun m => beBytes 64 m.toNat

/-- ATTEST (R505). -/
def execAttest (o : RingOp) (s : State) : Host.Outcome State Fault Refusal :=
  s.act fun d => d.runAdmin o levelTwo (fun x => addrOnly x && addrOf x % 64 == 0) fun e0 op =>
    let e := e0.opRead op 64
    let q := e.quote (e.hostRead (addrOf op.desc) 64)
    (e.opWrite op (addrOf op.desc) (q ++ beBytes 512 (Config.sign q).toNat), resOf stOk)

/-- GET_CERT (R506). -/
def execGetCert (o : RingOp) (s : State) : Host.Outcome State Fault Refusal :=
  s.act fun d => d.runAdmin o levelTwo (fun x => noLength x && zeroAt x 8 4 && zeroAt x 24 40) fun e op =>
    let n := Config.certChain.length
    if Desc.le op.desc 12 4 < n then (e, ⟨stBufferSmall, 0, 0, n⟩)
    else (e.opWrite op (addrOf op.desc) Config.certChain, ⟨stOk, n, 0, 0⟩)

/-! ### Firmware slots (R483-R488) -/

/-- Bytes of a slot. -/
def slotBytes : Nat := 16 * 2 ^ 20

/-- `n` bytes of a slot from `a`; erased flash reads 0xFF. -/
def FwSlot.read (x : FwSlot) (a n : Nat) : List Byte :=
  (List.range n).map fun i => SMap.get (fun _ => 0xFF) x.image (a + i)

/-- Bytes put into a slot. -/
def flashPut : SMap Byte → Nat → List Byte → SMap Byte
  | m, _, [] => m
  | m, a, b :: r => flashPut (SMap.set (fun _ => 0xFF) m a b) (a + 1) r

/-- Whether slot B is the one that is not ACTIVE. -/
def Dev.inactiveB (d : Dev) : Bool := d.mgmt.slotA.state == 3

/-- The slot that is not ACTIVE (R487). -/
def Dev.inactive (d : Dev) : FwSlot := if d.inactiveB then d.mgmt.slotB else d.mgmt.slotA
def Dev.setInactive (d : Dev) (x : FwSlot) : Dev :=
  { d with mgmt := if d.inactiveB then { d.mgmt with slotB := x } else { d.mgmt with slotA := x } }

/-- The ACTIVE slot. -/
def Dev.activeSlot (d : Dev) : FwSlot := if d.inactiveB then d.mgmt.slotA else d.mgmt.slotB

/-- A chunk written by path `who` (R487, R488): the status it earns. -/
def Dev.fwWrite (d : Dev) (who off : Nat) (first : Bool) (data : List Byte) : Dev × Nat :=
  let x := d.inactive
  if slotBytes < off + data.length then (d, stMalformed)
  else if x.state = 2 ∨ (first = false ∧ d.mgmt.writer ≠ who) then (d, stSlotState)
  else
    let base := if first then [] else x.image
    let e := d.setInactive { state := 0, tries := 0, image := flashPut base off data }
    ({ e with mgmt := { e.mgmt with writer := who } }, stOk)

/-- FW_WRITE (R488). -/
def execFwWrite (o : RingOp) (s : State) : Host.Outcome State Fault Refusal :=
  s.act fun d =>
    let n (x : Desc) := Desc.le x 12 4
    let fmt (x : Desc) := noLength x && decide (n x ≤ 65536) && decide (Desc.byte x 24 < 2) && zeroAt x 25 39
    d.runAdmin o levelOne fmt fun e op =>
      let x := op.desc
      if n x = 0 then (e, resOf stZero)
      else
        let y := (e.opRead op (n x)).fwWrite 1 (Desc.le x 8 4) (bit (Desc.byte x 24) 0) (e.hostRead (addrOf x) (n x))
        (y.1, resOf y.2)

/-- FW_COMMIT (R486): the fuse count rises to the SECURITY_VERSION of the ACTIVE image. -/
def execFwCommit (o : RingOp) (s : State) : Host.Outcome State Fault Refusal :=
  s.act fun d => d.runAdmin o levelOne noFields fun e _ =>
    if e.mgmt.slotA.state = 2 ∨ e.mgmt.slotB.state = 2 then (e, resOf stSlotState)
    else
      let h := e.activeSlot.read 0 13
      let sv := if leNum (h.take 4) = 0x57465844 then (h.getD 12 0).toNat else 0
      let n := max e.mgmt.fuses (min sv 64)
      (({ e with mgmt := { e.mgmt with fuses := n } }).setFld Reg.MGMT_BOOT 22 16 n, resOf stOk)

/-! ### Configuration record (R497) -/

/-- The record that stands for no stored one: the reset defaults of R497 as a record's fields. -/
def poolDefault (k : Nat) : Nat × Nat :=
  [(0x2E48000, 65536), (0x2E40000, 8192), (0x2800000 + 0x600000, 8192), (0x2800000 + 0x200000, 16384),
    (0x2800000 + 0x100000, 512), (0x2800000, 128)].getD k (0, 0)

/-- A field of a record. -/
def recNum (r : List Byte) (k n : Nat) : Nat := leNum ((r.drop k).take n)

/-- The registers that a record sets, as firmware writes them before READY (R368, R403, R408, R497). -/
def Dev.withConfig (d : Dev) (r : Option (List Byte)) : Dev :=
  match r with
  | some r =>
    let d1 := (d.setFld Reg.MEM_CODE 2 0 (recNum r 8 1)).setFld Reg.MAP_CTRL 3 1 (recNum r 9 1)
    let d2 := (List.range 192).foldl (fun e k => e.setFld (Reg.MEM_SECTION k) 2 0 (recNum r (16 + k) 1)) d1
    let d3 := (List.range 8).foldl (fun e k => e.setFld (Reg.RT_PORT_SEL k) 3 0 (recNum r (208 + k) 1)) d2
    (List.range 6).foldl (fun e k => (e.setReg (Reg.BUN_POOL_BASE k) (recNum r (216 + 8 * k) 4)).setReg
      (Reg.BUN_POOL_COUNT k) (recNum r (220 + 8 * k) 4)) d3
  | none =>
    (List.range 6).foldl (fun e k => (e.setReg (Reg.BUN_POOL_BASE k) (poolDefault k).1).setReg
      (Reg.BUN_POOL_COUNT k) (poolDefault k).2) d

/-- The offsets of bad fields of a record by their encodings alone, in rising order. -/
def configBadFields (r : List Byte) : List Nat :=
  let at_ (c : Bool) (k : Nat) : List Nat := if c then [k] else []
  let zero (a b : Nat) := ((((r.drop a).take (b - a)).zipIdx a).findSome? fun e => if e.1 != 0 then some e.2 else none).toList
  at_ (recNum r 0 4 != 0x46435844) 0 ++ at_ (recNum r 4 2 != 1) 4 ++ at_ (recNum r 6 2 != 0) 6 ++
  at_ (decide (4 < recNum r 8 1)) 8 ++ at_ (decide (4 < recNum r 9 1)) 9 ++ zero 11 16 ++
  (List.range 192).flatMap (fun k => let v := recNum r (16 + k) 1
    at_ (decide (7 < v) || (decide (0 < v) && decide (v < 4))) (16 + k)) ++
  (List.range 8).flatMap (fun k => let v := recNum r (208 + k) 1
    at_ (decide (15 < v) || (v != 0 && (List.range k).any fun j => recNum r (208 + j) 1 == v)) (208 + k)) ++
  (List.range 6).flatMap (fun k => at_ (decide (2 ^ 26 ≤ recNum r (216 + 8 * k) 4)) (216 + 8 * k) ++
    at_ (decide (2 ^ 29 ≤ recNum r (220 + 8 * k) 4)) (220 + 8 * k)) ++
  zero 264 1020 ++ at_ (recNum r 1020 4 != crc32 (r.take 1020)) 1020

/-- The byte offset of the first bad field of a record (R497): the capacity check of R368 counts at the sections, a
pool's layout at the pool. -/
def Dev.configBad (d : Dev) (r : List Byte) : Option Nat :=
  let e := { d with host := { d.host with fns := [] } }.withConfig (some r)
  let enc := configBadFields r
  let cap := if e.capFail.isSome then [16] else []
  let pool := match e.badPool with
    | some k => [216 + 8 * k]
    | none => []
  (enc ++ cap ++ pool).foldl (fun m k => some (match m with
    | some j => min j k
    | none => k)) none

/-- CONFIG_STORE (R497): the record takes effect at the next start-up. -/
def execConfigStore (o : RingOp) (s : State) : Host.Outcome State Fault Refusal :=
  s.act fun d => d.runAdmin o levelOne addrOnly fun e0 op =>
    let e := e0.opRead op 1024
    let r := e.hostRead (addrOf op.desc) 1024
    match e.configBad r with
    | some k => (e, ⟨stConfigBad, 0, k, 0⟩)
    | none => ({ e with mgmt := { e.mgmt with config := some r } }, resOf stOk)

/-! ### Heartbeat and core restart (R480) -/

/-- HEARTBEAT at instant `t`: a missed heartbeat's condition ends. -/
def execHeartbeat (t : Nat) (s : State) : Host.Outcome State Fault Refusal :=
  s.keep fun d =>
    let e := d.advanceTo t
    if e.mgmt.restarting then e
    else ({ e with mgmt := { e.mgmt with beatAt := e.tb.dt, beatLost := false } }).condEnd 28

/-- HEARTBEAT_MISSED: no heartbeat for 100 ms (R480). -/
def execHeartbeatMissed (s : State) : Host.Outcome State Fault Refusal :=
  s.keep fun d =>
    if d.mgmt.beatLost || d.mgmt.restarting then d
    else
      let e := d.advanceTo (d.mgmt.beatAt + 100000 * unitsPerUs)
      ({ e with mgmt := { e.mgmt with beatLost := true } }).condStart 28 0

/-- MGMT_CORE_RESTART: no heartbeat for 5 s, so the management cores alone restart (R480). -/
def execMgmtCoreRestart (s : State) : Host.Outcome State Fault Refusal :=
  s.keep fun d =>
    if d.mgmt.restarting || !d.mgmt.beatLost then d
    else
      let e := d.advanceTo (d.mgmt.beatAt + 5 * unitsPerSec)
      ({ e with mgmt := { e.mgmt with restarting := true } }).setEvent Reg.MGMT_EVENTS 0

/-- Every fetched descriptor of an Admin ring becomes an operation that completes with MGMT_RESTARTED (R480). -/
def Dev.restartRing (d : Dev) (r : Nat) (x : Ring) : Dev :=
  x.fetched.foldl (fun e f =>
    let op : Op := ⟨e.host.nextOp, r, x.fn, f.level, f.iface, f.epoch, keyRing r, f.desc, f.tail,
      some (resOf stMgmtRestarted), f.at_⟩
    { e with host := { e.host with ops := e.host.ops ++ [op], nextOp := e.host.nextOp + 1 } })
    (d.setRing r { x with fetched := [] })

/-- CORE_RESTART_DONE: firmware runs again, and every admin command that was fetched and had not completed completes
with MGMT_RESTARTED (R480). -/
def execCoreRestartDone (s : State) : Host.Outcome State Fault Refusal :=
  s.keep fun d =>
    if !d.mgmt.restarting then d
    else
      let adm := d.host.rings.filter fun e => e.2.type == 3
      let ops := d.host.ops.map fun op =>
        if adm.any (fun e => e.1 == op.ring) && op.result.isNone then
          { op with result := some (resOf stMgmtRestarted) } else op
      let d1 := { d with host := { d.host with ops := ops } }
      let d2 := adm.foldl (fun e r => e.restartRing r.1 r.2) d1
      let d3 := { d2 with mgmt := { d2.mgmt with restarting := false, beatLost := false, beatAt := d2.tb.dt } }
      (d3.condEnd 28).settle

/-! ### Sensors (R498, R532, R538) -/

/-- Maximum currents of the rails in 10 mA, in the order of RAIL (R532). -/
def railMax (r : Nat) : Nat := [25000, 12500, 4800, 9100, 6100, 400, 150].getD r 0

/-- A sensor register takes a reading, or loses its VALID bit. -/
def Dev.setSensor (d : Dev) (a : Nat) (v : Option Nat) : Dev :=
  match v with
  | some x => d.setReg a (2 ^ 31 + x % 2 ^ 31)
  | none => d.setFlag a 31 false

/-- The temperature that a TEMP register holds, in 1/16 °C. -/
def Dev.temp (d : Dev) (k : Nat) : Int := signed 16 (d.fld (Reg.TEMP k) 15 0)

/-- Whether a junction sensor with a valid reading is at or above `t` °C. -/
def Dev.anyTemp (d : Dev) (t : Int) : Bool :=
  (List.range 24).any fun k => d.flag (Reg.TEMP k) 31 && decide (16 * t ≤ d.temp k)

/-- A condition source follows a condition that starts under `on` and ends under `off`. -/
def Dev.condFollow (d : Dev) (src info : Nat) (on off : Bool) : Dev :=
  if on then d.condStart src info else if off then d.condEnd src else d

/-- FN_LOAD.MGMT_LOAD follows the management cores' load, which the spec does not state: a free percentage (R479). -/
def Dev.mgmtLoad (d : Dev) : Dev :=
  ((List.range 64).foldl (fun e f => e.setFld (Reg.FN_LOAD f) 7 0 (d.freeNat % 101)) d).useFree

/-- SENSOR_REFRESH (R498): registers, THERMAL_WARN, THERMAL_TRIP, CURRENT_LIMIT and SENSOR_FAIL, with the load of the
management cores, which is updated as often. -/
def execSensorRefresh (x : Sensors) (s : State) : Host.Outcome State Fault Refusal :=
  s.keep fun d0 =>
    let d := (d0.advanceTo x.t).mgmtLoad
    let d1 := (List.range 24).foldl (fun e k =>
      e.setSensor (Reg.TEMP k) ((x.temps.getD k none).map (unsigned 16))) d
    let d2 := (List.range 16).foldl (fun e k =>
      e.setSensor (Reg.VOLT k) ((x.volts.getD k none).map (· % 65536))) d1
    let d3 := (List.range 7).foldl (fun e k =>
      e.setSensor (Reg.RAIL k) ((x.rails.getD k none).map fun p => p.1 % 32768 * 65536 + p.2 % 65536)) d2
    let d4 := d3.setFld Reg.POWER_TOTAL 15 0
      ((List.range 7).foldl (fun n k => n + d3.fld (Reg.RAIL k) 30 16) 0)
    let stack (t : Int) := x.stackTemps.any fun v => decide (t ≤ v)
    let d5 := d4.condFollow 24 0 (d4.anyTemp 105 || stack 90) (!d4.anyTemp 100 && !stack 85)
    let excess := (List.range 7).any fun k => decide (railMax k < d5.fld (Reg.RAIL k) 15 0)
    let d6 := d5.condFollow 26 0 excess (!excess)
    let bad := (List.range 24).any (fun k => !d6.flag (Reg.TEMP k) 31) ||
      (List.range 16).any (fun k => !d6.flag (Reg.VOLT k) 31) || (List.range 7).any fun k => !d6.flag (Reg.RAIL k) 31
    let d7 := d6.condFollow 515 0 bad (!bad)
    let hot := (d7.anyTemp 115 && !d.anyTemp 115) || (stack 100 && !d7.flag (Reg.FC_STICKY 1) 1)
    let d8 := if hot then d7.raise 25 0 else d7
    d8.pinAlert

/-- RAIL_FAULT (R535): a rail other than VDD_AON, by its number in RAIL. -/
def execRailFault (rail : Nat) (s : State) : Host.Outcome State Fault Refusal :=
  s.keep fun d => if rail < 6 then d.raise 27 rail else d

/-! ### SMBus (R489, R527) -/

/-- The highest temperature of the sensors. -/
def Dev.maxTemp (d : Dev) : Int := (List.range 24).foldl (fun m k => max m (d.temp k)) (d.temp 0)

/-- The 16 bytes of command 0x10: the states of slots A and B take a byte each, and the two bytes after them hold the
result of the last SMBus activation (DEDUCED, log entry 11). -/
def Dev.smbStatus (d : Dev) : List Byte :=
  leBytes 4 (d.reg Reg.MGMT_BOOT) ++ leBytes 4 (d.reg Reg.MGMT_FW_VERSION) ++ leBytes 1 d.mgmt.slotA.state ++
  leBytes 1 d.mgmt.slotB.state ++ leBytes 2 d.mgmt.fwResult ++ leBytes 2 (unsigned 16 d.maxTemp) ++
  leBytes 2 (d.fld Reg.POWER_TOTAL 15 0)

/-- SMB_STATUS_READ (R489, R527): both ports answer. -/
def execSmbStatusRead (port : Nat) (s : State) : Host.Outcome State Fault Refusal :=
  s.keep fun d => if port < 2 then d.emit (.smbus d.smbStatus) else d

/-- SMB_FW_WRITE (R489): port 0 alone, at most 128 data bytes. -/
def execSmbFwWrite (port off : Nat) (first : Bool) (data : List Byte) (s : State) : Host.Outcome State Fault Refusal :=
  s.keep fun d => if port = 0 ∧ data.length ≤ 128 ∧ data ≠ [] then (d.fwWrite 2 off first data).1 else d

/-! ### JTAG (R528) -/

/-- A JTAG instruction in force. -/
def Dev.jtag (d : Dev) (ir : Nat) : Dev := { d with pins := { d.pins with jtagIr := ir } }

/-- BYPASS: TDI comes out one bit later. -/
def execBypass (tdi n : Nat) (s : State) : Host.Outcome State Fault Refusal :=
  s.raw fun d => (d.jtag 0).emit (.jtag (tdi * 2 % 2 ^ n))

/-- IDCODE: 0x1964_03C3. -/
def execIdcode (s : State) : Host.Outcome State Fault Refusal :=
  s.raw fun d => (d.jtag 1).emit (.jtag 0x196403C3)

/-- SAMPLE_PRELOAD: the cells' pins come out, and the cells take what is shifted in. -/
def execSamplePreload (pins cells : Nat) (s : State) : Host.Outcome State Fault Refusal :=
  s.raw fun d => let e := (d.jtag 2).emit (.jtag pins)
    { e with pins := { e.pins with bsr := cells } }

/-- EXTEST: the cells drive their pins; the input pins come out and the cells take what is shifted in. -/
def execExtest (pins cells : Nat) (s : State) : Host.Outcome State Fault Refusal :=
  s.raw fun d => let e := (d.jtag 3).emit (.jtag pins)
    { e with pins := { e.pins with bsr := cells } }

/-- HIGHZ: the covered output pins float. -/
def execHighz (s : State) : Host.Outcome State Fault Refusal := s.raw fun d => d.jtag 4

/-- CLAMP: the cells hold the covered output pins. -/
def execClamp (s : State) : Host.Outcome State Fault Refusal := s.raw fun d => d.jtag 5

end Sys2Proof.Machine
end

