-- ==== Sys2Proof/Machine/Signal.lean ====
section
/-! DEFINITION. What heads the access units of an encode (spec/06_source_analysis.md R154, spec/08_syntax_engines.md R210-R212,
spec/09_rate_control.md R229): the colour and HDR information of a rendition, parameter sets and sequence headers, the HRD or
decoder model, SEI messages and metadata OBUs. The units' own syntax is their standards' (log entries 81 and 82). -/

namespace Sys2Proof.Machine

/-! ### Colour and HDR information (R137, R154, R212) -/

/-- What a rendition of a source picture carries: the source's information, or with tone mapping BT.709, narrow range and no
HDR information (R154). -/
def colourOf (f : PicFormat) (toned : Bool) : Colour :=
  if toned then ⟨0, 0, 0, 0, none, none⟩
  else
    let flags := (f.hdr.headD 0).toNat
    ⟨f.primaries, f.transfer, f.matrix, f.range, if bit flags 0 then some ((f.hdr.drop 1).take 24) else none,
      if bit flags 1 then some ((f.hdr.drop 25).take 4) else none⟩

/-- The codes of R212: colour_primaries, transfer_characteristics, matrix_coefficients and the range flag. -/
def Colour.codes (c : Colour) : List Nat :=
  [if c.primaries = 1 then 9 else 1, if c.transfer = 1 then 16 else if c.transfer = 2 then 18 else 1,
    if c.matrix = 1 then 9 else 1, c.range]

/-- The 16-bit and 32-bit values of mastering display bytes 48 to 71: six coordinates of the primaries, two of the white point,
and the two luminances. -/
def mdcvValues (b : List Byte) : List Nat :=
  (List.range 8).map (fun i => leNum ((b.drop (2 * i)).take 2)) ++ [leNum ((b.drop 16).take 4), leNum ((b.drop 20).take 4)]

/-- `v` in units of 1/`p` as the nearest number of units of 1/`q` (R212). -/
def toUnits (p q v : Nat) : Nat := (2 * v * q + p) / (2 * p)

/-- The metadata units of AV1: chromaticities in 1/2^16, the largest luminance in 1/2^8 and the least in 1/2^14 cd/m². Its order of
the primaries is red, green, blue (PRESUMED, log entry 82). -/
def av1Mdcv (b : List Byte) : List Byte :=
  let v := mdcvValues b
  let c (i : Nat) : List Byte := beBytes 2 (toUnits 50000 65536 (v.getD i 0))
  c 4 ++ c 5 ++ c 0 ++ c 1 ++ c 2 ++ c 3 ++ c 6 ++ c 7 ++ beBytes 4 (toUnits 10000 256 (v.getD 8 0)) ++
    beBytes 4 (toUnits 10000 16384 (v.getD 9 0))

/-- The payload of SEI message 137, and of 144 or an AV1 light level: big-endian. -/
def seiMdcv (b : List Byte) : List Byte :=
  let v := mdcvValues b
  (v.take 8).flatMap (beBytes 2) ++ (v.drop 8).flatMap (beBytes 4)
def lightLevel (b : List Byte) : List Byte := beBytes 2 (leNum (b.take 2)) ++ beBytes 2 (leNum (b.drop 2))

/-! ### Units (R210) -/

/-- leb128 as bytes; `n` bounds their number. -/
def lebBytes : Nat → Nat → List Byte
  | 0, _ => []
  | n + 1, v => if v < 128 then [BitVec.ofNat 8 v] else BitVec.ofNat 8 (128 + v % 128) :: lebBytes n (v / 128)

/-- Emulation prevention bytes inserted; `z` counts the zero bytes just before. -/
def emulate : Nat → List Byte → List Byte
  | _, [] => []
  | z, b :: r =>
    if 2 ≤ z ∧ b.toNat ≤ 3 then 3#8 :: b :: emulate (if b = 0#8 then 1 else 0) r
    else b :: emulate (if b = 0#8 then z + 1 else 0) r

/-- A NAL unit with its start code (R210): its header bytes and payload. -/
def nalUnit (header payload : List Byte) : List Byte := [0#8, 0#8, 0#8, 1#8] ++ header ++ emulate 0 payload

/-- An OBU of a type, with obu_has_size_field=1 (R210). -/
def obuUnit (type : Nat) (payload : List Byte) : List Byte :=
  BitVec.ofNat 8 (8 * type + 2) :: lebBytes 8 payload.length ++ payload

/-- The temporal delimiter OBU (R210). -/
def temporalDelimiter : List Byte := obuUnit 2 []

/-- The header of a NAL unit of a type: AVC, HEVC, VVC. -/
def nalHeader (codec type : Nat) : List Byte :=
  if codec = 0 then [BitVec.ofNat 8 (type + if type = 7 ∨ type = 8 then 96 else 0)]
  else if codec = 1 then [BitVec.ofNat 8 (2 * type), 1#8]
  else [0#8, BitVec.ofNat 8 (8 * type + 1)]

/-- An SEI message of a payload type, with the stop bit of its unit. -/
def seiUnit (codec type : Nat) (payload : List Byte) : List Byte :=
  nalUnit (nalHeader codec (if codec = 0 then 6 else if codec = 1 then 39 else 23))
    ([BitVec.ofNat 8 type, BitVec.ofNat 8 payload.length] ++ payload ++ [0x80#8])

/-- A metadata OBU of a type. -/
def metadataObu (type : Nat) (payload : List Byte) : List Byte := obuUnit 5 (lebBytes 2 type ++ payload ++ [0x80#8])

/-- The mastering display and light level information of a key picture (R212). -/
def Colour.units (c : Colour) (codec : Nat) : List Byte :=
  let md := match c.mdcv with
    | some b => if codec = 2 then metadataObu 2 (av1Mdcv b) else seiUnit codec 137 (seiMdcv b)
    | none => []
  let cl := match c.cll with
    | some b => if codec = 2 then metadataObu 1 (lightLevel b) else seiUnit codec 144 (lightLevel b)
    | none => []
  md ++ cl

/-! ### Parameter sets and the HRD (R211, R229) -/

/-- The tier that the stream signals (R229): 0 where R_hrd and BUFFER fit the lower tier. AVC has none. -/
def Ctx.tier (x : Ctx) (p : RcParams) : Nat :=
  match findLevel x.codec x.level with
  | some l => if x.codec = 0 then 0 else b2n (!(decide ((x.hrd p).1 ≤ l.brMain) && decide ((x.hrd p).2 ≤ l.cpbMain)))
  | none => 0

/-- The HRD parameters, or the decoder model of AV1: present, bit rate, CPB size, cbr_flag, and the initial removal delay in
90 kHz ticks. CQP writes none (R229). -/
def Ctx.hrdValues (x : Ctx) (p : RcParams) : List Nat :=
  if p.cqp then [0]
  else [1, (x.hrd p).1, (x.hrd p).2, b2n p.cbr, p.initDelay * 9 / 100]

/-- First columns or rows of the regions, and the tile rows of each column in AV1 (R167). -/
def Ctx.shape (x : Ctx) : List Nat :=
  let total := if x.codec = 0 then blocksOf 0 x.height else blocksOf x.codec x.width
  (List.range x.regions).flatMap fun i =>
    let s := regionSpan total x.regions i
    s.1 :: (if x.codec = 2 then [tileRows (s.2 - s.1) (blocksOf 2 x.height)] else [])

/-- What a parameter set or sequence header says: format, profile, level and tier, rate, colour, HRD, regions, references and
tools. -/
def Ctx.setValues (x : Ctx) (p : RcParams) (c : Colour) : List Nat :=
  [x.profile, x.level, x.tier p, x.width, x.height, x.depth, x.rateNum, x.rateDen] ++ c.codes ++ x.hrdValues p ++
    [refLimit x.preset, x.regions] ++ x.shape ++ declaredTools x.codec x.preset

/-- The parameter sets before a key picture (R211): SPS and PPS for AVC and VVC, VPS, SPS and PPS for HEVC, the sequence header
OBU for AV1. -/
def Ctx.paramUnits (x : Ctx) (p : RcParams) (c : Colour) : List Byte :=
  let unit (k type : Nat) : List Byte :=
    nalUnit (nalHeader x.codec type) (Config.headUnit x.codec k (x.setValues p c))
  if x.codec = 0 then unit 1 7 ++ unit 2 8
  else if x.codec = 1 then unit 0 32 ++ unit 1 33 ++ unit 2 34
  else if x.codec = 2 then obuUnit 1 (Config.headUnit 2 1 (x.setValues p c))
  else unit 1 15 ++ unit 2 16

/-- The units that head an access unit (R211, R212, R229): before a key picture the parameter sets, the buffering period and the
HDR information; with every picture its timing, except in CQP and in AV1. `since` counts pictures from the last key picture. -/
def Ctx.headUnits (x : Ctx) (p : RcParams) (j : Job) (full : Int) (since : Nat) : List Byte :=
  let c := x.colour.getD ⟨0, 0, 0, 0, none, none⟩
  let hrd := x.codec != 2 && !p.cqp
  (if j.key then x.paramUnits p c else []) ++
  (if j.key ∧ hrd then seiUnit x.codec 0 (Config.headUnit x.codec 3 [full.toNat * 90000 / max 1 (x.hrd p).1]) else []) ++
  (if hrd then seiUnit x.codec 1 (Config.headUnit x.codec 4 [since, j.n]) else []) ++
  (if j.key then c.units x.codec else [])

end Sys2Proof.Machine
end

