-- ==== Sys2Proof/Machine/PicOps.lean ====
section
/-! DEFINITION. Pictures on the pairs (spec/05_coding_contexts.md R119, R120, spec/07_pixel_engines.md): dispatch, block
rows, preemption and hand-over, seams, completion, and a change of the DVFS point. -/

namespace Sys2Proof.Machine

/-! ### What is ready (R111, R119, R254, R255) -/

/-- Whether either stack of a tile has stopped: the state of its contexts lies on both (R110). -/
def Dev.stateLost (d : Dev) (t : Nat) : Bool := d.stackLost (2 * t) || d.stackLost (2 * t + 1)

/-- Whether a context must wait: its output is full, or the group it feeds holds its greatest number of pictures. -/
def Dev.held (d : Dev) (c : Nat) (x : Ctx) : Bool :=
  x.kind == 0 && (d.segmentOf c).isNone &&
    match (d.groupOfSource c).bind d.group with
    | some g => decide (g.lookahead + 33 ≤ g.src.pics.length)
    | none => x.outputFull

/-- Whether a picture that does not run is ready: the first of its context in coding order, its rung source built. -/
def Dev.jobReady (d : Dev) (t : Tile) (j : Job) : Bool :=
  !j.running && !(t.jobs.any fun y => y.ctx == j.ctx && y.running) &&
  ((t.jobs.find? fun y => y.ctx == j.ctx).any fun y => y.n == j.n) && (t.load j.ctx).isSome &&
  match d.ctx j.ctx with
  | none => false
  | some x => x.state == 2 && !d.held j.ctx x &&
      (x.group.isNone || (SMap.find d.media.rungs (4096 * j.n + j.ctx)).isSome)

/-- Class of a picture's context. -/
def Dev.jobClass (d : Dev) (j : Job) : Nat := ((d.ctx j.ctx).map Ctx.cls).getD 2

/-- Ready pictures of a tile. -/
def Dev.ready (d : Dev) (t : Nat) : List Job := (d.tile t).jobs.filter (d.jobReady (d.tile t))

/-- Running pictures with a region that waits for a pair. -/
def Dev.partial (d : Dev) (t : Nat) : List Job :=
  (d.tile t).jobs.filter fun j => j.running && j.regions.any fun g => g.pair.isNone && !g.ended

/-- A picture's deadline as the scheduler takes it: one that R46 treats as past is earlier than any other. -/
def Dev.deadlineOf (d : Dev) (j : Job) : Option Nat :=
  j.deadline.map fun t => if d.tb.dt + 2 ^ 47 * unitsPerSec < t then 0 else t

/-- Whether `a` goes before `b` among pictures with a deadline (R119). -/
def Dev.earlier (d : Dev) (a b : Job) : Bool :=
  match d.deadlineOf a, d.deadlineOf b with
  | some x, some y =>
    decide (x < y) || (x == y && (decide (d.jobClass a < d.jobClass b) ||
      (d.jobClass a == d.jobClass b && decide (a.ctx < b.ctx))))
  | _, _ => false

/-- The next of some pictures round-robin by context number, after `last` (R119). -/
def roundRobin (last : Nat) (l : List Job) : Option Job :=
  let key (j : Job) : Nat := (j.ctx + 4096 - (last + 1) % 4096) % 4096
  l.foldl (fun b j => match b with
    | none => some j
    | some x => if key j < key x then some j else some x) none

/-- The picture that the Context Scheduler dispatches (R119): earliest deadline; else ON_DEMAND without one; else
BULK. -/
def Dev.pick (d : Dev) (t : Nat) : Option Job :=
  let l := d.ready t ++ d.partial t
  match l.filter fun j => j.deadline.isSome with
  | j :: r => some (r.foldl (fun b x => if d.earlier x b then x else b) j)
  | [] => match l.filter fun j => d.jobClass j != 2 with
    | j :: r => roundRobin (d.tile t).rrOd (j :: r)
    | [] => roundRobin (d.tile t).rrBulk l

/-! ### Dispatch (R111, R119, R227-R236) -/

/-- A picture replaced among the jobs of its tile. -/
def Tile.putJob (t : Tile) (j : Job) : Tile :=
  { t with jobs := t.jobs.map fun y => if y.ctx = j.ctx ∧ y.n = j.n then j else y }

/-- Waiting regions take idle pairs, lowest first; a region that was handed over resumes with its saved state (R208). -/
def Dev.placeRegions (d : Dev) (c : Nat) : List Region → List Nat → Dev × List Region
  | [], _ => (d, [])
  | g :: r, l =>
    if g.pair.isSome || g.ended then
      let y := d.placeRegions c r l
      (y.1, g :: y.2)
    else match l with
      | [] =>
        let y := d.placeRegions c r []
        (y.1, g :: y.2)
      | k :: rest =>
        let d1 := d.assignPair k (some c) g.idx
        let d2 := match SMap.find d.media.saved (16 * c + g.idx) with
          | none => d1
          | some s =>
            let p := d1.pair k
            let e := d1.setPair k { p with
              sxe := { p.sxe with com := s.regs, sh := s.regs, rowFrom := s.regs.written, used := s.used, ppx := s.ppx },
              cb := { p.cb with pos := { p.cb.pos with stage := 1, row := s.row } }, pxe := { p.pxe with row := s.row } }
            { e with media := { e.media with saved := SMap.erase e.media.saved (16 * c + g.idx) } }
        let y := d2.placeRegions c r rest
        (y.1, { g with pair := some k } :: y.2)

/-- A decode region: the Syntax Engine finds its rows in the stream. -/
def decodeRegion (i : Nat) : Region :=
  { idx := i, pair := none, xs := [], blocks := [], ests := [], acts := [], bounds := [], us := [], ps := [], bs := [],
    budget := 0, share := 0, q := 0, qSum := 0, qBlocks := 0, stage := 0, ended := false, recs := [], motion := [] }

/-- The source picture that a picture of a context codes. -/
def Dev.sourcePic (d : Dev) (x : Ctx) (n : Nat) : Option SrcPic :=
  match x.group with
  | some g => ((d.group g).bind fun y => y.src.pics.find? fun p => p.n == n)
  | none => x.src.pics.find? fun p => p.n == n

/-- What a key picture's parameter sets signal (R154): the information of its source picture, or that of a tone-mapped rung. -/
def Dev.keyColour (d : Dev) (x : Ctx) (j : Job) : Option Colour :=
  (d.sourcePic x j.n).map fun p => colourOf p.fmt ((SMap.find d.media.rungs (4096 * j.n + j.ctx)).any Rung.toned)

/-- Regions of a decoded picture: those that its stream offers, up to the context's count (R115, R257). -/
def Dev.regionsOf (d : Dev) (c : Nat) (x : Ctx) : Nat :=
  if x.regions ≤ 1 then 1 else max 1 (min x.regions (Config.picRegions x.codec (d.streamBytes c x)))

/-- A picture starts: in encode its references, what a key picture signals, and budgets with the gains that pair `k`, the first
it takes, works with (R97, R154, R175, R245); its regions and seams, in decode as the stream has them (R168, R257). -/
def Dev.startJob (d : Dev) (x : Ctx) (j : Job) (k : Nat) : Dev × Job :=
  if x.kind = 1 then
    match x.rc with
    | none => (d, { j with running := true })
    | some s =>
      let y := x.rcStart s j (d.liveReg (36 + x.tile) (k % 16) (Reg.RC_GAIN x.tile))
      let l := refLists x.preset j.ptype j.n (x.dec.refs.map RefPic.order)
      (d.setCtx j.ctx { x with rc := some y.1, bits := 0, coded := [],
                               colour := if j.key then d.keyColour x j else x.colour,
                               keyN := if j.key then j.n else x.keyN },
        { y.2 with running := true, seams := (List.range (x.regions - 1)).map fun i => (i, 0), list0 := l.1, list1 := l.2 })
  else
    let n := d.regionsOf j.ctx x
    let seams := ((List.range (n - 1)).filter fun _ => Config.loopAcross x.codec (d.streamBytes j.ctx x)).map fun i => (i, 0)
    let d1 := if n < x.regions then d.setEvent (Reg.DEC_EVENTS x.tile) 4 else d
    (d1, { j with running := true, regions := (List.range n).map decodeRegion, seams := seams })

/-- The context whose cache entry must go to make room is written back: with a stack of the tile stopped, it fails under
cause 1 (R109, R111). -/
def Dev.writeBack (d : Dev) (t c : Nat) : Dev :=
  match (d.tile t).replaces c with
  | some y => if d.stateLost t then d.ctxFail y 1 0 none else d
  | none => d

/-- One picture is dispatched to the idle pairs of a tile. A context fails under cause 1 where its state cannot be read or
written back, and under cause 2 where its picture addresses what has stopped (R109). -/
def Dev.dispatch (d : Dev) (t : Nat) : Dev :=
  let idle := d.idlePairs t
  if idle.isEmpty then d
  else match d.pick t with
    | none => d
    | some j => match d.ctx j.ctx with
      | none => d
      | some x =>
        let cached := (d.tile t).cache.contains j.ctx
        if !cached && d.stateLost t then (d.writeBack t j.ctx).ctxFail j.ctx 1 0 none
        else if d.ctxLost x || ((d.segmentOf j.ctx).any fun y => d.rangeLost y.2.2.srcAddr y.2.2.srcLen) then
          d.ctxFail j.ctx 2 0 none
        else
          let d1 := match (d.tile t).load j.ctx with
            | some y => d.setTile t y
            | none => d
          let z := if j.running then (d1, j) else d1.startJob x j (idle.headD 0)
          let p := z.1.placeRegions j.ctx z.2.regions idle
          let y := (p.1.tile t).putJob { z.2 with regions := p.2 }
          let k := d.jobClass j
          p.1.setTile t { y with rrOd := if j.deadline.isNone && k != 2 then j.ctx else y.rrOd,
                                 rrBulk := if k = 2 then j.ctx else y.rrBulk }

/-- Decode contexts of a tile that must wait for GET_AU are marked (R254). -/
def Dev.markFull (d : Dev) (t : Nat) : Dev :=
  (d.tile t).jobs.foldl (fun e j => match e.ctx j.ctx with
    | none => e
    | some x =>
      if !j.running && x.kind == 0 && !x.dec.paused && (e.groupOfSource j.ctx).isNone && x.outputFull then
        (e.setCtx j.ctx { x with dec := { x.dec with paused := true } }).setEvent (Reg.DEC_EVENTS t) 5
      else e) d

/-- PICTURE_DISPATCH (R119): nothing while ENABLE is 0 or the tile has stopped. -/
def execPictureDispatch (tile : Nat) (s : State) : Host.Outcome State Fault Refusal :=
  s.act fun d =>
    if d.flag (Reg.TILE_CTRL tile) 0 = false ∨ (d.tile tile).stopped then d else (d.markFull tile).dispatch tile

/-! ### Rows (R120, R170, R184) -/

/-- Whether a ready picture preempts a running region of pair `k` at a row boundary (R120); TILE_SCHED is LIVE (R97). -/
def Dev.preempts (d : Dev) (t k : Nat) (run r : Job) : Bool :=
  let m := bits (d.liveReg (36 + t) (k % 16) (Reg.TILE_SCHED t)) 31 16 * unitsPerUs
  match d.deadlineOf r, d.deadlineOf run with
  | some a, some b => decide (a + m < b)
  | some _, none => true
  | none, none => d.jobClass r != 2 && d.jobClass run == 2
  | none, some _ => false

/-- A monitor event of a pair's tile, with its context as requester. -/
def Dev.pmPair (d : Dev) (k c code n : Nat) : Dev :=
  d.pmEvent (4 * (k / 16) + k % 16 / 4) code n ⟨none, some (0x2000 + c), none, none⟩

/-- A region's boundary check: its pair is asked for when a ready picture preempts it and no pair is idle (R120). -/
def Dev.preemptCheck (d : Dev) (t k : Nat) (run : Job) : Dev :=
  if (d.idlePairs t).isEmpty && (d.ready t).any (d.preempts t k run) then d.setPair k { d.pair k with preempt := true } else d

/-- The operation that a running picture belongs to: its PICTURE, or its PRODUCE. -/
def Dev.pictureOp (d : Dev) (x : Ctx) (j : Job) : Option Nat :=
  match x.group.bind d.group with
  | some g => (g.produces.find? fun p => p.ctx == j.ctx && p.given).map Produce.op
  | none => (x.src.pics.find? fun p => p.n == j.n).bind SrcPic.op

/-- A running picture of a context changed. -/
def Dev.mapJob (d : Dev) (t c : Nat) (f : Job → Job) : Dev :=
  let y := d.tile t
  d.setTile t { y with jobs := y.jobs.map fun j => if j.ctx = c ∧ j.running then f j else j }

/-- A region of a running picture changed. -/
def Job.mapRegion (j : Job) (i : Nat) (f : Region → Region) : Job :=
  { j with regions := j.regions.map fun g => if g.idx = i then f g else g }

/-- A row of a region meets a failure cause (R109, R181, R265). A decoder goes on from a reference on a poisoned page, with a
substitute (R261). -/
def Dev.rowFault (d : Dev) (x : Ctx) (j : Job) (cause : Nat) : Dev :=
  if cause = 4 then
    if x.kind = 1 then (d.setEvent (Reg.PXE_EVENTS x.tile) 0).ctxFail j.ctx 4 0 (d.pictureOp x j)
    else d.mapJob x.tile j.ctx fun y => { y with poisonRef := true }
  else if cause = 5 then
    (((d.count (Reg.DEC_BOUND_HITS x.tile) 1).setEvent (Reg.DEC_EVENTS x.tile) 6).raise (72 + 32 * x.tile + 8) 0).ctxFail
      j.ctx 5 0x20 none
  else d.ctxFail j.ctx cause 0 none

/-- The reference reads of a row go through the pair's cache (R183). -/
def Dev.rowReads (d : Dev) (x : Ctx) (k c : Nat) (reads : List Nat) : Dev :=
  let p := d.pair k
  let y := cacheReads (cacheRsus x.chroma) p.cache reads
  (((d.setPair k { p with cache := y.1 }).count (Reg.WS_REF_HITS x.tile) y.2.1).count (Reg.WS_REF_MISSES x.tile) y.2.2).pmPair
    k c 0x13 y.2.2

/-- ROW_COMPLETE (R120, R181, R183, R237, R265): the Pixel Engine has done a row of a region, whose ROW_END has passed the
Coupling Buffer's side of it; at the boundary the region is checked for preemption, and the picture of a DRAINING context stops
(R108). A failure can come within a row. -/
def execRowComplete (r : RowDone) (s : State) : Host.Outcome State Fault Refusal :=
  s.act fun d0 =>
    let d := d0.advanceTo r.t
    match d.ctx r.ctx with
    | none => d
    | some x => match (d.tile x.tile).jobs.find? fun j => j.ctx == r.ctx && j.running with
      | none => d
      | some j => match j.regions.find? fun g => g.idx == r.region with
        | none => d
        | some g => match g.pair with
          | none => d
          | some k =>
            if g.ended then d
            else
              let d1 := d.rowReads x k r.ctx r.reads
              if r.fault = 1 ∨ r.fault = 2 ∨ r.fault = 4 ∨ r.fault = 5 ∨ r.fault = 8 then d1.rowFault x j r.fault
              else if (d.pair k).pxe.row ≤ g.ests.length then d
              else if x.state = 4 then (d1.dropJobs r.ctx true).freePairs r.ctx
              else
                let d2 := (d1.pmPair k r.ctx 0x14 1).mapJob x.tile r.ctx fun y =>
                  y.mapRegion r.region fun z => { z with ests := z.ests ++ [r.est] }
                d2.preemptCheck x.tile k j

/-- PAIR_HANDOVER (R184, R208): the Syntax Engine of a pair that was asked for has parked, with the Coupling Buffer empty; its
region's state is saved and the pair takes the ready picture. -/
def execPairHandover (tile pair : Nat) (s : State) : Host.Outcome State Fault Refusal :=
  s.act fun d =>
    let k := 16 * tile + pair
    let p := d.pair k
    match p.ctx with
    | none => d
    | some c =>
      if p.preempt = false ∨ p.cb.recs ≠ [] ∨ p.sxe.parked = false then d
      else
        let t := d.tile tile
        let jobs := t.jobs.map fun j =>
          if j.ctx = c ∧ j.running then { j with regions := j.regions.map fun g => if g.pair = some k then { g with pair := none } else g }
          else j
        let z : SavedRegion := ⟨p.sxe.com, p.pxe.row, p.sxe.used, p.sxe.ppx⟩
        let d1 := { d with media := { d.media with saved := SMap.insert d.media.saved (16 * c + p.region) z } }
        let d2 := (d1.setTile tile { t with jobs := jobs }).pmPair k c 0x15 1
        ((d2.assignPair k none 0).setEvent (Reg.PXE_EVENTS tile) 1).dispatch tile

/-- Block rows of a seam that both its regions have reconstructed; none once the whole seam is done. The regions of AVC meet in one
pair of rows, the last of the upper and the first of the lower (R168). -/
def Job.seamRows (j : Job) (codec seam : Nat) : Option Nat :=
  let rows (i : Nat) : Nat × Bool := ((j.regions.find? fun g => g.idx == i).map fun g => (g.ests.length, g.ended)).getD (0, false)
  let a := rows seam
  let b := rows (seam + 1)
  if a.2 && b.2 then none
  else if codec = 0 then (if a.2 && decide (1 ≤ b.1) then none else some 0)
  else some (if a.2 then b.1 else if b.2 then a.1 else min a.1 b.1)

/-- SEAM_FILTER (R168): the rows of a seam that both regions have reconstructed are filtered. -/
def execSeamFilter (ctx seam : Nat) (s : State) : Host.Outcome State Fault Refusal :=
  s.act fun d =>
    match d.ctx ctx with
    | none => d
    | some x => match (d.tile x.tile).jobs.find? fun j => j.ctx == ctx && j.running with
      | none => d
      | some j =>
        let seams := match j.seamRows x.codec seam with
          | none => j.seams.filter fun y => y.1 != seam
          | some n => j.seams.map fun y => if y.1 = seam then (seam, max y.2 n) else y
        d.setTile x.tile ((d.tile x.tile).putJob { j with seams := seams })

/-! ### Completion (R120, R228-R242, R542) -/

/-- The DTS of the next access unit in decoding order, and what is left of the queue of PTS values (R542). -/
def Ctx.nextDts (x : Ctx) (m : Nat) : Int × List Int :=
  let depth := gopDepth m
  let n := x.auCount + 1
  if n ≤ depth then (x.firstPts - ((depth - n + 1) * x.periodTicks : Nat), x.ptsList)
  else match x.ptsList with
    | p :: r => (p, r)
    | [] => (x.firstPts, [])

/-- Temporal units that leave once a picture is coded ahead of the one to show next (R542); `n` bounds their number. -/
def showNext : Nat → List Nat → List (Nat × AccUnit) → List AccUnit × List Nat × List (Nat × AccUnit)
  | 0, l, a => ([], l, a)
  | k + 1, l, a => match l with
    | [] => ([], l, a)
    | n :: r => match a.find? fun y => y.1 == n with
      | none => ([], l, a)
      | some y =>
        let z := showNext k r (a.filter fun w => w.1 != n)
        ({ y.2 with data := temporalDelimiter ++ Config.showExisting n } :: z.1, z.2)

/-- The access units that a coded picture lets out: itself in AVC, HEVC and VVC; in AV1 the temporal units in display
order. -/
def Ctx.release (x : Ctx) (m n : Nat) (au : AccUnit) : Ctx × List AccUnit :=
  if x.codec ≠ 2 then
    let y := x.nextDts m
    ({ x with auCount := x.auCount + 1, ptsList := y.2 }, [{ au with dts := y.1 }])
  else
    let a := { au with dts := au.pts }
    let pl := x.ptsList.erase au.pts
    if x.show_.head? = some n then
      let y := showNext (x.ahead.length + 1) (x.show_.drop 1) x.ahead
      ({ x with auCount := x.auCount + 1 + y.1.length, ptsList := pl, hidden := [], show_ := y.2.1, ahead := y.2.2 },
        { a with data := temporalDelimiter ++ x.hidden ++ au.data } :: y.1)
    else ({ x with ptsList := pl, hidden := x.hidden ++ au.data, ahead := x.ahead ++ [(n, a)] }, [])

/-- The last access unit of a list changed. -/
def onLast (f : AccUnit → AccUnit) (l : List AccUnit) : List AccUnit :=
  match l.getLast? with
  | none => []
  | some x => l.dropLast ++ [f x]

/-- A member has encoded a source picture: it, its rung source, and what PICTURE waits for (R123, R130). -/
def Dev.encoded (d : Dev) (c n : Nat) : Dev :=
  let d1 := { d with media := { d.media with rungs := SMap.erase d.media.rungs (4096 * n + c) } }
  match d1.ctx c with
  | none => d1
  | some x => match x.group with
    | some g => match d1.group g with
      | none => d1
      | some y =>
        let pics := y.src.pics.map fun p => if p.n = n then { p with waiting := p.waiting.filter (· != c) } else p
        (d1.setGroup g { y with src := { y.src with pics := pics } }).releasePics g
    | none =>
      let op := (x.src.pics.find? fun p => p.n == n).bind SrcPic.op
      let d2 := d1.setCtx c { x with src := { x.src with pics := x.src.pics.filter fun p => p.n != n } }
      match op with
      | some id => d2.finish id ⟨stOk, 1, 0, 0⟩
      | none => d2

/-- A picture of a PRODUCE is encoded; after its last one the PRODUCE completes, or leaves that to its Segmenter (R133,
R275), and the context's next PRODUCE begins. -/
def Dev.producedPic (d : Dev) (x : Ctx) (j : Job) : Dev :=
  match x.group with
  | none => d
  | some g => match d.group g with
    | none => d
    | some y => match y.produces.find? fun p => p.ctx == j.ctx && p.given with
      | none => d
      | some p =>
        let d1 := d.setGroup g { y with produces := y.produces.map fun q =>
          if q.op = p.op then { q with done := q.done + 1 } else q }
        if j.last then
          let st := if p.late || d.late p.deadline then stLate else stOk
          (d1.endProduce g p.op (if x.output = 1 then none else some ⟨st, p.done + 1, 0, 0⟩)).beginProduce g j.ctx
            (y.produces.length + 1)
        else d1

/-- The motion that is stored with RSU `i` of a picture: what its regions chose at its centre (R178). -/
def Job.storedMotion (j : Job) (w i : Nat) : Motion :=
  let x := 16 * (i % rsuCols w) + 8
  let y := 16 * (i / rsuCols w) + 8
  (j.regions.findSome? fun g => g.motionAt x y).getD ⟨none, none⟩

/-- The reference buffers once an encoded picture is complete (R175, R176, R180): a key picture leaves only itself, and a B picture
of the deepest layer is not kept. The reconstruction is the codec's own. -/
def Dev.encodeRefs (d : Dev) (x : Ctx) (j : Job) : List RefPic :=
  let old := if j.key then [] else x.dec.refs
  if 2 ≤ j.ptype ∧ gopDepth (d.gopLength x) ≤ j.ptype - 1 then old
  else
    let used := (j.list0 ++ j.list1).filterMap fun n => (x.dec.refs.find? fun r => r.order == n).map fun r => r.rsus.flatMap Rsu.read
    let p := Config.recon x.codec x.depth (j.regions.map Region.recs) used
    let rsus := storeRsus (d.flag (Reg.PXE_CTRL x.tile) 0) x.width x.height 0 p.1 p.2.1 p.2.2
    let kept := fitRefs (x.pictures - 2) 32 old
    kept ++ [{ order := j.n, damaged := false, needed := true, slot := freeSlot kept, ptype := j.ptype, width := x.width,
               height := x.height, chroma := 0, rsus := rsus,
               motion := (List.range rsus.length).map fun i => j.storedMotion x.width i }]

/-- The coded data of a picture's regions, in order (R167, R204). -/
def Ctx.codedBytes (x : Ctx) : List Byte :=
  let part (i : Nat) : List Byte :=
    let l := ((SMap.find x.coded i).getD []).reverse
    packBits (l.length / 8 + 1) l
  let parts := (List.range x.regions).map part
  if x.regions ≤ 1 ∨ x.codec = 0 then parts.flatten else Config.joinRegions x.codec parts

/-- An encoded picture's access unit before filler (R204, R210-R212): its heading units and its coded data. -/
def Ctx.unitBytes (x : Ctx) (rc : RcState) (j : Job) : List Byte :=
  x.headUnits rc.cur j j.hrd (j.n - x.keyN) ++ x.codedBytes

/-- An encoded picture completes. -/
def Dev.encodeDone (d : Dev) (x : Ctx) (rc : RcState) (j : Job) : Dev :=
  let t := x.tile
  let data := x.unitBytes rc j
  let y := x.rcEnd rc j (8 * data.length)
  let stage := (j.regions.map Region.stage).foldl max 0
  let late := j.late || j.deadline.any d.late
  let fill := if y.2.1 = 0 then [] else Config.filler x.codec y.2.1
  let prod := (x.group.bind d.group).bind fun g => g.produces.find? fun q => q.ctx == j.ctx && q.given
  let au : AccUnit :=
    { data := data ++ fill, pts := j.pts, dts := j.pts, dur := x.periodTicks,
      status := worst [when_ (stage != 0) stOvershoot, when_ late stLate],
      detail := b2n j.key + 2 * b2n j.segStart + 4 * b2n late + y.2.2, segStart := j.segStart, segIndex := j.segIndex,
      key := j.key, stage := stage, late := late, produced := j.produce, ends := false, mark := false, finishes := none,
      order := j.n, own := true }
  let refs := d.encodeRefs x j
  let z := ({ x with rc := some y.1, bits := 0, coded := [], dec := { x.dec with refs := refs } }).release (d.gopLength x) j.n au
  let ends (a : AccUnit) : AccUnit := { a with
    ends := true,
    finishes := match prod with
      | some q => if x.output = 1 then some (q.op, stOk, q.done + 1) else none
      | none => none }
  let aus := if j.last then onLast ends z.2 else z.2
  let d1 := d.setCtx j.ctx z.1
  let d2 := if stage ≠ 0 then (d1.setEvent (Reg.RC_EVENTS t) 0).count (Reg.RC_OVERSHOOTS t) 1 else d1
  let d3 := if stage = 2 then (d2.setEvent (Reg.RC_EVENTS t) 1).count (Reg.RC_STAGE2 t) 1 else d2
  let d4 := if y.2.1 ≠ 0 then d3.setEvent (Reg.RC_EVENTS t) 2 else d3
  let d5 := if late then d4.setEvent (Reg.TILE_EVENTS t) 1 else d4
  let d6 := aus.foldl (fun e a => e.auPut j.ctx a) d5
  ((d6.encoded j.ctx j.n).producedPic x j)

/-- Whether a region's records have begun and not ended: a region of which no unit has come holds up no decoded picture. -/
def Dev.regionOpen (d : Dev) (x : Ctx) (c : Nat) (g : Region) : Bool :=
  !g.ended && (x.kind == 1 || match g.pair with
    | some k => (d.pair k).cb.pos.stage != 0 || !(d.pair k).cb.recs.isEmpty
    | none => (SMap.find d.media.saved (16 * c + g.idx)).isSome)

/-- Whether a running picture can be complete (R120, R168, R228, R241): every region and seam is done, and an encoded one is within
its HRD limit, which the reserves of stage 2 ensure. -/
def Dev.pictureDone (d : Dev) (x : Ctx) (c : Nat) (j : Job) : Bool :=
  !(j.regions.any (d.regionOpen x c)) && (j.seams.isEmpty || (x.kind == 0 && j.regions.any fun g => !g.ended)) &&
  (x.kind != 1 || x.state != 2 || match x.rc with
    | some rc => decide ((8 * (x.unitBytes rc j).length : Nat) ≤ j.hrd)
    | none => true)

/-- PICTURE_COMPLETE (R108, R120, R168): every region and seam is done. The picture of a DRAINING context ends without output. -/
def execPictureComplete (p : PicDone) (s : State) : Host.Outcome State Fault Refusal :=
  s.act fun d0 =>
    let d := d0.advanceTo p.t
    match d.ctx p.ctx with
    | none => d
    | some x =>
      let t := d.tile x.tile
      match t.jobs.find? fun j => j.ctx == p.ctx && j.running with
      | none => d
      | some j =>
        if d.pictureDone x p.ctx j = false then d
        else
          let gone (e : Dev) : Dev :=
            let y := e.tile x.tile
            (e.setTile x.tile { y with jobs := y.jobs.filter fun z => !(z.ctx == p.ctx && z.running) }).freePairs p.ctx
          let d1 := (gone d).dropSaved p.ctx
          if x.state ≠ 2 then d1
          else if x.kind = 1 then
            match x.rc with
            | some rc => d1.encodeDone x rc j
            | none => d1
          else
            let d2 := match d1.segmentOf p.ctx with
              | some (g, y, sd) => d1.segmentDone g p.ctx x y sd j p
              | none => d1.decodeDone p.ctx x j p
            d2.decodeNext p.ctx

/-- Whether the guaranteed load admitted to a tile fits with a capacity of `c` and `a` of the two pools (R24, R116). -/
def Dev.loadFits (d : Dev) (t c a : Nat) : Bool :=
  let r := c * d.fld (Reg.TILE_CTRL t) 15 8 / 100
  decide (d.reg (Reg.TILE_ADMITTED_LIVE t) + r ≤ c) && decide (d.reg (Reg.TILE_ADMITTED_OD t) ≤ r) &&
    decide (d.reg (Reg.TILE_ADMITTED_ANE t) ≤ a)

/-- DVFS_CHANGE (R24, R116, R117): the tile's point and its capacity change. Ndelia firmware lowers a point only while the
admitted load fits, so a lower point that it does not fit is one that a limit forces: DEGRADED source 29 raises. -/
def execDvfsChange (tile point t : Nat) (s : State) : Host.Outcome State Fault Refusal :=
  s.act fun d =>
    if 4 ≤ tile ∨ 3 ≤ point then d
    else
      let d1 := d.advanceDue t
      let x := d1.tile tile
      let mhz := tileHz point / 1000000
      let d2 := if x.point < point ∧ d1.loadFits tile (16 * mhz) (4 * mhz) = false then d1.raise 29 tile else d1
      if x.point = point then d1
      else ((d2.setTile tile { x with point := point }).setReg (Reg.TILE_CAPACITY tile)
        (4 * mhz * 65536 + 16 * mhz)).setEvent (Reg.TILE_EVENTS tile) 0

end Sys2Proof.Machine
end

