-- ==== Sys2Proof/Machine/RecOps.lean ====
section
/-! DEFINITION. Coupling Buffer records (spec/07_pixel_engines.md R184-R192, spec/08_syntax_engines.md R219, R220): their
publication and consumption, what the Pixel Engine may write in encode, and the meanings of the record commands. -/

namespace Sys2Proof.Machine

/-! ### Fill and drift (R219) -/

/-- Words of a Coupling Buffer. -/
def cbSize : Nat := 2 * 2 ^ 20 / 4

/-- Words that published records hold. -/
def CoupBuf.fill (b : CoupBuf) : Nat := (b.recs.map List.length).sum

/-- How often an opcode stands in some records. -/
def countOp (op : Nat) (l : List (List Nat)) : Nat := (l.filter fun r => recOp r == op).length

/-- Whether records fit, and none is the ROW_START of a row too far ahead. -/
def CoupBuf.fits (b : CoupBuf) (l : List (List Nat)) : Bool :=
  decide (b.fill + (l.map List.length).sum ≤ cbSize) &&
    (countOp 0x02 l == 0 || decide (b.prodStarts + countOp 0x02 l ≤ b.consEnds + 4))

/-- Records are published. -/
def CoupBuf.publish (b : CoupBuf) (l : List (List Nat)) : CoupBuf :=
  let y := { b with recs := b.recs ++ l, prodStarts := b.prodStarts + countOp 0x02 l,
                    prodEnds := b.prodEnds + countOp 0x09 l }
  { y with high := max y.high y.fill }

/-- The `n` oldest records are consumed, which leaves order state `pos`. -/
def CoupBuf.consume (b : CoupBuf) (n : Nat) (pos : RecPos) : CoupBuf :=
  let l := b.recs.take n
  { b with recs := b.recs.drop n, pos := pos, consStarts := b.consStarts + countOp 0x02 l,
           consEnds := b.consEnds + countOp 0x09 l }

/-- A pair's Coupling Buffer changes, and CB_FILL with it. -/
def Dev.setCb (d : Dev) (k : Nat) (b : CoupBuf) : Dev :=
  (d.setPair k { d.pair k with cb := b }).setReg (Reg.CB_FILL (k / 16) (k % 16))
    (b.high / 256 * 2 ^ 20 + b.fill / 256 * 2 ^ 8 + (b.prodStarts - b.consStarts))

/-! ### Rejection (R192, R207) -/

/-- INFO of SXE_RESTART and SXE_FAILED. -/
def sxeInfo (k c addr entry : Nat) (restart : Bool) : Nat :=
  c + addr * 2 ^ 12 + entry * 2 ^ 26 + k * 2 ^ 40 + b2n restart * 2 ^ 48

/-- A record is rejected: the region stops and the context fails; in encode it is the SXE that makes it fail, which records the
faulting word and its routine as well. -/
def Dev.rejectRecord (d : Dev) (k c : Nat) : Dev :=
  let t := k / 16
  let x := (d.pair k).sxe
  let enc := (d.ctx c).any fun y => y.kind == 1
  let d1 := d.raise (72 + 32 * t + 3) (k * 2 ^ 40 + c)
  let d2 := if enc then d1.raise (72 + 32 * t + 2) (sxeInfo k c x.pc x.entry false) else d1
  let d3 := d2.ctxFail c 6 0x12 none
  if enc then d3.setEvent (Reg.SXE_EVENTS t) 3 else d3

/-! ### What the Pixel Engine writes (R165, R170-R173, R177, R187-R191, R237-R240) -/

/-- First block column, or row in AVC, of a region, and how many it has (R167). -/
def Ctx.regionAt (x : Ctx) (i : Nat) : Nat × Nat :=
  let y := regionSpan (if x.codec = 0 then blocksOf 0 x.height else blocksOf x.codec x.width) x.regions i
  (y.1, y.2 - y.1)

/-- Position of block `b` of row `r` of a region, in blocks of the picture: column and row. -/
def Ctx.blockAt (x : Ctx) (i r b : Nat) : Nat × Nat :=
  let y := x.regionAt i
  if x.codec = 0 then (b, y.1 + r) else (y.1 + b, r)

/-- Luma position of a block of a coding unit, from its CTB, CU and geometry words. -/
def lumaAt (codec : Nat) (ctb cu : List Nat) (g : Nat) : Nat × Nat :=
  let w := recWord ctb 1
  let u := recWord cu 1
  (bits w 31 16 * blockSide codec + 4 * geoX u + 4 * geoX g, bits w 15 0 * blockSide codec + 4 * geoY u + 4 * geoY g)

/-- The picture that a reference index of an INTER record names; AV1 reference frames 1 to 4 are list 0, 5 to 7 list 1. -/
def Job.refOf (j : Job) (codec : Nat) (second : Bool) (i : Nat) : Option Nat :=
  if codec = 2 then (if 1 ≤ i ∧ i ≤ 4 then j.list0[i - 1]? else if 5 ≤ i ∧ i ≤ 7 then j.list1[i - 5]? else none)
  else (if second then j.list1 else j.list0)[i]?

/-- Vectors of an INTER record in 1/16 luma sample. -/
def interVec (r : List Nat) (second : Bool) : Int × Int :=
  if second then (signed 32 (recWord r 4), signed 32 (recWord r 5)) else (signed 32 (recWord r 2), signed 32 (recWord r 3))

/-- REF0 or REF1 of an INTER record. -/
def interRef (r : List Nat) (second : Bool) : Nat := if second then bits (recWord r 6) 27 24 else bits (recWord r 6) 31 28

/-- The motion that an INTER record describes; none where an index names no reference. -/
def Job.recMotion (j : Job) (codec : Nat) (r : List Nat) : Option Motion :=
  let part (second : Bool) : Option ((Int × Int) × Nat) := (j.refOf codec second (interRef r second)).map fun n => (interVec r second, n)
  match bit (interDir r) 0, bit (interDir r) 1 with
  | true, true => match part false, part true with
    | some a, some b => some ⟨some a, some b⟩
    | _, _ => none
  | true, false => (part false).map fun a => ⟨some a, none⟩
  | _, _ => (part true).map fun b => ⟨none, some b⟩

/-- Where the search of R172 and R173 leaves the vector of a block for a reference, in quarter samples. -/
def Dev.pxeVector (d : Dev) (x : Ctx) (j : Job) (g : Region) (ref px py w h : Nat) (second : Bool) : Option (Int × Int) :=
  match x.dec.refs.find? fun r => r.order == ref with
  | none => none
  | some p =>
    let e : RungEntry := j.entries.getD ((py + h / 2) / 16 * blocks16 x.width + (px + w / 2) / 16) ⟨(0, 0), (0, 0), 0, 0, 0, 0, 0⟩
    let a := clipVector x.codec x.level (analysisCandidate e j.hasL0 j.hasL1 ((j.n : Int) - ref))
    let near := (j.list0 ++ j.list1).head?.bind fun n => x.dec.refs.find? fun r => r.order == n
    let rung := match SMap.find d.media.rungs (4096 * j.n + j.ctx) with
      | some y => y.luma
      | none => ((d.sourcePic x j.n).map fun q => (d.picLuma q).s.toList).getD []
    let src := planeBlock x.width x.height rung px py w h
    searchVector x.preset (vectorOk a x.width x.height px py w h) (vectorCost p src px py w h)
      (motionCandidates g near a second px py w h)

/-- Whether the vectors of an INTER record are those of the search, or those that its merge candidate or tool gives (R190). -/
def Dev.vectorsOk (d : Dev) (x : Ctx) (j : Job) (g : Region) (p : PxePos) (r : List Nat) : Bool :=
  let at_ := lumaAt x.codec p.ctb p.cu (recWord r 1)
  let w := 2 ^ geoW (recWord r 1)
  let h := 2 ^ geoH (recWord r 1)
  let same (m : Option ((Int × Int) × Nat)) (second : Bool) : Bool := match m with
    | none => true
    | some (v, ref) => match d.pxeVector x j g ref at_.1 at_.2 w h second with
      | some u => v == (4 * u.1, 4 * u.2)
      | none => false
  match j.recMotion x.codec r with
  | none => false
  | some m => cuPred p.cu == 2 || bits (recWord r 6) 23 16 != 0xFF || bit (recWord r 0) 18 || (same m.l0 false && same m.l1 true)

/-- Whether a coding unit of stage 2 is as R240 has it: in a key picture DC intra at the largest size without residual, in
another picture skip. -/
def stageTwo (codec : Nat) (key : Bool) (r : List Nat) : Bool :=
  let side := [4, 6, 6, 7].getD codec 7
  !cuCoded r && (if key then cuPred r == 0 && geoW (recWord r 1) == side && geoH (recWord r 1) == side else cuPred r == 2)

/-- Whether an in-order record of an encode says what the picture, the region and the row determine, with tools of the preset;
`stage` is that of the records before it (R192). -/
def Dev.pxeMay (d : Dev) (x : Ctx) (rc : RcState) (j : Job) (g : Region) (p : PxePos) (stage : Nat) (r : List Nat) : Bool :=
  let op := recOp r
  let i := recInfo r
  let w := recWord r 1
  let v := recWord r 2
  let cuW := geoW (recWord p.cu 1)
  let b := x.blockAt g.idx p.row p.block
  let open_ := p.block == g.blocks.getD p.row 0
  let settled := p.cu.isEmpty || !cuCoded p.cu || stage == 6
  recFields x.codec r && recTools x.codec x.preset j.ptype cuW j.fade r &&
  if op = 0x01 then
    bits i 1 0 == min 2 j.ptype && bit i 2 == j.key && bit i 3 == j.segStart && bits i 7 4 == g.idx && w == j.n - x.keyN &&
      bits v 7 0 == j.q0.toNat && bits (recWord r 3) 31 16 == (x.regionAt g.idx).1 &&
      bits (recWord r 3) 15 0 == (x.regionAt g.idx).2
  else if op = 0x02 then
    bits w 15 0 == (x.blockAt g.idx p.row 0).2 && decide (p.row < g.blocks.length) && decide (reportedRows p.row ≤ g.acts.length) &&
      decide (p.row ≤ g.ests.length)
  else if op = 0x03 then bits w 31 16 == b.1 && bits w 15 0 == b.2 && !open_ && settled
  else if op = 0x04 then
    let at_ := lumaAt x.codec p.ctb r 0
    settled && (cuQidx r : Int) == x.blockQ rc.cur j g p.row (at_.2 / 16 * blocks16 x.width + at_.1 / 16) &&
      (g.stage != 2 || stageTwo x.codec j.key r)
  else if op = 0x05 then cuPred p.cu == 0 && (g.stage != 2 || bits w 31 24 == [2, 1, 0, 1].getD x.codec 0)
  else if op = 0x06 then
    cuPred p.cu != 0 && (if g.stage = 2 then j.recMotion x.codec r == j.list0.head?.map fun n => ⟨some ((0, 0), n), none⟩
      else d.vectorsOk x j g p r)
  else if op = 0x07 then !p.cu.isEmpty && cuCoded p.cu
  else if op = 0x09 then bits w 31 16 == g.blocks.getD p.row 0 && open_ && settled
  else if op = 0x0A then w == 0 && p.row == g.blocks.length
  else true

/-! ### The PXE's side (R184, R192, R219) -/

/-- What the Pixel Engine writes next, after a record. -/
def PxePos.next (p : PxePos) (r : List Nat) : PxePos :=
  let op := recOp r
  if op = 0x02 then { p with block := 0, ctb := [], cu := [], pu := [] }
  else if op = 0x03 then { p with block := p.block + 1, ctb := r, cu := [], pu := [] }
  else if op = 0x04 then { p with cu := r, pu := [] }
  else if op = 0x05 ∨ op = 0x06 then { p with pu := r }
  else if op = 0x09 then { p with row := p.row + 1, ctb := [], cu := [], pu := [] }
  else p

/-- The 4 × 4 blocks of a prediction block take its motion. -/
def Region.setMotion (g : Region) (at_ : Nat × Nat) (w h : Nat) (m : Motion) : Region :=
  { g with motion := (List.range (h / 4)).foldl (fun a dy => (List.range (w / 4)).foldl (fun b dx =>
      SMap.insert b ((at_.2 / 4 + dy) * 65536 + at_.1 / 4 + dx) m) a) g.motion }

/-- What a record that is written does to its region: a row or a block begins or ends, and motion is chosen. -/
def Ctx.regionStep (x : Ctx) (rc : RcState) (j : Job) (p : PxePos) (bins : Nat × Nat) (r : List Nat) (g : Region) : Region :=
  let op := recOp r
  let g1 := if op = 0x02 then x.rowStart rc.cur j g p.row
    else if op = 0x03 then g.blockStart (reserveOf x.codec j.key) (blockBound x.codec bins)
    else if op = 0x09 then g.rowEnd
    else if op = 0x06 then match j.recMotion x.codec r with
      | some m => g.setMotion (lumaAt x.codec p.ctb p.cu (recWord r 1)) (2 ^ geoW (recWord r 1)) (2 ^ geoH (recWord r 1)) m
      | none => g
    else g
  { g1 with recs := g1.recs ++ [r] }

/-- Encode: the PXE of pair `k` publishes a record, unless it stalls for room or for drift, or its pair has been asked for and it
is at a row boundary. A record that the rules of its picture do not give it, it does not write (log entry 61); one of a wrong
length or out of order, which only a hardware fault can cause, goes out as it is (R192). -/
def Dev.pxePublish (d : Dev) (k c : Nat) (x : Ctx) (bins : Nat × Nat) (r : List Nat) : Dev :=
  let p := d.pair k
  if (p.preempt && p.cb.prodStarts == p.cb.prodEnds) || !p.cb.fits [r] then d
  else match recOrder x.codec p.cb.pos p.cb.recs with
  | none => d.setCb k (p.cb.publish [r])
  | some q =>
  if (recOrder x.codec q [r]).isNone then d.setCb k (p.cb.publish [r])
  else match x.rc, (d.tile x.tile).jobs.find? fun j => j.ctx == c && j.running with
    | some rc, some j => match j.regions.find? fun g => g.idx == p.region with
      | none => d
      | some g =>
        if d.pxeMay x rc j g p.pxe q.stage r = false then d
        else
          let d1 := d.setPair k { p with pxe := p.pxe.next r }
          (d1.mapJob x.tile c fun y => y.mapRegion p.region (x.regionStep rc j p.pxe bins r)).setCb k (p.cb.publish [r])
    | _, _ => d

/-- A region of a running picture ends, and its pair becomes idle. -/
def Dev.endRegion (d : Dev) (k c : Nat) : Dev :=
  let i := (d.pair k).region
  (d.mapJob (k / 16) c fun j => j.mapRegion i fun g => { g with ended := true, pair := none }).assignPair k none 0

/-- Decode: the PXE of pair `k` takes the oldest record, when `p` chooses it or when the order rejects it. A PIC_END ends the
region, and so does the last record of one whose work budget is spent (R259). -/
def Dev.pxeConsume (d : Dev) (k c bank : Nat) (p : List Nat → Bool) : Dev :=
  let y := d.pair k
  match y.cb.recs with
  | [] => d
  | r :: _ => match recOrder bank y.cb.pos [r] with
    | none => d.rejectRecord k c
    | some s =>
      if p r then
        let d1 := (d.setPair k { y with pxe := y.pxe.next r }).setCb k (y.cb.consume 1 s)
        if recOp r = 0x0A ∨ (y.sxe.com.budgetOut && !y.sxe.running && y.cb.recs.length == 1) then d1.endRegion k c else d1
      else d

/-- A record command whose OPCODE satisfies `p` in its bank: in encode the PXE writes it (R185), in decode the PXE takes it
if it is the oldest. -/
def Dev.record (d : Dev) (r : RecIn) (p : Nat → Nat → Bool) : Dev :=
  let k := 16 * r.tile + r.pair
  if 4 ≤ r.tile ∨ 16 ≤ r.pair ∨ (d.tile r.tile).stopped then d
  else match (d.pair k).ctx with
    | none => d
    | some c => match d.ctx c with
      | none => d
      | some x =>
        let w := r.words.map BitVec.toNat
        if x.kind = 1 then
          if p x.codec (recOp w) && recWords w == w.length && !w.isEmpty then d.pxePublish k c x r.bins w else d
        else d.pxeConsume k c x.codec fun y => p x.codec (recOp y)

/-- A record command of one opcode in every bank. -/
def Dev.coreRecord (d : Dev) (r : RecIn) (op : Nat) : Dev := d.record r fun _ o => o == op

/-- Whether a bank lists a codec element opcode (R220). -/
def listed (bank op : Nat) : Bool := (elementWords bank op).isSome || isPredWeight bank op || isPalette bank op

/-- A codec element record of some banks: its opcode there, and where a bank does not list that opcode, which the consumer
then rejects (R192). -/
def Dev.elementRecord (d : Dev) (r : RecIn) (banks : List Nat) (op : Nat) : Dev :=
  d.record r fun bank o => o == op && (banks.contains bank || !listed bank op)

/-! ### Meanings -/

/-- PAD (R186): opcode 0x00. -/
def execPad (r : RecIn) (s : State) : Host.Outcome State Fault Refusal :=
  s.act fun d => d.coreRecord r 0x00

/-- PIC_START (R187): opcode 0x01. -/
def execPicStart (r : RecIn) (s : State) : Host.Outcome State Fault Refusal :=
  s.act fun d => d.coreRecord r 0x01

/-- ROW_START (R187, R219): opcode 0x02. -/
def execRowStart (r : RecIn) (s : State) : Host.Outcome State Fault Refusal :=
  s.act fun d => d.coreRecord r 0x02

/-- CTB (R187): opcode 0x03. -/
def execCtb (r : RecIn) (s : State) : Host.Outcome State Fault Refusal :=
  s.act fun d => d.coreRecord r 0x03

/-- CU (R189): opcode 0x04. -/
def execCu (r : RecIn) (s : State) : Host.Outcome State Fault Refusal :=
  s.act fun d => d.coreRecord r 0x04

/-- INTRA (R190): opcode 0x05. -/
def execIntra (r : RecIn) (s : State) : Host.Outcome State Fault Refusal :=
  s.act fun d => d.coreRecord r 0x05

/-- INTER (R190): opcode 0x06. -/
def execInter (r : RecIn) (s : State) : Host.Outcome State Fault Refusal :=
  s.act fun d => d.coreRecord r 0x06

/-- RESIDUAL (R191): opcode 0x07. -/
def execResidual (r : RecIn) (s : State) : Host.Outcome State Fault Refusal :=
  s.act fun d => d.coreRecord r 0x07

/-- ROW_END (R187, R219): opcode 0x09. -/
def execRowEnd (r : RecIn) (s : State) : Host.Outcome State Fault Refusal :=
  s.act fun d => d.coreRecord r 0x09

/-- PIC_END (R187): opcode 0x0A. -/
def execPicEnd (r : RecIn) (s : State) : Host.Outcome State Fault Refusal :=
  s.act fun d => d.coreRecord r 0x0A

/-- AVC_MB (R220): opcode 0x40. -/
def execAvcMb (r : RecIn) (s : State) : Host.Outcome State Fault Refusal :=
  s.act fun d => d.elementRecord r [0] 0x40

/-- AVC_SUBMB (R220): opcode 0x41. -/
def execAvcSubmb (r : RecIn) (s : State) : Host.Outcome State Fault Refusal :=
  s.act fun d => d.elementRecord r [0] 0x41

/-- SAO (R220): opcode 0x40. -/
def execSao (r : RecIn) (s : State) : Host.Outcome State Fault Refusal :=
  s.act fun d => d.elementRecord r [1, 3] 0x40

/-- HEVC_CU_EXT (R220): opcode 0x41. -/
def execHevcCuExt (r : RecIn) (s : State) : Host.Outcome State Fault Refusal :=
  s.act fun d => d.elementRecord r [1] 0x41

/-- AV1_CDEF (R220): opcode 0x40. -/
def execAv1Cdef (r : RecIn) (s : State) : Host.Outcome State Fault Refusal :=
  s.act fun d => d.elementRecord r [2] 0x40

/-- AV1_LR (R220): opcode 0x41. -/
def execAv1Lr (r : RecIn) (s : State) : Host.Outcome State Fault Refusal :=
  s.act fun d => d.elementRecord r [2] 0x41

/-- AV1_COMPOUND (R220): opcode 0x42. -/
def execAv1Compound (r : RecIn) (s : State) : Host.Outcome State Fault Refusal :=
  s.act fun d => d.elementRecord r [2] 0x42

/-- AV1_MOTION (R220): opcode 0x43. -/
def execAv1Motion (r : RecIn) (s : State) : Host.Outcome State Fault Refusal :=
  s.act fun d => d.elementRecord r [2] 0x43

/-- AV1_PALETTE (R220): opcode 0x44. -/
def execAv1Palette (r : RecIn) (s : State) : Host.Outcome State Fault Refusal :=
  s.act fun d => d.elementRecord r [2] 0x44

/-- AV1_DELTA (R220): opcode 0x45. -/
def execAv1Delta (r : RecIn) (s : State) : Host.Outcome State Fault Refusal :=
  s.act fun d => d.elementRecord r [2] 0x45

/-- VVC_ALF (R220): opcode 0x41. -/
def execVvcAlf (r : RecIn) (s : State) : Host.Outcome State Fault Refusal :=
  s.act fun d => d.elementRecord r [3] 0x41

/-- VVC_AFFINE (R220): opcode 0x42. -/
def execVvcAffine (r : RecIn) (s : State) : Host.Outcome State Fault Refusal :=
  s.act fun d => d.elementRecord r [3] 0x42

/-- VVC_GPM (R220): opcode 0x43. -/
def execVvcGpm (r : RecIn) (s : State) : Host.Outcome State Fault Refusal :=
  s.act fun d => d.elementRecord r [3] 0x43

/-- VVC_INTER_EXT (R220): opcode 0x44. -/
def execVvcInterExt (r : RecIn) (s : State) : Host.Outcome State Fault Refusal :=
  s.act fun d => d.elementRecord r [3] 0x44

/-- PRED_WEIGHT (R220): opcode 0x42 in banks 0 and 1, 0x45 in bank 3. -/
def execPredWeight (r : RecIn) (s : State) : Host.Outcome State Fault Refusal :=
  s.act fun d => d.record r fun bank o => if bank = 3 then o == 0x45 else o == 0x42 && bank != 2

end Sys2Proof.Machine
end

