-- ==== Sys2Proof/Machine/SxeOps.lean ====
section
/-! DEFINITION. The Syntax Engines (spec/08_syntax_engines.md R193-R213): microwords, the sequencer, the ALU, bit writer and
bit reader, the arithmetic coder, the commit point, restarts and failure, and the meanings MICROWORD,
PREEMPTION_REQUEST, ROUTINE_WATCHDOG and BUDGET_OUT. -/

namespace Sys2Proof.Machine

/-! ### The microword (R195) -/

/-- Bits `hi` to `lo` of a microword. -/
def mf (w : BitVec 144) (hi lo : Nat) : Nat := bits w.toNat hi lo

def mNext (w : BitVec 144) : Nat := mf w 143 130
def mSeq (w : BitVec 144) : Nat := mf w 129 127
def mCond (w : BitVec 144) : Nat := mf w 126 121
def mCinv (w : BitVec 144) : Bool := bit w.toNat 120
def mAc (w : BitVec 144) : Nat := mf w 119 116
def mCtx (w : BitVec 144) : Nat := mf w 115 104
def mCtxMode (w : BitVec 144) : Nat := mf w 103 102
def mBit (w : BitVec 144) : Nat := mf w 101 98
def mBitLen (w : BitVec 144) : Nat := mf w 97 92
def mTbl (w : BitVec 144) : Nat := mf w 91 88
def mSrcA (w : BitVec 144) : Nat := mf w 87 84
def mSrcB (w : BitVec 144) : Nat := mf w 83 80
def mDst (w : BitVec 144) : Nat := mf w 79 76
def mAlu (w : BitVec 144) : Nat := mf w 75 72
def mBSel (w : BitVec 144) : Nat := mf w 71 70
def mCnt (w : BitVec 144) : Nat := mf w 69 68
def mCntOp (w : BitVec 144) : Nat := mf w 67 66
def mCb (w : BitVec 144) : Nat := mf w 65 62
def mCommit (w : BitVec 144) : Bool := bit w.toNat 61
def mWait (w : BitVec 144) : Bool := bit w.toNat 60
def mAcReg (w : BitVec 144) : Nat := mf w 59 56
def mBitReg (w : BitVec 144) : Nat := mf w 55 52
def mTblReg (w : BitVec 144) : Nat := mf w 51 48
def mCbReg (w : BitVec 144) : Nat := mf w 47 44
def mCtxReg (w : BitVec 144) : Nat := mf w 43 40
def mNsym (w : BitVec 144) : Nat := mf w 39 36
def mImm (w : BitVec 144) : Nat := mf w 31 0

/-- Whether an AC_OP, a BIT_OP or a CB_OP writes its register. -/
def acWrites (op : Nat) : Bool := [4, 5, 6, 8, 10].contains op
def bitWrites (op : Nat) : Bool := decide (5 ≤ op) && decide (op ≤ 9)
def cbWrites (op : Nat) : Bool := op == 1 || op == 5

/-- The registers that a microword writes. -/
def mWrites (w : BitVec 144) : List Nat :=
  (if mAlu w = 0 ∨ mAlu w = 14 then [] else [mDst w]) ++ (if acWrites (mAc w) then [mAcReg w] else []) ++
  (if bitWrites (mBit w) then [mBitReg w] else []) ++ (if cbWrites (mCb w) then [mCbReg w] else [])

/-- No element stands twice. -/
def distinct : List Nat → Bool
  | [] => true
  | x :: r => !r.contains x && distinct r

/-- Whether a microword is illegal by its encoding (R195-R200). -/
def mIllegal (w : BitVec 144) : Bool :=
  mf w 35 32 != 0 || mSeq w == 7 || decide (19 ≤ mCond w) || decide (14 ≤ mAc w) || mCtxMode w == 3 || mBit w == 15 ||
  (decide (33 ≤ mBitLen w) && mBitLen w != 63) || decide (6 ≤ mCb w) || mAlu w == 15 || !distinct (mWrites w) ||
  (if mAc w = 7 ∨ mAc w = 8 then mNsym w == 0 else mNsym w != 0)

/-- Whether a microword breaks a rule of the interval after COMMIT (R205); `a` is its own address. -/
def mPostBad (w : BitVec 144) (a : Nat) : Bool :=
  mAc w != 0 || mBit w != 0 || mCb w != 0 || mWait w || [3, 4, 6].contains (mSeq w) ||
  ((mSeq w == 1 || mSeq w == 2) && decide (mNext w < a))

/-! ### Control store (R201-R203) -/

/-- The patch that the SXE of pair `k` runs (R218). -/
def Dev.patchOf (d : Dev) (k : Nat) : Option Patch :=
  match d.media.newPatch with
  | some (_, p) => if d.media.oldPatch.contains k then d.media.patch else some p
  | none => d.media.patch

/-- Where an address is fetched from: a match register redirects a ROM address (R203). -/
def redirect (p : Option Patch) (a : Nat) : Nat :=
  match (p.map Patch.matches_).bind fun l => l.find? fun m => m.1 == a with
  | some m => if a < 0x2000 then 0x2000 + m.2 else a
  | none => a

/-- The microword at an address. -/
def fetchWord (p : Option Patch) (a : Nat) : BitVec 144 :=
  match (p.map Patch.words).bind fun l => if 0x2000 ≤ a then l[a - 0x2000]? else none with
  | some w => w
  | none => Config.rom a

/-- A Signal Book entry (R202). -/
def bookEntry (p : Option Patch) (bank op : Nat) : Nat :=
  match (p.map Patch.book).bind fun l => l.find? fun e => e.1 == bank && e.2.1 == op with
  | some e => e.2.2
  | none => (Config.romBook (256 * bank + op)).toNat

/-- The entry address of an opcode in encode or decode; none where its VALID bit is 0. -/
def bookTarget (p : Option Patch) (enc : Bool) (bank op : Nat) : Option Nat :=
  let e := bookEntry p bank op
  if enc then (if bit e 31 then some (bits e 13 0) else none)
  else if bit e 30 then some (bits e 27 14)
  else none

/-- NAL unit and OBU types that a codec reserves (PRESUMED, log entry 89). -/
def reservedUnits (codec : Nat) : List Nat :=
  if codec = 0 then [17, 18, 22, 23]
  else if codec = 1 then [10, 11, 12, 13, 14, 15] ++ (List.range 10).map (· + 22) ++ (List.range 7).map (· + 41)
  else if codec = 2 then 0 :: (List.range 6).map (· + 9)
  else [4, 5, 6, 11, 26, 27]

/-- Whether the routine of a decode opcode is that of the ROM image which skips a reserved unit (R202). -/
def skipsUnit (p : Option Patch) (bank op : Nat) : Bool :=
  decide (0xC0 ≤ op) && (reservedUnits bank).contains (op - 0xC0) &&
    !((p.map Patch.book).any fun l => l.any fun e => e.1 == bank && e.2.1 == op)

/-! ### Units of the stream (R201, R210) -/

/-- Bits of a byte, most significant first. -/
def byteBits (b : Byte) : List Bool := (List.range 8).map fun i => bit b.toNat (7 - i)

/-- The number that bits spell, most significant first. -/
def bitsNum (l : List Bool) : Nat := l.foldl (fun a b => 2 * a + b2n b) 0

/-- The low `n` bits of a number, most significant first. -/
def numBits (n v : Nat) : List Bool := (List.range n).map fun i => bit v (n - 1 - i)

/-- Bytes up to the next start code, and whether one follows: 00 00 01, or zeros to the end. -/
def nalBytes : List Byte → List Byte
  | [] => []
  | 0#8 :: 0#8 :: 0#8 :: _ => []
  | 0#8 :: 0#8 :: 1#8 :: _ => []
  | b :: r => b :: nalBytes r

/-- Bytes before the next NAL unit: through its start code; none without one. -/
def startCode : List Byte → Option Nat
  | 0#8 :: 0#8 :: 1#8 :: _ => some 3
  | _ :: r => (startCode r).map (· + 1)
  | [] => none

/-- A leb128 number at the front of some bytes and its length; `n` bounds it. -/
def leb : Nat → List Byte → Nat × Nat
  | 0, _ => (0, 0)
  | _, [] => (0, 0)
  | n + 1, b :: r =>
    if b.toNat < 128 then (b.toNat, 1)
    else
      let y := leb n r
      (b.toNat - 128 + 128 * y.1, y.2 + 1)

/-- Greatest size of a NAL unit or OBU (R246). -/
def unitMax : Nat := 32 * 2 ^ 20

/-- A unit of a stream: its bytes, the bytes of the stream that it takes with what precedes it, and the reason code of a read beyond
it: 2 where nothing but its own end is there. -/
structure UnitIn where
  bytes : List Byte
  taken : Nat
  ends : Nat
  deriving DecidableEq, Repr

/-- A unit of `n` of the bytes `l`, which begins `k` bytes after position `pos`: the first stop inside it ends it. -/
def cutUnit (stops : List (Nat × Nat × Nat)) (pos k n : Nat) (l : List Byte) : UnitIn :=
  match stops.find? fun s => decide (pos + k < s.1) && decide (s.1 ≤ pos + k + n) with
  | some s => ⟨l.take (s.1 - pos - k), s.1 - pos + s.2.2, s.2.1⟩
  | none => ⟨l.take n, k + n, 0x02⟩

/-- Whether a stop ends a unit of `n` bytes. -/
def stopsUnit (stops : List (Nat × Nat × Nat)) (pos k n : Nat) : Bool :=
  stops.any fun s => decide (pos + k < s.1) && decide (s.1 ≤ pos + k + n)

/-- The next unit of a stream whose bytes from position `pos` are `l` (R247): none while its end has not come. It has come where
another unit begins, where a stop ends it, and with `closed` where the bytes end. -/
def nextUnit (codec : Nat) (stops : List (Nat × Nat × Nat)) (closed : Bool) (pos : Nat) (l : List Byte) : Option UnitIn :=
  if codec = 2 then
    match l with
    | [] => none
    | h :: r =>
      let ext := b2n (bit h.toNat 2)
      let y := leb 8 (r.drop ext)
      let n := if bit h.toNat 1 then 1 + ext + y.2 + y.1 else l.length
      let whole := if bit h.toNat 1 then y.2 != 0 && decide (n ≤ l.length) else closed
      if whole || closed || stopsUnit stops pos 0 (min n l.length) then some (cutUnit stops pos 0 (min n l.length) l) else none
  else
    match startCode l with
    | none => none
    | some k =>
      let rest := l.drop k
      let u := nalBytes rest
      if u.isEmpty then none
      else if decide (u.length < rest.length) || closed || stopsUnit stops pos k u.length then
        some (cutUnit stops pos k u.length rest)
      else none

/-- The decode opcode of a unit (R201). -/
def unitOpcode (codec : Nat) (u : List Byte) : Nat :=
  let b (i : Nat) : Nat := (u.getD i 0).toNat
  0xC0 + if codec = 0 then b 0 % 32
    else if codec = 1 then b 0 / 2 % 64
    else if codec = 2 then b 0 / 8 % 16
    else b 1 / 8

/-! ### Bit writer and bit reader (R200, R210) -/

/-- One bit is written into the open unit; a byte that emulation prevention must separate is preceded by 0x03. -/
def SxeRegs.putBit (r : SxeRegs) (b : Bool) : SxeRegs :=
  let o := b :: r.open_
  if r.epb && o.length % 8 == 0 && decide (bitsNum (o.take 8).reverse ≤ 3) && decide (24 ≤ o.length) &&
      ((o.drop 8).take 16).all (fun x => !x) then
    { r with open_ := o.take 8 ++ [true, true, false, false, false, false, false, false] ++ o.drop 8 }
  else { r with open_ := o }

def SxeRegs.put (r : SxeRegs) (l : List Bool) : SxeRegs := l.foldl SxeRegs.putBit r

/-- leb128 as bits; `n` bounds its bytes. -/
def lebBits : Nat → Nat → List Bool
  | 0, _ => []
  | n + 1, v => if v < 128 then numBits 8 v else numBits 8 (128 + v % 128) ++ lebBits n (v / 128)

/-- Bits to the next byte boundary. -/
def toByte (n : Nat) : Nat := (8 - n % 8) % 8

/-- The open unit closes, padded to a byte (R200, R210): a NAL unit with its 4-byte start code before it, an OBU with
obu_has_size_field=1 and its size after its header. -/
def SxeRegs.closeUnit (r : SxeRegs) (codec : Nat) : SxeRegs :=
  let l := r.open_.reverse ++ List.replicate (toByte r.open_.length) false
  if l.isEmpty then r
  else
    let framed :=
      if codec = 2 then
        let h := if l.getD 5 false then 16 else 8
        l.take 6 ++ [true] ++ (l.take h).drop 7 ++ lebBits 8 ((l.length - h) / 8) ++ l.drop h
      else numBits 32 1 ++ l
    { r with out := framed.reverse ++ r.out, open_ := [] }

/-- The first syntax error sets STREAM_ERROR (R260). -/
def SxeRegs.error (r : SxeRegs) (reason : Nat) : SxeRegs :=
  if r.streamError = 0 then { r with streamError := reason, errs := r.errs ++ [(r.streamPos - 1, reason)] } else r

/-- `n` raw bits of the unit are passed. -/
def SxeRegs.pass (r : SxeRegs) (n : Nat) : SxeRegs :=
  { r with unit := r.unit.drop n, unitPos := r.unitPos + n,
           last16 := (r.unit.take n).foldl (fun v b => (2 * v + b2n b) % 65536) r.last16 }

/-- An emulation prevention byte at the read position is passed, while emulation prevention is on. -/
def SxeRegs.skipEpb (r : SxeRegs) : SxeRegs :=
  if r.epb && r.unitPos % 8 == 0 && decide (16 ≤ r.unitPos) && r.last16 == 0 && decide (8 ≤ r.unit.length) &&
      bitsNum (r.unit.take 8) == 3 then r.pass 8
  else r

/-- Up to `n` bits of the unit, fewer at its end. -/
def SxeRegs.getBits : Nat → SxeRegs → List Bool × SxeRegs
  | 0, r => ([], r)
  | n + 1, r =>
    let y := r.skipEpb
    match y.unit with
    | [] => ([], y)
    | b :: _ =>
      let z := SxeRegs.getBits n (y.pass 1)
      (b :: z.1, z.2)

/-- Reason code of a read beyond the end of the unit (R247, R264). -/
def SxeRegs.overrun (r : SxeRegs) : Nat := if r.unitEnd = 0 then 0x02 else r.unitEnd

/-- `n` bits are read; beyond the end of the unit zeros are, an error (R260). -/
def SxeRegs.get (r : SxeRegs) (n : Nat) : Nat × SxeRegs :=
  let y := r.getBits n
  (bitsNum y.1 * 2 ^ (n - y.1.length), if y.1.length < n then y.2.error r.overrun else y.2)

/-- ue(v) is read; a prefix above 32 zeros is out of range (R260). -/
def SxeRegs.getUe (r : SxeRegs) : Nat × SxeRegs :=
  let l := (r.getBits 34).1
  let k := (l.takeWhile fun b => !b).length
  if k = l.length then (0, (r.get (k + 1)).2)
  else if 32 < k then (0, (r.get (k + 1)).2.error 1)
  else
    let y := (r.get (k + 1)).2.get k
    (2 ^ k - 1 + y.1, y.2)

/-- se(v) is read, as a 32-bit value. -/
def SxeRegs.getSe (r : SxeRegs) : Nat × SxeRegs :=
  let y := r.getUe
  (unsigned 32 (if y.1 % 2 = 1 then ((y.1 + 1) / 2 : Nat) else -((y.1 / 2 : Nat) : Int)), y.2)

/-- leb128 is read; `n` bounds its bytes. -/
def SxeRegs.getLeb : Nat → SxeRegs → Nat × SxeRegs
  | 0, r => (0, r.error 1)
  | n + 1, r =>
    let y := r.get 8
    if y.1 < 128 then y
    else
      let z := SxeRegs.getLeb n y.2
      (y.1 - 128 + 128 * z.1, z.2)

/-- The reader moves to a unit; a unit of resynchronisation begins without error (R260). One above UNIT_MAX is skipped whole
(R264). -/
def SxeRegs.setUnit (r : SxeRegs) (u : UnitIn) : SxeRegs :=
  let big := decide (unitMax < u.bytes.length)
  let y := { r with unit := if big then [] else u.bytes.flatMap byteBits, unitPos := 0, last16 := 0xFFFF, unitEnd := u.ends,
                    streamPos := r.streamPos + u.taken, streamError := 0 }
  if big then y.error 0x0D else y

/-! ### One microcycle (R196) -/

/-- What a microword acts on beside the SXE: the codec, the direction, the picture's KEY, the Coupling Buffer, the stream that
waits with what ends its units and whether more may come, and two free values. -/
structure MicroEnv where
  codec : Nat
  enc : Bool
  key : Bool
  cb : CoupBuf
  stream : List Byte
  stops : List (Nat × Nat × Nat)
  closed : Bool
  freeA : Nat
  freeC : Nat
  deriving DecidableEq, Repr

/-- Register `i`; its replacement by a 32-bit value. -/
def SxeRegs.reg (r : SxeRegs) (i : Nat) : Nat := r.regs.getD i 0
def SxeRegs.setReg (r : SxeRegs) (i v : Nat) : SxeRegs := { r with regs := r.regs.set i (v % 2 ^ 32) }

/-- BIT_LEN of a microword; none when S11 gives a reserved length. -/
def SxeRegs.bitLen (r : SxeRegs) (w : BitVec 144) : Option Nat :=
  if mBitLen w = 63 then (if r.reg 11 % 64 ≤ 32 then some (r.reg 11 % 64) else none) else some (mBitLen w)

/-- The table output; a free value where no table is named. -/
def SxeRegs.table (r : SxeRegs) (e : MicroEnv) (w : BitVec 144) : Nat :=
  if mTbl w = 0 then e.freeA % 2 ^ 32 else (Config.romTable e.codec (mTbl w) (r.reg (mTblReg w))).toNat

/-- The context memory address. -/
def SxeRegs.ctxAddr (r : SxeRegs) (e : MicroEnv) (w : BitVec 144) : Nat :=
  mCtx w + if mCtxMode w = 1 then r.reg (mCtxReg w) else if mCtxMode w = 2 then r.table e w else 0

/-- PAD records at the front are passed over (R186). -/
def padCount : List (List Nat) → Nat
  | [] => 0
  | r :: l => if recOp r = 0 then padCount l + 1 else 0

/-- The published record after the current one, and its index. -/
def SxeRegs.following (r : SxeRegs) (e : MicroEnv) : Option (Nat × List Nat) :=
  let i := r.recIdx + padCount (e.cb.recs.drop r.recIdx)
  (e.cb.recs[i]?).map fun x => (i, x)

/-- Words that staged records hold. -/
def SxeRegs.stagedWords (r : SxeRegs) : Nat := (r.staged.map List.length).sum

/-- Bits that the shadow output buffer holds (R194): those pending and the staged records. -/
def Sxe.shadowBits (x : Sxe) : Nat :=
  x.sh.out.length + x.sh.open_.length - (x.com.out.length + x.com.open_.length) + 32 * x.sh.stagedWords

/-- COND of R198 after CINV. -/
def Sxe.cond (x : Sxe) (e : MicroEnv) (w : BitVec 144) : Bool :=
  let r := x.sh
  let v := match mCond w with
    | 0 => true
    | 1 => r.z
    | 2 => r.n
    | 3 => r.c
    | 4 => r.bin
    | 5 => r.cnts.getD 0 0 == 0
    | 6 => r.cnts.getD 1 0 == 0
    | 7 => r.cnts.getD 2 0 == 0
    | 8 => r.cnts.getD 3 0 == 0
    | 9 => decide (r.cur.length ≤ r.recPos)
    | 10 => (r.following e).isNone
    | 11 => !e.cb.fits r.staged
    | 12 => r.skipEpb.unit.isEmpty
    | 13 => (if e.enc then r.open_.length else r.unitPos) % 8 == 0
    | 14 => r.streamError != 0
    | 15 => r.budgetOut
    | 16 => e.enc
    | 17 => e.key
    | _ => decide (32 * 1024 * 8 * 3 < 4 * x.shadowBits)
  v != mCinv w

/-- The ALU (R196): result and carry. Shifts by more than the width, ABS of the most negative number and the carry of every
operation but ADD are free values (DEDUCED, log entry 16). -/
def alu (op a b : Nat) (e : MicroEnv) : Nat × Bool :=
  let sa := signed 32 a
  let sb := signed 32 b
  let free := e.freeA % 2 ^ 32
  let v := match op with
    | 1 => (a + b) % 2 ^ 32
    | 2 => unsigned 32 ((a : Int) - b)
    | 3 => a &&& b
    | 4 => a ||| b
    | 5 => a ^^^ b
    | 6 => if b < 32 then a * 2 ^ b % 2 ^ 32 else free
    | 7 => if b < 32 then a / 2 ^ b else free
    | 8 => if b < 32 then unsigned 32 (sa / (2 ^ b : Nat)) else free
    | 9 => unsigned 32 (min sa sb)
    | 10 => unsigned 32 (max sa sb)
    | 11 => if a = 2 ^ 31 then free else unsigned 32 sa.natAbs
    | 12 => b
    | 13 => if a = 0 then 32 else 31 - a.log2
    | 14 => unsigned 32 ((a : Int) - b)
    | _ => free
  (v, if op = 1 then decide (2 ^ 32 ≤ a + b) else e.freeC % 2 == 1)

/-- What the first half of a microcycle gives: the registers with the bit, coder and Coupling Buffer operations done, and
the values that they hand to registers and to operand B. -/
structure MicroRead where
  r : SxeRegs
  acVal : Option Nat
  bitVal : Option Nat
  cbVal : Option Nat
  deriving DecidableEq, Repr

/-- Outcome of an operation: the SXE stalls, the microword is illegal, a record is rejected, or it goes on. -/
inductive MicroOut (α : Type) where
  | stall
  | illegal
  | reject
  | ok (x : α)
  deriving DecidableEq, Repr

/-- The bit operation (R200). Writes belong to encode, reads to decode; one of the other direction is illegal (DEDUCED, log
entry 16). -/
def SxeRegs.bitOp (r : SxeRegs) (e : MicroEnv) (w : BitVec 144) : MicroOut (SxeRegs × Option Nat) :=
  let v := r.reg (mBitReg w)
  let write (l : List Bool) : MicroOut (SxeRegs × Option Nat) := if e.enc then .ok (r.put l, none) else .illegal
  let read (y : Nat × SxeRegs) : MicroOut (SxeRegs × Option Nat) :=
    if e.enc then .illegal else .ok (y.2, some (y.1 % 2 ^ 32))
  match mBit w with
  | 0 => .ok (r, none)
  | 1 => match r.bitLen w with
    | some n => write (numBits n v)
    | none => .illegal
  | 2 => write (ueBits v)
  | 3 => write (seBits (signed 32 v))
  | 4 => write (lebBits 5 v)
  | 5 => match r.bitLen w with
    | some n => read (r.get n)
    | none => .illegal
  | 6 => read r.getUe
  | 7 => read r.getSe
  | 8 => read (r.getLeb 8)
  | 9 => match r.bitLen w with
    | some n => read ((r.get n).1, r)
    | none => .illegal
  | 10 => match r.bitLen w with
    | some n => if e.enc then .illegal else .ok ((r.get n).2, none)
    | none => .illegal
  | 11 =>
    if e.enc then .ok (r.put (true :: List.replicate (toByte (r.open_.length + 1)) false), none)
    else
      let l := r.getBits r.unit.length
      .ok (if l.1.isEmpty then l.2.error r.overrun
        else if l.1.head? == some true && (l.1.drop 1).all fun b => !b then l.2 else l.2.error 0x03, none)
  | 12 =>
    if e.enc then .ok (r.put (List.replicate (toByte r.open_.length) false), none)
    else .ok ((r.get (toByte r.unitPos)).2, none)
  | 13 => .ok ({ r with epb := bit v 0 }, none)
  | _ =>
    if e.enc then .ok (r.closeUnit e.codec, none)
    else match nextUnit e.codec e.stops e.closed r.streamPos (e.stream.drop r.streamPos) with
      | none => if e.closed then .ok (r.setUnit ⟨[], 0, 0x0B⟩, none) else .stall
      | some u => .ok (r.setUnit u, none)

/-- The Coupling Buffer operation (R200): reads in encode, staged records in decode. A read past the current record goes on
with the next published one (DEDUCED, log entry 16). -/
def SxeRegs.cbOp (r : SxeRegs) (e : MicroEnv) (w : BitVec 144) : MicroOut (SxeRegs × Option Nat) :=
  match mCb w with
  | 0 => .ok (r, none)
  | 1 =>
    if !e.enc then .illegal
    else if r.recPos < r.cur.length then .ok ({ r with recPos := r.recPos + 1 }, some (recWord r.cur r.recPos))
    else match r.following e with
      | none => .stall
      | some (i, x) =>
        if (recOrder e.codec e.cb.pos (e.cb.recs.take (i + 1))).isNone then .reject
        else .ok ({ r with cur := x, recIdx := i + 1, recPos := 1 }, some (recWord x 0))
  | 2 => if e.enc then .illegal else .ok ({ r with staged := r.staged ++ [[r.reg (mCbReg w)]] }, none)
  | 3 =>
    if e.enc then .illegal
    else match r.staged.getLast? with
      | none => .illegal
      | some y => .ok ({ r with staged := r.staged.dropLast ++ [y ++ [r.reg (mCbReg w)]] }, none)
  | 4 => if e.enc then .ok ({ r with recPos := r.cur.length }, none) else .illegal
  | _ =>
    if !e.enc then .illegal
    else match r.following e with
      | none => .stall
      | some (_, x) => .ok (r, some (recWord x 0))

/-- Context memory entries `a` to `a + n - 1` replaced. -/
def putEntries : SMap Nat → Nat → List Nat → SMap Nat
  | m, _, [] => m
  | m, a, v :: r => putEntries (SMap.set (fun _ => 0) m a (v % 2 ^ 64)) (a + 1) r

/-- `n` context memory entries from `a`. -/
def SxeRegs.entries (r : SxeRegs) (a n : Nat) : List Nat := (List.range n).map fun i => SMap.get (fun _ => 0) r.ctxMem (a + i)

/-- Whether the coder of a codec has an operation in a direction (R199): context-coded, bypass and terminating bins are CABAC's,
symbols and literals AV1's (DEDUCED, log entry 16). -/
def acHas (codec : Nat) (enc : Bool) (op : Nat) : Bool :=
  if op = 11 ∨ op = 12 then true
  else if op = 13 then enc
  else (if enc then [1, 2, 3, 7, 9] else [4, 5, 6, 8, 10]).contains op && (codec == 2) == decide (7 ≤ op)

/-- An encode operation of the arithmetic coder on `n` bits or symbols (R199, R209): the state after it, the entries that it
leaves, the bits that it writes, and the bin, none where it has no single one. -/
def AcState.encOp (a : AcState) (codec op n v free : Nat) (entries : List Nat) : AcState × List Nat × List Bool × Option Bool :=
  let b := bit v 0
  let one := if n = 1 then some b else none
  match op with
  | 1 =>
    let y := a.encBin codec (entries.headD 0) b
    (y.1, [binAdapt codec (entries.headD 0) b], y.2, some b)
  | 2 =>
    let y := a.encBypasses (numBits n v)
    (y.1, [], y.2, one)
  | 3 =>
    let y := a.encTerm b
    (y.1, [], y.2, some b)
  | 7 =>
    let s := if v < n then v else free % n
    (a.encSym n s (cdfOf n entries), cdfAdapt n s entries, [], none)
  | 9 => (a.encLits (numBits n v), [], [], one)
  | 11 => (acInitEnc codec, [], [], none)
  | _ =>
    let y := a.flush codec
    (y.1, [], y.2, none)

/-- A decode operation of the arithmetic coder (R199, R209), where `l` are the bits of the unit: the state after it, the entries
that it leaves, how many bits it takes, its value, and the bin. -/
def AcState.decOp (a : AcState) (codec op n : Nat) (entries : List Nat) (l : List Bool) :
    AcState × List Nat × Nat × Nat × Option Bool :=
  match op with
  | 4 =>
    let y := a.decBin codec (entries.headD 0) l
    (y.1, [binAdapt codec (entries.headD 0) y.2.2], y.2.1, b2n y.2.2, some y.2.2)
  | 5 =>
    let y := a.decBypasses l n
    (y.1, [], n, y.2, if n = 1 then some (y.2 == 1) else none)
  | 6 =>
    let y := a.decTerm l
    (y.1, [], y.2.1, b2n y.2.2, some y.2.2)
  | 8 =>
    let y := a.decSym n (cdfOf n entries) l
    (y.1, cdfAdapt n y.2.2 entries, y.2.1, y.2.2, none)
  | 10 =>
    let y := a.decLits l n
    (y.1, [], y.2.1, y.2.2, if n = 1 then some (y.2.2 == 1) else none)
  | _ =>
    let y := acInitDec codec l
    (y.1, [], y.2, 0, none)

/-- The arithmetic-coder operation (R199, R209): an entry at or above 4,096 is illegal. BIN is the bin of an operation that codes
one, and a free value after any other (log entry 91). -/
def SxeRegs.acOp (r : SxeRegs) (e : MicroEnv) (w : BitVec 144) : MicroOut (SxeRegs × Option Nat) :=
  let op := mAc w
  let a := r.ctxAddr e w
  let sym := op == 7 || op == 8
  if op = 0 then .ok (r, none)
  else if 4096 ≤ a ∨ acHas e.codec e.enc op = false then .illegal
  else match if [2, 5, 9, 10, 12].contains op then r.bitLen w else some (if sym then mNsym w + 1 else 1) with
    | none => .illegal
    | some n =>
      let v := r.reg (mAcReg w)
      let k := if op = 1 ∨ op = 4 then 1 else if sym then ceilDiv n 4 else if op = 12 then n else 0
      let bin (b : Option Bool) : Bool := b.getD (e.freeC % 2 == 1)
      if 4096 < a + k then .illegal
      else if op = 12 then
        .ok ({ r with bin := bin none, ctxMem := putEntries r.ctxMem a ((List.range n).map fun i =>
          entryLayout e.codec (Config.initEntry e.codec (a + i) v).toNat) }, none)
      else if e.enc then
        let y := r.ac.encOp e.codec op n v e.freeA (r.entries a k)
        .ok (({ r with ac := y.1, ctxMem := putEntries r.ctxMem a y.2.1, bin := bin y.2.2.2 } : SxeRegs).put y.2.2.1, none)
      else
        let y := r.ac.decOp e.codec op n (r.entries a k) (r.getBits r.unit.length).1
        let r1 := { (r.get y.2.2.1).2 with ac := y.1, ctxMem := putEntries r.ctxMem a y.2.1, bin := bin y.2.2.2.2 }
        .ok (r1, if acWrites op then some (y.2.2.2.1 % 2 ^ 32) else none)

/-- Bit, coder and Coupling Buffer operations of a microword; each takes its register operand from before the
microcycle. -/
def SxeRegs.readOps (r : SxeRegs) (e : MicroEnv) (w : BitVec 144) : MicroOut MicroRead :=
  match r.acOp e w with
  | .stall => .stall
  | .illegal => .illegal
  | .reject => .reject
  | .ok (r1, av) => match r1.bitOp e w with
    | .stall => .stall
    | .illegal => .illegal
    | .reject => .reject
    | .ok (r2, bv) => match r2.cbOp e w with
      | .stall => .stall
      | .illegal => .illegal
      | .reject => .reject
      | .ok (r3, cv) => .ok ⟨r3, av, bv, cv⟩

/-- A register that an operation gives a value. -/
def SxeRegs.given (r : SxeRegs) (i : Nat) (v : Option Nat) : SxeRegs :=
  match v with
  | some x => r.setReg i x
  | none => r

/-- ALU, registers, counters and flags of a microword (R196 steps 2 and 3), from the registers before it. -/
def MicroRead.write (m : MicroRead) (old : SxeRegs) (e : MicroEnv) (w : BitVec 144) : SxeRegs :=
  let free := e.freeA % 2 ^ 32
  let b := match mBSel w with
    | 0 => old.reg (mSrcB w)
    | 1 => mImm w
    | 2 => old.table e w
    | _ => m.bitVal.getD free
  let y := alu (mAlu w) (old.reg (mSrcA w)) b e
  let r1 := ((m.r.given (mAcReg w) m.acVal).given (mBitReg w) m.bitVal).given (mCbReg w) m.cbVal
  let r2 := if mAlu w = 0 ∨ mAlu w = 14 then r1 else r1.setReg (mDst w) y.1
  let r3 := if mAlu w = 0 then r2 else { r2 with z := y.1 == 0, n := bit y.1 31, c := y.2 }
  let k := r3.cnts.getD (mCnt w) 0
  match mCntOp w with
  | 0 => r3
  | 1 => { r3 with cnts := r3.cnts.set (mCnt w) y.1 }
  | 2 => { r3 with cnts := r3.cnts.set (mCnt w) ((k + 2 ^ 32 - 1) % 2 ^ 32) }
  | _ => { r3 with cnts := r3.cnts.set (mCnt w) ((k + 1) % 2 ^ 32) }

/-- The sequencer (R197): the SXE after it, and the next address, none for DISPATCH. -/
def Sxe.sequence (x : Sxe) (e : MicroEnv) (w : BitVec 144) : MicroOut (Sxe × Option Nat) :=
  match mSeq w with
  | 0 => .ok (x, some (x.pc + 1))
  | 1 => .ok (x, some (mNext w))
  | 2 => .ok (x, some (if x.cond e w then mNext w else x.pc + 1))
  | 3 => if 8 ≤ x.stack.length then .illegal else .ok ({ x with stack := (x.pc + 1) :: x.stack }, some (mNext w))
  | 4 => match x.stack with
    | [] => .illegal
    | a :: r => .ok ({ x with stack := r }, some a)
  | 5 => .ok (x, none)
  | _ =>
    let c := x.sh.cnts.getD 0 0
    if c = 0 then .ok (x, some (x.pc + 1))
    else .ok ({ x with sh := { x.sh with cnts := x.sh.cnts.set 0 (c - 1) } }, some (mNext w))

/-! ### The commit point (R204, R205) -/

/-- What a microword that issues leaves: the SXE, the next address, none for DISPATCH, the Coupling Buffer, and the records that a
COMMIT has consumed or published. -/
structure MicroDone where
  sxe : Sxe
  next : Option Nat
  cb : CoupBuf
  gone : List (List Nat)
  deriving DecidableEq, Repr

/-- Published records that a COMMIT passes in encode: with nothing read of the dispatched record, those before it. -/
def SxeRegs.passed (r : SxeRegs) : Nat := if r.recPos = 0 then r.recIdx - 1 else r.recIdx

/-- Records that a COMMIT consumes, or publishes. -/
def SxeRegs.gone (r : SxeRegs) (e : MicroEnv) : List (List Nat) := if e.enc then e.cb.recs.take r.passed else r.staged

/-- The OPCODE of the last record that is no PAD. -/
def lastOp (l : List (List Nat)) : Option Nat := ((l.filter fun r => recOp r != 0).getLast?).map recOp

/-- COMMIT (R204, R213): shadow state becomes committed, the read position advances or staged records are published, and a
ROW_END has its row's bits counted. -/
def Sxe.commit (x : Sxe) (e : MicroEnv) : MicroDone :=
  let gone := x.sh.gone e
  let cb := if e.enc then e.cb.consume x.sh.passed ((recOrder e.codec e.cb.pos gone).getD e.cb.pos) else e.cb.publish gone
  let r := { x.sh with staged := [], recIdx := x.sh.recIdx - x.sh.passed }
  let ends := e.enc && countOp 0x09 gone != 0
  { sxe := { x with com := r, sh := r, committed := true, faults := 0, issued := 0,
                    rowEnd := match lastOp gone with
                      | some o => o == 0x09
                      | none => x.rowEnd,
                    rowBits := if ends then (r.written : Int) - x.rowFrom else x.rowBits,
                    rowFrom := if ends then r.written else x.rowFrom },
    next := none, cb := cb, gone := gone }

/-- One microword acts on shadow state (R196, R205): illegal by its encoding, by the interval it stands in, by a second
COMMIT, a DISPATCH without one (DEDUCED, log entry 16), a shadow output buffer that overflows, or a next address that cannot be
fetched; a COMMIT inside a record is illegal, and one whose staged records do not fit stalls (R204). After COMMIT it acts on committed
state. -/
def Sxe.micro (x : Sxe) (e : MicroEnv) (p : Option Patch) (w : BitVec 144) : MicroOut MicroDone :=
  if mIllegal w || (x.committed && (mPostBad w x.pc || mCommit w)) ||
      (mSeq w == 5 && !x.committed && !mCommit w) then .illegal
  else if mWait w && !x.cond e w then .stall
  else match x.sh.readOps e w with
    | .stall => .stall
    | .illegal => .illegal
    | .reject => .reject
    | .ok m =>
      let y := { x with sh := m.write x.sh e w }
      if 32 * 1024 * 8 < y.shadowBits then .illegal
      else if mCommit w && e.enc && y.sh.recPos != 0 && y.sh.recPos != y.sh.cur.length then .illegal
      else if mCommit w && !e.enc && !e.cb.fits y.sh.staged then .stall
      else
        let c := if mCommit w then y.commit e else ⟨y, none, e.cb, []⟩
        match c.sxe.sequence { e with cb := c.cb } w with
        | .stall => .stall
        | .illegal => .illegal
        | .reject => .reject
        | .ok (z, next) =>
          let z1 := if z.committed then { z with com := z.sh } else z
          match next with
          | none => .ok { c with sxe := z1 }
          | some a => if redirect p a < 0x2400 then .ok { c with sxe := z1, next := some (redirect p a) } else .illegal

/-! ### The pair's Syntax Engine in the device -/

def Dev.setSxe (d : Dev) (k : Nat) (x : Sxe) : Dev := d.setPair k { d.pair k with sxe := x }

/-- The running picture that pair `k` works on. -/
def Dev.pairJob (d : Dev) (k c : Nat) : Option Job :=
  (d.tile (k / 16)).jobs.find? fun j => j.ctx == c && j.running

/-- What the microword of pair `k` acts on. -/
def Dev.microEnv (d : Dev) (k c : Nat) (x : Ctx) : MicroEnv :=
  { codec := x.codec, enc := x.kind == 1, key := (d.pairJob k c).any Job.key, cb := (d.pair k).cb,
    stream := if x.kind = 1 then [] else d.streamBytes c x, stops := if x.kind = 1 then [] else d.streamStops c x,
    closed := d.streamClosed c x, freeA := d.freeNat, freeC := Config.freeValue (d.freeCtr + 1) }

/-- The SXE makes its context FAILED (R207). -/
def Dev.sxeFail (d : Dev) (k c addr detail : Nat) : Dev :=
  let t := k / 16
  ((d.setEvent (Reg.SXE_EVENTS t) 3).raise (72 + 32 * t + 2) (sxeInfo k c addr (d.pair k).sxe.entry false)).ctxFail
    c 7 detail none

/-- The entry state of a routine (R194): committed state, S0 the dispatch word, S1 to S11 zero, flags zero; in encode the Coupling
Buffer is read from the header of the dispatched record, which is the oldest. -/
def Sxe.enter (x : Sxe) (cb : CoupBuf) (enc : Bool) : Sxe :=
  { x with sh := { x.com with regs := x.word :: List.replicate 11 0 ++ x.com.regs.drop 12, z := false, n := false,
                              c := false, bin := false, staged := [], errs := [],
                              cur := if enc then cb.recs.headD [] else [], recIdx := b2n enc, recPos := 0 },
           stack := [], pc := x.entry, issued := 0, committed := false, running := true }

/-- Whether a context encodes. -/
def Dev.encodes (d : Dev) (c : Nat) : Bool := (d.ctx c).any fun x => x.kind == 1

/-- A fault on a running routine (R206, R207): restarted up to three times before COMMIT. -/
def Dev.sxeFault (d : Dev) (k c : Nat) (events : Nat) : Dev :=
  let t := k / 16
  let x := (d.pair k).sxe
  if x.committed then d.sxeFail k c x.pc 0x10
  else if 3 ≤ x.faults then d.sxeFail k c x.pc 0x11
  else
    let y := { x with faults := x.faults + 1 }.enter (d.pair k).cb (d.encodes c)
    let d1 := (d.setSxe k y).setEvents (Reg.SXE_EVENTS t) events
    (d1.countFld (Reg.SXE_RESTARTS t) 31 16 1).raise (72 + 32 * t + 1) (sxeInfo k c x.pc x.entry true)

/-- Whether an SXE with STOP held parks at this DISPATCH (R208). -/
def Pair.parks (p : Pair) : Bool := p.sxe.stop && !p.sxe.running && p.sxe.rowEnd && p.cb.recs.isEmpty

/-- The SXE of pair `k` parks if it must. -/
def Dev.park (d : Dev) (k : Nat) : Dev :=
  let p := d.pair k
  if p.parks then d.setSxe k { p.sxe with parked := true } else d

/-- What a COMMIT does in encode beyond the pair: the bits appended are the running picture's, and each ROW_END reports its row's
bits to rate control (R204, R207, R213). -/
def Dev.commitEncode (d : Dev) (k c : Nat) (before : Nat) (m : MicroDone) : Dev :=
  let r := m.sxe.com
  let n := countOp 0x09 m.gone
  let i := (d.pair k).region
  let d1 := match d.ctx c with
    | none => d
    | some x =>
      d.setCtx c { x with bits := x.bits + (r.out.length + r.open_.length - before),
                          coded := SMap.insert x.coded i (r.open_ ++ r.out) }
  if n = 0 then d1
  else d1.mapJob (k / 16) c fun j => j.mapRegion i fun g =>
    { g with acts := g.acts ++ m.sxe.rowBits.toNat :: List.replicate (n - 1) 0 }

/-- What a COMMIT does in decode beyond the pair: it records the errors found; before PIC_START the picture-level parameters are in
the region's parameter block (R220), and the work budget starts with BUDGET_PPX sampled (R259); a region whose budget is spent
ends (R259). -/
def Dev.commitDecode (d : Dev) (k c : Nat) (e : MicroEnv) (m : MicroDone) : Dev :=
  let p := d.pair k
  let x := { p.sxe with com := { p.sxe.com with errs := [] }, sh := { p.sxe.sh with errs := [] } }
  let d1 := d.foundErrors c m.sxe.com.errs
  let starts := countOp 0x01 m.gone != 0
  let y := if starts then { x with used := 0, ppx := d.fld (Reg.DEC_CTRL (k / 16)) 25 16 } else x
  let d2 := d1.setSxe k (if y.com.budgetOut then { y with running := false } else y)
  let d3 := match d2.ctx c with
    | none => d2
    | some z =>
      if starts then
        d2.setCtx c { z with dec := { z.dec with
          params := SMap.insert z.dec.params p.region (Config.paramBlock e.codec (e.stream.take m.sxe.com.streamPos)) } }
      else d2
  if y.com.budgetOut && m.cb.recs.isEmpty then d3.endRegion k c else d3

/-- The SXE takes its next routine (R201): the entry's address, and the dispatch word. An entry that no fetch can reach is invalid
(R203). -/
def Dev.enterRoutine (d : Dev) (k c : Nat) (e : MicroEnv) (op word : Nat) (x : Sxe) : Dev :=
  match bookTarget (d.patchOf k) e.enc e.codec op with
  | none => d.sxeFail k c x.pc 0x12
  | some a =>
    let a1 := redirect (d.patchOf k) a
    if 0x2400 ≤ a1 then d.sxeFail k c x.pc 0x12
    else d.setSxe k ({ x with entry := a1, word := word, faults := 0 }.enter (d.pair k).cb e.enc)

/-- No further unit comes for a region: what none covered is concealed, and the region's work is done (R263). -/
def Dev.uncovered (d : Dev) (k c : Nat) : Dev :=
  match d.ctx c with
  | none => d
  | some x => (d.foundErrors c [((d.pair k).sxe.com.streamPos - 1, x.dec.missing)]).endRegion k c

/-- DISPATCH in decode (R201, R202, R208), while no routine runs: parsing goes on within the unit, or at the next one. The region's
work is done once its PIC_END is published, and with STOP held no row begins. -/
def Dev.dispatchDecode (d : Dev) (k c : Nat) (e : MicroEnv) : Dev :=
  let x := (d.pair k).sxe
  if x.stop && x.rowEnd then d.park k
  else if x.com.budgetOut then (if e.cb.recs.isEmpty then d.endRegion k c else d)
  else if countOp 0x0A e.cb.recs != 0 then d
  else if bit (x.com.reg 15) 8 then
    let op := x.com.reg 15 % 256
    let com := x.com.setReg 15 (x.com.reg 15 - 256)
    d.enterRoutine k c e op op { x with com := com }
  else match nextUnit e.codec e.stops e.closed x.com.streamPos (e.stream.drop x.com.streamPos) with
    | none => if e.closed && e.cb.recs.isEmpty then d.uncovered k c else d
    | some u =>
      let com := x.com.setUnit u
      let y := { x with com := { com with errs := [] }, sh := { com with errs := [] } }
      let op := unitOpcode e.codec u.bytes
      if unitMax < u.bytes.length ∨ skipsUnit (d.patchOf k) e.codec op then (d.setSxe k y).foundErrors c com.errs
      else d.enterRoutine k c e op op y

/-- DISPATCH (R201), while no routine runs. -/
def Dev.dispatchRoutine (d : Dev) (k c : Nat) (e : MicroEnv) : Dev :=
  if e.enc then
    let cb := e.cb.consume (padCount e.cb.recs) e.cb.pos
    match cb.recs with
    | [] => (d.setCb k cb).park k
    | r :: _ =>
      if (recOrder e.codec cb.pos [r]).isNone then d.rejectRecord k c
      else (d.setCb k cb).enterRoutine k c e (recOp r) (recWord r 0) (d.pair k).sxe
  else d.dispatchDecode k c e

/-- The watchdog limit of a tile in microwords (R206). -/
def Dev.watchdogLimit (d : Dev) (t : Nat) : Nat := 2 ^ d.fld (Reg.SXE_CTRL t) 12 8

/-- Luma samples of a region of the picture that a decode context runs. -/
def Dev.regionLuma (d : Dev) (k c : Nat) (x : Ctx) : Nat :=
  if x.regions ≤ 1 then x.width * x.height
  else min (x.width * x.height) (Config.regionSamples x.codec (d.streamBytes c x) (d.pair k).region)

/-- The work budget of the region that pair `k` decodes, in microcycles (R246). -/
def Dev.workBudget (d : Dev) (k c : Nat) (x : Ctx) : Nat := d.regionLuma k c x * (d.pair k).sxe.ppx / 16 + 65536

/-- Whether a region has spent its work budget (R259): counted from its PIC_START. -/
def Dev.budgetSpent (d : Dev) (k c : Nat) (x : Ctx) : Bool :=
  let y := (d.pair k).sxe
  x.kind == 0 && y.ppx != 0 && decide (d.workBudget k c x ≤ y.used)

/-- The routine has reached its DISPATCH. In encode the unit that a PIC_END leaves open closes, and the region's work is done. -/
def Dev.endRoutine (d : Dev) (k c : Nat) (e : MicroEnv) : Dev :=
  let p := d.pair k
  let x := { p.sxe with committed := false, stack := [], running := false }
  if e.enc && p.cb.pos.stage == 7 then
    let r := x.com.closeUnit e.codec
    let d1 := match d.ctx c with
      | none => d
      | some y => d.setCtx c { y with bits := y.bits + (r.out.length - (x.com.out.length + x.com.open_.length)),
                                      coded := SMap.insert y.coded p.region r.out }
    (d1.setSxe k { x with com := r, sh := r }).endRegion k c
  else (d.setSxe k x).park k

/-- One microword of a running routine. `err` is what the fetch and the memories report in its microcycle: 0 nothing, 1 a
corrected error of context memory, otherwise a parity or uncorrectable error, which wins over a COMMIT (R204, R206). -/
def Dev.issue (d : Dev) (k c : Nat) (e : MicroEnv) (err : Nat) : Dev :=
  let x := (d.pair k).sxe
  let w := fetchWord (d.patchOf k) x.pc
  let t := k / 16
  let d0 := (d.useFree.useFree).pmPair k c 0x11 1
  let d1 := d0.setSxe k { x with used := x.used + 1 }
  if 2 ≤ err then d1.sxeFault k c 2
  else
    let d2 := if err = 1 then d1.raise (72 + 32 * t + 1) (sxeInfo k c x.pc x.entry false) else d1
    match { x with used := x.used + 1 }.micro e (d.patchOf k) w with
    | .stall => d
    | .illegal => d2.sxeFault k c 2
    | .reject => d2.rejectRecord k c
    | .ok m =>
      let y := if m.sxe.committed then m.sxe else { m.sxe with issued := m.sxe.issued + 1 }
      let d3 := (d2.setSxe k { y with pc := m.next.getD y.pc }).setCb k m.cb
      let d4 := if !mCommit w then d3
        else if e.enc then d3.commitEncode k c (x.com.out.length + x.com.open_.length) m
        else d3.commitDecode k c e m
      if m.next.isNone && (d4.pair k).ctx == some c then d4.endRoutine k c e else d4

/-! ### Meanings -/

/-- MICROWORD (R196, R201): the SXE of a pair that holds a region dispatches, if no routine runs, and issues one microword.
A routine at the watchdog limit issues none, nor does one of a region whose work budget is spent before BUDGET_OUT is set. -/
def execMicroword (tile pair err : Nat) (s : State) : Host.Outcome State Fault Refusal :=
  s.act fun d =>
    let k := 16 * tile + pair
    match (d.pair k).ctx with
    | none => d
    | some c => match d.ctx c with
      | none => d
      | some x =>
        if 4 ≤ tile ∨ 16 ≤ pair ∨ (d.tile tile).stopped ∨ (d.pair k).sxe.parked ∨
            (d.budgetSpent k c x && !(d.pair k).sxe.com.budgetOut) then d
        else
          let d1 := if (d.pair k).sxe.running then d else d.dispatchRoutine k c (d.microEnv k c x)
          let y := (d1.pair k).sxe
          if (d1.pair k).ctx = some c ∧ y.running ∧ (y.committed ∨ y.issued < d.watchdogLimit tile) then
            d1.issue k c (d1.microEnv k c x) err
          else d1

/-- PREEMPTION_REQUEST (R205, R206, R208): STOP is held; a routine before its COMMIT is abandoned and restarted. -/
def execPreemptionRequest (tile pair : Nat) (s : State) : Host.Outcome State Fault Refusal :=
  s.act fun d =>
    let k := 16 * tile + pair
    let p := d.pair k
    match p.ctx with
    | none => d
    | some c =>
      if 4 ≤ tile ∨ 16 ≤ pair then d
      else
        let x := { p.sxe with stop := true }
        let d1 := d.setPair k { p with preempt := true }
        if x.running && !x.committed then
          ((d1.setSxe k (x.enter p.cb (d.encodes c))).setEvent (Reg.SXE_EVENTS tile) 0).countFld (Reg.SXE_RESTARTS tile) 15 0 1
        else (d1.setSxe k x).park k

/-- ROUTINE_WATCHDOG (R206): a routine has reached the limit without COMMIT. -/
def execRoutineWatchdog (tile pair : Nat) (s : State) : Host.Outcome State Fault Refusal :=
  s.act fun d =>
    let k := 16 * tile + pair
    let x := (d.pair k).sxe
    match (d.pair k).ctx with
    | none => d
    | some c =>
      if x.running && !x.committed && decide (d.watchdogLimit tile ≤ x.issued) then
        (d.setEvent (Reg.SXE_EVENTS tile) 2).sxeFault k c 2
      else d

/-- BUDGET_OUT (R259): the work budget of a region is spent; it ends with reason BUDGET once its routine has reached its commit point,
at once where no routine runs before its commit and no record waits. -/
def execBudgetOut (ctx region : Nat) (s : State) : Host.Outcome State Fault Refusal :=
  s.act fun d =>
    match d.ctx ctx with
    | none => d
    | some x => match (d.tile x.tile).jobs.find? fun j => j.ctx == ctx && j.running with
      | none => d
      | some j => match (j.regions.find? fun g => g.idx == region).bind Region.pair with
        | none => d
        | some k =>
          if d.budgetSpent k ctx x = false ∨ (d.pair k).sxe.com.budgetOut then d
          else
            let y := (d.pair k).sxe
            let z := { y with com := { y.com with budgetOut := true }, sh := { y.sh with budgetOut := true } }
            let d1 := (d.setSxe k z).foundErrors ctx [(y.com.streamPos - 1, 0x08)]
            if !y.running && (d.pair k).cb.recs.isEmpty then d1.endRegion k ctx else d1

end Sys2Proof.Machine
end

