-- ==== Sys2Proof/Machine/PatchOps.lean ====
section
/-! DEFINITION. Microcode patches (spec/08_syntax_engines.md R214-R218) and firmware images (spec/21_management_security.md
R484-R489): their layout, their checks, and the meanings LOAD_PATCH, PATCH_TAKE, FW_ACTIVATE and SMB_FW_ACTIVATE. -/

namespace Sys2Proof.Machine

def stPatchSig : Nat := 0x0120
def stPatchRollback : Nat := 0x0121
def stPatchCheck : Nat := 0x0122
def stPatchBusy : Nat := 0x0123

/-! ### The image (R214) -/

def patchCounts (b : List Byte) : Nat × Nat × Nat := (recNum b 16 2, recNum b 18 2, recNum b 20 2)

/-- BODY_BYTES that the counts give. -/
def patchBody (b : List Byte) : Nat :=
  let c := patchCounts b
  18 * c.1 + 4 * c.2.1 + 8 * c.2.2

/-- Whether bytes `k` to `k + n - 1` are 0. -/
def zeroBytes (b : List Byte) (k n : Nat) : Bool := ((b.drop k).take n).all (· == 0)

/-- The header check of R216 but for ABI_VERSION; `n` is BYTES. -/
def patchHeader (b : List Byte) (n level : Nat) : Bool :=
  let c := patchCounts b
  recNum b 0 4 == 0x504D5844 && recNum b 6 2 == 64 && recNum b 8 4 != 0 && decide (c.1 ≤ 1024) && decide (c.2.1 ≤ 32) &&
  decide (c.2.2 ≤ 1024) && (recNum b 4 2 == 2 || c.2.2 == 0) && recNum b 22 1 == level && zeroBytes b 23 1 &&
  zeroBytes b 28 36 && recNum b 24 4 == patchBody b && n == 64 + patchBody b + 512 &&
  (List.range c.2.1).all (fun i => let m := recNum b (64 + 18 * c.1 + 4 * i) 4
    bits m 15 13 == 0 && bits m 30 26 == 0 && bit m 31) &&
  (List.range c.2.2).all (fun i => let k := 64 + 18 * c.1 + 4 * c.2.1 + 8 * i
    decide (recNum b k 1 ≤ 3) && zeroBytes b (k + 2) 2 && bits (recNum b (k + 4) 4) 29 28 == 0)

/-- The patch that an image holds. -/
def patchOfImage (b : List Byte) : Patch :=
  let c := patchCounts b
  { id := recNum b 8 4,
    words := (List.range c.1).map fun i => BitVec.ofNat 144 (recNum b (64 + 18 * i) 18),
    matches_ := (List.range c.2.1).map fun i => let m := recNum b (64 + 18 * c.1 + 4 * i) 4
      (bits m 12 0, bits m 25 16),
    book := (List.range c.2.2).map fun i => let k := 64 + 18 * c.1 + 4 * c.2.1 + 8 * i
      (recNum b k 1, recNum b (k + 1) 1, recNum b (k + 4) 4) }

/-! ### The checks of R215 -/

/-- The addresses that hold words under a patch. -/
def Patch.store (p : Patch) : List Nat := List.range 0x2000 ++ (List.range p.words.length).map (0x2000 + ·)

def Patch.word (p : Patch) (a : Nat) : BitVec 144 := fetchWord (some p) a
def Patch.goes (p : Patch) (a : Nat) : Nat := redirect (some p) a

/-- Check 1: the first word that is illegal. -/
def Patch.check1 (p : Patch) : Option Nat := p.store.find? fun a => mIllegal (p.word a)

/-- Every Signal Book entry's two addresses, with VALID or without, and those that are valid. -/
def Patch.entries (p : Patch) : List Nat :=
  (List.range 1024).flatMap fun i => let e := bookEntry (some p) (i / 256) (i % 256)
    [bits e 13 0, bits e 27 14]
def Patch.validEntries (p : Patch) : List Nat :=
  (List.range 1024).flatMap fun i => let e := bookEntry (some p) (i / 256) (i % 256)
    (if bit e 31 then [p.goes (bits e 13 0)] else []) ++ if bit e 30 then [p.goes (bits e 27 14)] else []

/-- Check 2: the first address that lies outside, or the ROM address that two match registers hold. -/
def Patch.check2 (p : Patch) : Option Nat :=
  match p.store.find? fun a => decide (0x2400 ≤ mNext (p.word a)) with
  | some a => some a
  | none => match p.entries.find? fun a => decide (0x2400 ≤ a) with
    | some a => some a
    | none => match p.matches_.find? fun m => decide (p.words.length ≤ m.2) with
      | some m => some m.1
      | none => if distinct (p.matches_.map Prod.fst) then none else (p.matches_.head?).map Prod.fst

/-- The words that may follow a word within its routine; a CALL goes on behind it. -/
def Patch.succ (p : Patch) (a : Nat) : List Nat :=
  let w := p.word a
  match mSeq w with
  | 0 => [p.goes (a + 1)]
  | 1 => [p.goes (mNext w)]
  | 2 => [p.goes (mNext w), p.goes (a + 1)]
  | 3 => [p.goes (a + 1)]
  | 6 => [p.goes (mNext w), p.goes (a + 1)]
  | _ => []

/-- The words within reach of some words, without entering subroutines; `n` bounds the rounds. -/
def Patch.reach (p : Patch) : Nat → List Nat → List Nat
  | 0, l => l
  | n + 1, l =>
    let new := ((l.flatMap p.succ).filter fun a => !l.contains a).eraseDups
    if new.isEmpty then l else p.reach n (l ++ new)

/-- The words of a routine or subroutine, and the subroutines that some words call. -/
def Patch.body (p : Patch) (a : Nat) : List Nat := p.reach 0x2400 [a]
def Patch.calls (p : Patch) (l : List Nat) : List Nat :=
  ((l.filter fun a => mSeq (p.word a) == 3).map fun a => p.goes (mNext (p.word a))).eraseDups

/-- Whether `n` call stack levels are enough from `a`; a cycle needs more than any number. -/
def Patch.levelsOk (p : Patch) : Nat → Nat → Bool
  | 0, a => (p.calls (p.body a)).isEmpty
  | n + 1, a => (p.calls (p.body a)).all fun b => p.levelsOk n b

/-- Check 3, over the whole call graph: the first entry, or word that calls, from which more than 8 levels are needed. -/
def Patch.check3 (p : Patch) : Option Nat :=
  (p.validEntries.find? fun a => !p.levelsOk 8 a).or
    (p.store.find? fun a => mSeq (p.word a) == 3 && !p.levelsOk 7 (p.goes (mNext (p.word a))))

/-- Words within reach, with whether COMMIT has passed: (address, committed) as 2 × address + committed. -/
def Patch.step2 (p : Patch) (x : Nat) : List Nat :=
  let c := b2n (x % 2 == 1 || mCommit (p.word (x / 2)))
  (p.succ (x / 2)).map fun a => 2 * a + c
def Patch.reach2 (p : Patch) : Nat → List Nat → List Nat
  | 0, l => l
  | n + 1, l =>
    let new := ((l.flatMap p.step2).filter fun a => !l.contains a).eraseDups
    if new.isEmpty then l else p.reach2 n (l ++ new)

/-- A word that breaks check 4 on a path: a second COMMIT, a DISPATCH without one, or a RET outside a subroutine. -/
def Patch.bad4 (p : Patch) (x : Nat) : Bool :=
  let w := p.word (x / 2)
  (x % 2 == 1 && mCommit w) || (mSeq w == 5 && x % 2 == 0 && !mCommit w) || mSeq w == 4

/-- Check 4. -/
def Patch.check4 (p : Patch) : Option Nat :=
  match ((p.validEntries.flatMap fun a => p.reach2 0x4800 [2 * a]).find? p.bad4).map (· / 2) with
  | some a => some a
  | none =>
    let subs := (List.range 8).foldl (fun l _ => (l ++ (l.flatMap fun a => p.calls (p.body a))).eraseDups)
      (p.validEntries.flatMap fun a => p.calls (p.body a)).eraseDups
    (subs.flatMap p.body).find? fun a => mCommit (p.word a) || mSeq (p.word a) == 5

/-- Whether every path from `a`, after COMMIT, obeys R205 and reaches DISPATCH within `n` words. -/
def Patch.postOk (p : Patch) : Nat → Nat → Bool
  | 0, _ => false
  | n + 1, a =>
    !mPostBad (p.word a) a && (mSeq (p.word a) == 5 || (p.succ a).all fun b => p.postOk n b)

/-- The words that execute next after a COMMIT word: a subroutine that it calls is part of the path. -/
def Patch.after (p : Patch) (a : Nat) : List Nat := if mSeq (p.word a) = 3 then [p.goes (mNext (p.word a))] else p.succ a

/-- Check 5: the first COMMIT word with a path that breaks it. -/
def Patch.check5 (p : Patch) : Option Nat :=
  (p.validEntries.flatMap p.body).find? fun a =>
    mCommit (p.word a) && mSeq (p.word a) != 5 && !((p.after a).all fun b => p.postOk 256 b)

/-- The first check that fails, with a micro-address (R215, R217; DEDUCED, log entry 17). -/
def Patch.failed (p : Patch) : Option (Nat × Nat) :=
  ([p.check1, p.check2, p.check3, p.check4, p.check5].zipIdx.findSome? fun c => c.1.map fun a => (c.2 + 1, a))

/-! ### Taking a patch (R218) -/

/-- Tiles whose SXEs have all taken the new patch show its number; when every one has, LOAD_PATCH completes. A patch of
nothing is ROM only. -/
def Dev.patchProgress (d : Dev) : Dev :=
  match d.media.newPatch with
  | none => d
  | some (op, p) =>
    let id := if p.words.isEmpty && p.matches_.isEmpty && p.book.isEmpty then 0 else p.id
    let d1 := (List.range 4).foldl (fun e t =>
      if d.media.oldPatch.any fun k => k / 16 == t then e else e.setReg (Reg.SXE_PATCH t) id) d
    if d.media.oldPatch.isEmpty then
      let d2 := { d1 with media := { d1.media with patch := some p, newPatch := none } }
      ((List.range 4).foldl (fun e t => e.setEvent (Reg.SXE_EVENTS t) 4) d2).finish op ⟨stOk, 0, 0, p.id⟩
    else d1

/-- Pairs that hold a region. -/
def Dev.busyPairs (d : Dev) : List Nat := (List.range 64).filter fun k => (d.pair k).ctx.isSome

/-- The least patch SECURITY_VERSION and the verdict on an image whose signature is not at issue: status, DETAIL and
AUX. -/
def Dev.patchVerdict (d : Dev) (b : List Byte) : Nat × Nat × Nat :=
  if recNum b 12 4 < d.mgmt.minPatchSv then (stPatchRollback, 0, 0)
  else match (patchOfImage b).failed with
    | some (k, a) => (stPatchCheck, k, a)
    | none => (0, 0, 0)

/-- LOAD_PATCH (R216, R217): the checks in their order, then every idle SXE takes the patch. -/
def execLoadPatch (o : RingOp) (s : State) : Host.Outcome State Fault Refusal :=
  s.act fun d => d.runAdminLater o (fun op => op.fn == 0 && levelOne op) (fun x => noLength x && zeroAt x 20 44) fun e op =>
    let a := Desc.le op.desc 8 8
    let n := Desc.le op.desc 16 4
    let b := e.dataRead a (min n (64 + 26752 + 512))
    let fail (st k aux : Nat) : Dev × Option Result := (e, some ⟨st, 0, k, aux⟩)
    if e.media.newPatch.isSome then fail stPatchBusy 0 0
    else if dataSpace < a + n then fail stMalformed 0 0
    else if e.readStatus a n ≠ 0 then (e.poisonRead a n, some (resOf (e.readStatus a n)))
    else if recNum b 4 2 ≠ 1 ∧ recNum b 4 2 ≠ 2 then fail stVersion 0 0
    else if !patchHeader b n (e.fld (Reg.BLK_ID 36) 7 0) then fail stMalformed 0 0
    else if !Config.verify (Config.fusedKey 1) (b.take (n - 512)) (b.drop (n - 512)) then fail stPatchSig 0 0
    else
      let v := e.patchVerdict b
      if v.1 ≠ 0 then fail v.1 v.2.1 v.2.2
      else
        let e1 := { e with media := { e.media with newPatch := some (op.id, patchOfImage b), oldPatch := e.busyPairs } }
        ((e1.extend 2 (digest b)).patchProgress, none)

/-- PATCH_TAKE (R218): an SXE that is between two regions takes the new patch. -/
def execPatchTake (tile pair : Nat) (s : State) : Host.Outcome State Fault Refusal :=
  s.act fun d =>
    let k := 16 * tile + pair
    if d.media.oldPatch.contains k && (d.pair k).ctx.isNone then
      ({ d with media := { d.media with oldPatch := d.media.oldPatch.filter (· != k) } }).patchProgress
    else d

/-! ### Firmware images (R484-R489) -/

/-- The patch image embedded in a slot's image; empty for none. -/
def FwSlot.patchImage (x : FwSlot) : List Byte :=
  let h := x.read 0 128
  if recNum h 28 4 = 0 then [] else x.read (128 + recNum h 24 4) (recNum h 28 4)

/-- What R484 says of a slot: 0, SIG_FAIL or ROLLBACK. A bad header, a reserved byte that is not 0 (R8) or a bad embedded
patch counts as SIG_FAIL, and an embedded
patch below its least version as ROLLBACK. -/
def Dev.fwCheck (d : Dev) (x : FwSlot) : Nat :=
  let h := x.read 0 128
  let n := recNum h 20 4
  let b := x.patchImage
  if recNum h 0 4 ≠ 0x57465844 ∨ recNum h 4 2 ≠ 1 ∨ recNum h 6 2 ≠ 128 ∨ 64 < recNum h 12 1 ∨ recNum h 13 3 ≠ 0 ∨
      recNum h 32 96 ≠ 0 ∨ 3670016 < n then stSigFail
  else if !Config.verify (Config.fusedKey 0) (x.read 0 (128 + n)) (x.read (128 + n) 512) then stSigFail
  else if recNum h 12 1 < d.mgmt.fuses then stRollback
  else if b.isEmpty then 0
  else if !patchHeader b b.length (d.fld (Reg.BLK_ID 36) 7 0) || !(recNum b 4 2 == 1 || recNum b 4 2 == 2) then stSigFail
  else if recNum b 12 4 < recNum h 16 4 then stRollback
  else if (patchOfImage b).failed.isSome then stSigFail
  else 0

/-- The inactive slot is checked and becomes TRIAL with 3 attempts (R487, R488). -/
def Dev.fwActivate (d : Dev) : Dev × Nat :=
  let x := d.inactive
  let st := d.fwCheck x
  if st = 0 then (d.setInactive { x with state := 2, tries := 3 }, stOk) else (d, st)

/-- FW_ACTIVATE (R488). -/
def execFwActivate (o : RingOp) (s : State) : Host.Outcome State Fault Refusal :=
  s.act fun d => d.runAdmin o levelOne noFields fun e _ =>
    let y := e.fwActivate
    (y.1, resOf y.2)

/-- SMB_FW_ACTIVATE (R489): port 0, byte 0; the result reads in command 0x10. -/
def execSmbFwActivate (port b : Nat) (s : State) : Host.Outcome State Fault Refusal :=
  s.keep fun d =>
    if port = 0 ∧ b = 0 then
      let y := d.fwActivate
      { y.1 with mgmt := { y.1.mgmt with fwResult := y.2 } }
    else d

end Sys2Proof.Machine
end

