-- ==== Sys2Proof/Machine/ParseOps.lean ====
section
/-! DEFINITION. The Parser: headers, the key, rules and actions, the symmetric hash and fragments
(spec/13_parser_classifier.md R318-R332). -/

namespace Sys2Proof.Machine

/-! ### Headers (R318, R319) -/

/-- `n` bytes of a frame from `k`, big-endian; bytes beyond the frame read 0. -/
def frameNum (f : List Byte) (k n : Nat) : Nat :=
  (List.range n).foldl (fun v i => v * 256 + (f.getD (k + i) 0).toNat) 0

/-- The same bytes. -/
def frameBytes (f : List Byte) (k n : Nat) : List Byte := (List.range n).map fun i => f.getD (k + i) 0

/-- What the Parser has found in a frame. -/
structure Parsed where
  malformed : Bool
  depth : Bool
  tags : Nat
  etherType : Nat
  outerTag : Nat
  innerTag : Nat
  /-- 0 other, 1 IPv4, 2 IPv6 -/
  l3 : Nat
  proto : Nat
  dscp : Nat
  ttl : Nat
  /-- 0 not a fragment, 1 first, 2 not the first -/
  frag : Nat
  id : Nat
  src : List Byte
  dst : List Byte
  /-- offset of the transport header and of the end of the IP payload -/
  l4 : Nat
  stop : Nat
  ports : Option (Nat × Nat)
  flags : Nat
  /-- VNI and offset of the inner frame of a tunnel header that lies wholly in the window -/
  tunnel : Option (Nat × Nat)
  deriving DecidableEq, Repr

def isTag (t : Nat) : Bool := t == 0x88A8 || t == 0x8100

/-- A frame of which nothing is known yet. -/
def parsedNone : Parsed :=
  { malformed := false, depth := false, tags := 0, etherType := 0, outerTag := 0, innerTag := 0, l3 := 0, proto := 0,
    dscp := 0, ttl := 0, frag := 0, id := 0, src := List.replicate 16 0, dst := List.replicate 16 0, l4 := 0, stop := 0,
    ports := none, flags := 0, tunnel := none }

/-- Ethernet header and tags. -/
def parseL2 (f : List Byte) : Parsed :=
  let n := if isTag (frameNum f 12 2) then (if isTag (frameNum f 16 2) then 2 else 1) else 0
  { parsedNone with
    depth := n == 2 && isTag (frameNum f 20 2), tags := n, etherType := frameNum f (12 + 4 * n) 2,
    outerTag := if 0 < n then frameNum f 14 2 else 0, innerTag := if n = 2 then frameNum f 18 2 else 0, l4 := 14 + 4 * n }

/-- An IPv4 address in the key's 16-byte form. -/
def v4Key (f : List Byte) (k : Nat) : List Byte := frameBytes f k 4 ++ List.replicate 12 0

/-- IPv4. -/
def parseV4 (f : List Byte) (x : Parsed) : Parsed :=
  let o := x.l4
  let ihl := frameNum f o 1 % 16
  let tot := frameNum f (o + 2) 2
  let fo := frameNum f (o + 6) 2 % 8192
  let more := bit (frameNum f (o + 6) 2) 13
  let pay := tot - ihl * 4
  { x with l3 := 1, proto := frameNum f (o + 9) 1, dscp := frameNum f (o + 1) 1, ttl := frameNum f (o + 8) 1,
           frag := if fo ≠ 0 then 2 else b2n more, id := frameNum f (o + 4) 2, src := v4Key f (o + 12),
           dst := v4Key f (o + 16), l4 := o + ihl * 4, stop := o + tot,
           malformed := decide (ihl < 5) || frameNum f o 1 / 16 != 4 || decide (tot < ihl * 4) ||
             decide (f.length < o + tot) || decide (65535 < fo * 8 + pay) }

/-- IPv6 extension headers from `o`; `n` bounds how many. -/
def parseExt (f : List Byte) : Nat → Parsed → Parsed
  | 0, x => x
  | n + 1, x =>
    let o := x.l4
    if x.proto = 0 ∨ x.proto = 43 ∨ x.proto = 60 then
      let len := (frameNum f (o + 1) 1 + 1) * 8
      if f.length < o + len then { x with malformed := true }
      else parseExt f n { x with proto := frameNum f o 1, l4 := o + len }
    else if x.proto = 44 then
      if f.length < o + 8 then { x with malformed := true }
      else
        let v := frameNum f (o + 2) 2
        let y := { x with proto := frameNum f o 1, l4 := o + 8, id := frameNum f (o + 4) 4,
                          frag := if v / 8 ≠ 0 then 2 else v % 2,
                          malformed := x.malformed || decide (65535 < v / 8 * 8 + (x.stop - (o + 8))) }
        if y.frag = 2 then y else parseExt f n y
    else x

/-- IPv6. -/
def parseV6 (f : List Byte) (x : Parsed) : Parsed :=
  let o := x.l4
  let len := frameNum f (o + 4) 2
  let y := { x with l3 := 2, proto := frameNum f (o + 6) 1, dscp := frameNum f o 2 / 16 % 256,
                    ttl := frameNum f (o + 7) 1, src := frameBytes f (o + 8) 16, dst := frameBytes f (o + 24) 16,
                    l4 := o + 40, stop := o + 40 + len,
                    malformed := frameNum f o 1 / 16 != 6 || decide (f.length < o + 40 + len) }
  let z := parseExt f f.length y
  { z with depth := z.depth || decide (64 < z.l4) }

/-- VXLAN or GENEVE behind a UDP header. -/
def parseTunnel (f : List Byte) (x : Parsed) (port : Nat) : Parsed :=
  let o := x.l4 + 8
  let len := if port = 6081 then 8 + frameNum f o 1 % 64 * 4 else 8
  if port ≠ 4789 ∧ port ≠ 6081 then x
  else if port = 6081 ∧ f.length < o + len then { x with malformed := true }
  else if o + len ≤ 64 then { x with tunnel := some (frameNum f (o + 4) 3, o + len) }
  else x

/-- TCP and UDP. A datagram that is not a fragment must hold the whole header too (DEDUCED, log entry 19). -/
def parseL4 (f : List Byte) (x : Parsed) : Parsed :=
  let o := x.l4
  let n := x.stop - o
  if x.frag = 2 ∨ (x.proto ≠ 6 ∧ x.proto ≠ 17) then x
  else
    let bad := if x.proto = 6 then
        let off := frameNum f (o + 12) 1 / 16
        decide (n < 20) || decide (off < 5) || decide (n < off * 4)
      else
        let len := frameNum f (o + 4) 2
        decide (n < 8) || decide (len < 8) || (x.frag == 0 && decide (n < len))
    if 64 < o + 4 then { x with malformed := x.malformed || bad, depth := true }
    else
      let y := { x with malformed := x.malformed || bad, ports := some (frameNum f o 2, frameNum f (o + 2) 2),
                        flags := if x.proto = 6 ∧ o + 13 < 64 then frameNum f (o + 13) 1 else 0 }
      if x.proto = 17 then parseTunnel f y (frameNum f (o + 2) 2) else y

/-- The Parser over a frame without its FCS. -/
def parseFrame (f : List Byte) : Parsed :=
  let x := parseL2 f
  if x.depth then x
  else if x.etherType = 0x0800 then
    let y := parseV4 f x
    if y.malformed then y else parseL4 f y
  else if x.etherType = 0x86DD then
    let y := parseV6 f x
    if y.malformed then y else parseL4 f y
  else x

/-! ### The key and the hash (R320, R325) -/

/-- The 64-byte key: receiving port, pass, and on the second pass the VNI of the removed tunnel. -/
def keyBytes (f : List Byte) (x : Parsed) (port : Nat) (second : Bool) (vni : Nat) : List Byte :=
  let p := x.ports.getD (0, 0)
  let tun := if second then true else x.tunnel.isSome
  [BitVec.ofNat 8 (port + 128 * b2n second),
   BitVec.ofNat 8 (x.tags + 4 * b2n x.ports.isSome + 8 * b2n tun + 16 * x.frag + 64 * x.l3)] ++
  beBytes 2 x.etherType ++ beBytes 2 x.outerTag ++ beBytes 2 x.innerTag ++ frameBytes f 0 12 ++
  [BitVec.ofNat 8 x.proto, BitVec.ofNat 8 x.dscp, BitVec.ofNat 8 x.ttl, BitVec.ofNat 8 x.flags] ++ x.src ++ x.dst ++
  beBytes 2 p.1 ++ beBytes 2 p.2 ++ beBytes 3 (if second then vni else (x.tunnel.map Prod.fst).getD 0) ++ [0]

/-- HASH of a frame. -/
def hashOf (f : List Byte) (x : Parsed) : Nat :=
  let p := if x.l3 = 0 then (0, 0) else x.ports.getD (0, 0)
  let a := (if x.l3 = 0 then frameBytes f 6 6 ++ List.replicate 10 0 else x.src, p.1)
  let b := (if x.l3 = 0 then frameBytes f 0 6 ++ List.replicate 10 0 else x.dst, p.2)
  let swap := decide (beNum b.1 * 65536 + b.2 < beNum a.1 * 65536 + a.2)
  let y := if swap then (b, a) else (a, b)
  crc32 (y.1.1 ++ y.2.1 ++ beBytes 2 y.1.2 ++ beBytes 2 y.2.2 ++ [BitVec.ofNat 8 (if x.l3 = 0 then 0 else x.proto)])

/-! ### Rules and actions (R321, R322) -/

def actKind (a : Nat) : Nat := bits a 1 0
def actDest (a : Nat) : Nat := bits a 4 2
def actDecap (a : Nat) : Bool := bit a 5
def actCopySel (a : Nat) : Nat := bits a 6 6
def actValid (a : Nat) : Bool := bit a 7
def actClassTc (a : Nat) : Nat := bits a 10 8
def actPolice (a : Nat) : Nat := bits a 23 16
def actRingLog (a : Nat) : Nat := bits a 27 24
def actTarget (a : Nat) : Nat := bits a 47 32
def actQueue (a : Nat) : Nat := bits a 61 48
def actCopyTarget (a : Nat) : Nat := bits a 79 64
def actCopyQueue (a : Nat) : Nat := bits a 93 80

/-- Whether an action record keeps R322 and R330: reserved bits 0, defined encodings, fields that the action does not
use 0, NONE with a copy only, and rings up to 4,095. -/
def actionOk (a : Nat) : Bool :=
  let k := actKind a
  let dest := actDest a
  let copies := k == 2 || k == 3
  let host := k != 0 && !actDecap a && dest == 0
  let copyRing := (k == 2 && actCopySel a == 0) || (k == 3 && actCopySel a == 1)
  let copyPort := k == 3 && actCopySel a == 0
  bits a 15 11 == 0 && bits a 31 28 == 0 && bits a 63 62 == 0 && bits a 95 94 == 0 && bits a 127 96 == 0 &&
  decide (dest ≤ 4) && (dest != 4 || copies) && (copies || actCopySel a == 0) &&
  (if actDecap a then k == 1 && bits a 127 8 == 0 && dest == 0
   else if k = 0 then bits a 127 8 == 0 && dest == 0
   else true) &&
  (if host then decide (actRingLog a ≤ 8) && decide (actTarget a + 2 ^ actRingLog a ≤ 4096) else actRingLog a == 0) &&
  (if dest = 1 then bits a 46 42 == 0 else if dest = 2 ∨ dest = 4 then actTarget a == 0 else true) &&
  (dest == 3 || actQueue a == 0) &&
  (if copyRing then decide (actCopyTarget a < 4096) else copyPort || actCopyTarget a == 0) &&
  (copyPort || actCopyQueue a == 0)

/-- Whether a rule image is good (R321, R330). -/
def ruleOk (r : Rule) : Bool := r.value &&& r.mask == r.value && actionOk r.action

/-- A rule image of 144 bytes. -/
def ruleOf (b : List Byte) : Rule :=
  ⟨leNum (b.take 64), leNum ((b.drop 64).take 64), leNum ((b.drop 128).take 16)⟩

/-- A rule after reset. -/
def ruleReset : Rule := ⟨0, 0, 0⟩

/-- The lowest-numbered matching rule of a set. -/
def lookupRule (l : SMap Rule) (key : Nat) : Option (Nat × Rule) :=
  l.find? fun e => actValid e.2.action && key &&& e.2.mask == e.2.value

/-- The rules and the generation of a set. -/
def Dev.ruleSet (d : Dev) (b : Bool) : SMap Rule := if b then d.par.setB else d.par.setA
def Dev.ruleGen (d : Dev) (b : Bool) : Nat := if b then d.par.genB else d.par.genA

/-- The default action of a port (R332). -/
def Dev.portDefault (d : Dev) (p : Nat) : Nat :=
  (List.range 4).foldl (fun v j => v + d.reg (Reg.PORT_DEFAULT p j) * 2 ^ (32 * j)) 0

/-! ### The decision over a frame (R321, R327, R328, R332) -/

/-- What decides a frame: the action, the reason of a default action, the rule as the prefix gives it, generation, hash,
and whether the decision came from a rule of a set. -/
structure Decision where
  action : Nat
  reason : Nat
  rule : Nat
  gen : Nat
  hash : Nat
  hit : Option (Bool × Nat)
  decap : Bool
  deriving DecidableEq, Repr

/-- The key of the fragment table. -/
def fragKey (x : Parsed) : List Nat := [x.l3, beNum x.src, beNum x.dst, x.id, x.proto]

/-- The decision over a parsed frame in set `b` of generation `gen`. -/
def Dev.decide_ (d : Dev) (f : List Byte) (x : Parsed) (port : Nat) (second : Bool) (vni : Nat) (b : Bool) (gen : Nat) :
    Decision :=
  let h := hashOf f x
  let dflt (r : Nat) : Decision := ⟨d.portDefault port, r, 0, gen, h, none, false⟩
  if x.malformed then dflt 3
  else if x.depth then dflt 2
  else if x.frag = 2 then
    match d.par.frags.find? fun e => e.key == fragKey x with
    | some e => ⟨e.action, e.reason, e.rule, e.gen, e.hash, none, false⟩
    | none => dflt 4
  else match lookupRule (d.ruleSet b) (leNum (keyBytes f x port second vni)) with
    | none => dflt 1
    | some (i, r) =>
      let by_ (a : Nat) (dc : Bool) : Decision := ⟨a, 0, i + 32768 * b2n b, gen, h, some (b, i), dc⟩
      if !actDecap r.action then by_ r.action false
      else if x.frag = 1 then by_ 0 false
      else if second || x.tunnel.isNone then dflt 2
      else by_ r.action true

/-- Entries of the fragment table (R317). -/
def fragEntries : Nat := 2048

/-- The fragment table after a frame: a first fragment's decision is stored, a later one restarts its entry's age
(R327). -/
def Dev.fragUpdate (d : Dev) (x : Parsed) (c : Decision) : Dev :=
  let k := fragKey x
  if x.malformed || x.depth || x.frag = 0 then d
  else if x.frag = 2 then
    { d with par := { d.par with frags := d.par.frags.map fun e => if e.key = k then { e with used := d.tb.dt } else e } }
  else
    let e : FragEntry := ⟨k, c.action, c.reason, c.hash, c.rule, c.gen, d.tb.dt⟩
    if d.par.frags.any fun y => y.key == k then
      { d with par := { d.par with frags := d.par.frags.map fun y => if y.key = k then e else y } }
    else if d.par.frags.length < fragEntries then { d with par := { d.par with frags := d.par.frags ++ [e] } }
    else (d.count (Reg.PAR_COUNT 3) 1).setEvent Reg.PAR_EVENTS 1

/-- A rule's hit count. -/
def Dev.ruleHit (d : Dev) : Option (Bool × Nat) → Dev
  | none => d
  | some (b, i) =>
    { d with par := if b then { d.par with hitsB := SMap.upd (fun _ => 0) d.par.hitsB i (· + 1) }
                    else { d.par with hitsA := SMap.upd (fun _ => 0) d.par.hitsA i (· + 1) } }

/-! ### Rule sets (R329-R331) -/

/-- A set's rules replaced. -/
def Dev.setRules (d : Dev) (b : Bool) (l : SMap Rule) : Dev :=
  { d with par := if b then { d.par with setB := l } else { d.par with setA := l } }

/-- The images of a RULES_WRITE. -/
def Dev.ruleImages (d : Dev) (x : Desc) : List Rule :=
  (List.range (lengthOf x)).map fun i => ruleOf (d.hostRead (Desc.le x 16 8 + 144 * i) 144)

/-- RULES_WRITE acts with the images `l` (R330): every image is checked before any rule is written. -/
def Dev.rulesWrite (d : Dev) (x : Desc) (l : List Rule) : Dev × Result :=
  let first := Desc.field x 8 11 0
  match l.findIdx? fun r => !ruleOk r with
  | some i => (d, ⟨0x01A1, 0, first + i, 0⟩)
  | none =>
    let b := !d.par.activeB
    let base := if Desc.field x 10 0 0 = 1 then d.ruleSet d.par.activeB else d.ruleSet b
    let rules := (l.zipIdx first).foldl (fun m e => SMap.set (fun _ => ruleReset) m e.2 e.1) base
    (d.setRules b rules, ⟨stOk, lengthOf x, 0, 0⟩)

/-- Whether frames of the inactive set are in flight. -/
def Dev.inFlight (d : Dev) : Bool := d.par.recirc.any fun e => e.2.2.2.2.1 == !d.par.activeB

/-- RULES_SWAP acts (R330, R331): every parse lane is at a packet boundary between two commands. -/
def Dev.rulesSwap (d : Dev) : Dev × Result :=
  let g := wrapAdd 16 (d.ruleGen d.par.activeB) 1
  let p := { d.par with activeB := !d.par.activeB, drained := false }
  ({ d with par := if d.par.activeB then { p with genA := g } else { p with genB := g } }, ⟨stOk, 0, 0, g⟩)

/-- The operations that wait for the inactive set proceed, in order; `n` bounds how many. -/
def Dev.rulesGo (d : Dev) : Nat → Dev
  | 0 => d
  | n + 1 => match d.par.waits with
    | [] => d
    | id :: r =>
      let e := { d with par := { d.par with waits := r } }
      match d.op id with
      | none => e.rulesGo n
      | some op =>
        if opcodeOf op.desc = 0x61 then
          let y := e.rulesSwap
          (y.1.finish id y.2).rulesGo n
        else if !d.par.drained then d
        else
          let y := (e.opRead op (144 * lengthOf op.desc)).rulesWrite op.desc (e.ruleImages op.desc)
          (y.1.finish id y.2).rulesGo n

/-- The old set drains (R331). -/
def Dev.ruleSetDrained (d : Dev) : Dev :=
  if d.par.drained || d.inFlight then d
  else
    let e := ({ d with par := { d.par with drained := true } }).setEvent Reg.PAR_EVENTS 0
    e.rulesGo (e.par.waits.length)

/-! ### Meanings -/

/-- A RULES_WRITE's own format (R330). -/
def rulesFormat (x : Desc) : Bool :=
  Desc.field x 8 15 12 == 0 && decide (Desc.byte x 10 < 2) && zeroAt x 11 5 && zeroAt x 24 40 &&
  Desc.le x 16 8 % 16 == 0 && decide (Desc.field x 8 11 0 + lengthOf x ≤ 4096)

/-- RULES_WRITE (R330, R331). -/
def execRulesWrite (o : RingOp) (s : State) : Host.Outcome State Fault Refusal :=
  s.act fun d => d.runAdminLater o levelOne rulesFormat fun e op =>
    if lengthOf op.desc = 0 then (e, some (resOf stZero))
    else if e.par.drained && e.par.waits.isEmpty then
      let y := (e.opRead op (144 * lengthOf op.desc)).rulesWrite op.desc (e.ruleImages op.desc)
      (y.1, some y.2)
    else later { e with par := { e.par with waits := e.par.waits ++ [op.id] } }

/-- RULES_SWAP (R330, R331). -/
def execRulesSwap (o : RingOp) (s : State) : Host.Outcome State Fault Refusal :=
  s.act fun d => d.runAdminLater o levelOne (fun x => lengthOf x == 0 && zeroAt x 8 56) fun e op =>
    if e.par.waits.isEmpty then
      let y := e.rulesSwap
      (y.1, some y.2)
    else later { e with par := { e.par with waits := e.par.waits ++ [op.id] } }

/-- RULE_SET_DRAINED (R331). -/
def execRuleSetDrained (s : State) : Host.Outcome State Fault Refusal := s.act fun d => d.ruleSetDrained

/-- FRAGMENT_AGE_OUT (R327): 100 ms after the last fragment that used it, an entry goes. -/
def execFragmentAgeOut (i : Nat) (s : State) : Host.Outcome State Fault Refusal :=
  s.act fun d =>
    match d.par.frags[i]? with
    | none => d
    | some x =>
      let e := d.advanceTo (x.used + 100000 * unitsPerUs)
      { e with par := { e.par with frags := e.par.frags.eraseIdx i } }

end Sys2Proof.Machine
end

