-- ==== Sys2Proof/Machine/IngestOps.lean ====
section
/-! DEFINITION. The ingest demux: path merge (spec/12_ethernet_ports.md R312-R315) and the carriages
(spec/13_parser_classifier.md R335). The layouts of RTP, MPEG-2 TS, PES and ST 2110-20 are those of RFC 3550, ISO/IEC
13818-1 and SMPTE ST 2110-20 (PRESUMED, log entry 20). -/

namespace Sys2Proof.Machine

def ingestReset : Ingest :=
  { next := none, held := [], cc := none, pes := [], body := false, left := none, picTs := none, picDt := 0, segs := [],
    dupes := 0 }

def Dev.ingest (d : Dev) (s : Nat) : Ingest := SMap.get (fun _ => ingestReset) d.par.ingest s
def Dev.setIngest (d : Dev) (s : Nat) (x : Ingest) : Dev :=
  { d with par := { d.par with ingest := SMap.set (fun _ => ingestReset) d.par.ingest s x } }

/-- Fields of a stream's registers. -/
def Dev.ingCarriage (d : Dev) (s : Nat) : Nat := d.fld (Reg.INGEST_CFG0 s) 30 29
def Dev.ingOn (d : Dev) (s : Nat) : Bool := d.flag (Reg.INGEST_CFG0 s) 31
/-- PROTECTED acts in the RTP carriages only (R313). -/
def Dev.ingProtected (d : Dev) (s : Nat) : Bool := d.flag (Reg.INGEST_CFG0 s) 28 && d.ingCarriage s != 0

/-- A frame for the demux is discarded (R335). -/
def Dev.ingDrop (d : Dev) : Dev := d.count Reg.INGEST_DROPPED 1

/-- The DECODE context that a stream feeds. -/
def Dev.ingCtx (d : Dev) (s : Nat) : Option Nat :=
  (d.media.ctxs.find? fun e => e.2.kind == 0 && e.2.ingest == s && e.2.state == 2).map Prod.fst

/-- The group that an ST 2110-20 stream feeds: one whose pictures do not come from a context. -/
def Dev.ingGroup (d : Dev) (s : Nat) : Option Nat :=
  let g := d.fld (Reg.INGEST_CFG1 s) 8 0
  match d.group g with
  | some x => if x.source = 1 ∧ ¬ x.useSide ∧ ¬ x.failed ∧ x.origin.isSome then some g else none
  | none => none

/-- Whether a stream has a consumer. -/
def Dev.ingUsed (d : Dev) (s : Nat) : Bool := if d.ingCarriage s = 2 then (d.ingGroup s).isSome else (d.ingCtx s).isSome

/-! ### Elementary streams -/

/-- Bytes of an elementary stream, with a PTS that begins with them, arrive at a context at `t`. -/
def Dev.esBytes (d : Dev) (c t : Nat) (pts : Option Nat) (l : List Byte) : Dev :=
  match d.ctx c with
  | none => d
  | some x =>
    let y := { x.dec with
      ingest := x.dec.ingest ++ l, arrival := t,
      arrivals := x.dec.arrivals ++ (if l.isEmpty then [] else [(t, x.dec.ingest.length + l.length)]), openAt := if l.isEmpty then x.dec.openAt else some t,
      pesPts := x.dec.pesPts ++ (pts.map fun p => (p, x.dec.ingest.length)).toList }
    (d.setCtx c { x with dec := y }).decodeNext c

/-- A loss point at the end of what has arrived. -/
def Dev.esLoss (d : Dev) (c : Nat) : Dev :=
  match d.ctx c with
  | none => d
  | some x => d.setCtx c { x with dec := { x.dec with losses := x.dec.losses ++ [x.dec.ingest.length] } }

/-- A loss point of a stream. -/
def Dev.ingLoss (d : Dev) (s : Nat) : Dev := match d.ingCtx s with
  | some c => d.esLoss c
  | none => d

/-- PTS of a PES header (ISO/IEC 13818-1). -/
def pesPtsOf (h : List Byte) : Option Nat :=
  if bit (frameNum h 7 1) 7 then
    some (frameNum h 9 1 / 2 % 8 * 2 ^ 30 + frameNum h 10 2 / 2 * 2 ^ 15 + frameNum h 12 2 / 2)
  else none

/-- Data of a PES packet, up to the length that its header gives. -/
def Dev.pesData (d : Dev) (s c t : Nat) (pts : Option Nat) (l : List Byte) : Dev :=
  let x := d.ingest s
  match x.left with
  | some n => (d.setIngest s { x with left := some (n - l.length) }).esBytes c t pts (l.take n)
  | none => d.esBytes c t pts l

/-- TS payload bytes of the stream's PID. -/
def Dev.pesBytes (d : Dev) (s c t : Nat) (start : Bool) (l : List Byte) : Dev :=
  let x := if start then { d.ingest s with pes := [], body := false, left := none } else d.ingest s
  if x.body then (d.setIngest s x).pesData s c t none l
  else if !start && x.pes.isEmpty then d.setIngest s x
  else
    let h := x.pes ++ l
    let n := 9 + frameNum h 8 1
    if h.length < 9 ∨ h.length < n then d.setIngest s { x with pes := h }
    else if frameNum h 0 3 ≠ 1 then d.setIngest s { x with pes := [] }
    else
      let len := frameNum h 4 2
      let left := if len = 0 then none else some (len + 6 - n)
      (d.setIngest s { x with pes := [], body := true, left := left }).pesData s c t (pesPtsOf h) (h.drop n)

/-- A TS packet: the continuity counter of the stream's PID is checked, a repeated packet is not used. -/
def Dev.tsIn (d : Dev) (s c t : Nat) (p : List Byte) : Dev :=
  let x := d.ingest s
  let b3 := frameNum p 3 1
  let pid := frameNum p 1 2 % 8192
  let af := if bit b3 5 then 1 + frameNum p 4 1 else 0
  if frameNum p 0 1 ≠ 0x47 ∨ pid ≠ d.fld (Reg.INGEST_CFG0 s) 12 0 ∨ bit b3 4 = false then d
  else
    let cc := b3 % 16
    if x.cc = some cc then d
    else
      let d1 := d.setIngest s { x with cc := some cc }
      let d2 := if x.cc.any fun k => wrapAdd 4 k 1 != cc then d1.esLoss c else d1
      d2.pesBytes s c t (bit (frameNum p 1 1) 6) (p.drop (4 + af))

/-- Packets of 188 bytes. -/
def tsCut : Nat → List Byte → List (List Byte)
  | 0, _ => []
  | n + 1, l => if l.length < 188 then [] else l.take 188 :: tsCut n (l.drop 188)

/-- A datagram of 1 to 7 TS packets. -/
def Dev.tsDatagram (d : Dev) (s t : Nat) (l : List Byte) : Dev :=
  match d.ingCtx s with
  | none => d.ingDrop
  | some c =>
    if l.length % 188 ≠ 0 ∨ l.length = 0 ∨ 7 < l.length / 188 then d.ingDrop
    else (tsCut 7 l).foldl (fun (e : Dev) (p : List Byte) => e.tsIn s c t p) d

/-! ### ST 2110-20 (R314, R315) -/

/-- The picture DT of an RTP timestamp: the DT nearest to `t` whose 90 kHz count equals it modulo 2^32. -/
def pictureDt (ts t : Nat) : Nat :=
  let now := t * 90000 / unitsPerSec
  let k := now / 2 ^ 32
  let far (n : Nat) : Nat := (((n * unitsPerSec / 90000 : Nat) : Int) - t).natAbs
  let c (i : Nat) : Nat := ts + i * 2 ^ 32
  let l := [c (k - 1), c k, c (k + 1)]
  (l.foldl (fun b n => if far n < far b then n else b) (c k)) * unitsPerSec / 90000

/-- Rows, first pixels and lengths of an ST 2110-20 payload's sample row data, and where its data begin. -/
def srdOf (p : List Byte) : Nat → Nat → List (Nat × Nat × Nat) × Nat
  | 0, o => ([], o)
  | n + 1, o =>
    let e := (frameNum p (o + 2) 2 % 32768, frameNum p (o + 4) 2 % 32768, frameNum p o 2)
    if bit (frameNum p (o + 4) 2) 15 then
      let y := srdOf p n (o + 6)
      (e :: y.1, y.2)
    else ([e], o + 6)

/-- The segments of a payload. -/
def srdCut : List (Nat × Nat × Nat) → List Byte → List (Nat × Nat × List Byte)
  | [], _ => []
  | (r, o, n) :: l, b => (r, o, b.take n) :: srdCut l (b.drop n)

/-- Samples of 4:2:2 at 10 bits: five octets give Cb, Y, Cr, Y. -/
def pgroups : Nat → List Byte → List (Nat × Nat × Nat × Nat)
  | 0, _ => []
  | n + 1, l =>
    if l.length < 5 then []
    else
      let v := frameNum l 0 5
      (v / 2 ^ 30 % 1024, v / 2 ^ 20 % 1024, v / 2 ^ 10 % 1024, v % 1024) :: pgroups n (l.drop 5)

/-- Pixel pairs of a row, by the pair's number; none where nothing was received. -/
def rowPairs (w row : Nat) (l : List (Nat × Nat × List Byte)) : List (Option (Nat × Nat × Nat × Nat)) :=
  l.foldl (fun a e =>
    if e.1 = row then ((pgroups e.2.2.length e.2.2).zipIdx (e.2.1 / 2)).foldl (fun b p => b.set p.2 (some p.1)) a else a)
    (List.replicate (w / 2) none)

/-- A picture of the stream in the layout of R137, and whether a line was missing: such a line is mid-grey. -/
def Dev.st2110Image (d : Dev) (s : Nat) (x : Ingest) : List Byte × Bool :=
  let c1 := Reg.INGEST_CFG1 s
  let c0 := Reg.INGEST_CFG0 s
  let w := d.fld c1 30 22 * 8
  let h := d.fld c1 21 13 * 8
  let pitch := ceilDiv (2 * w) 64 * 64
  let rows := (List.range h).map fun r => rowPairs w r x.segs
  let grey := rows.any fun r => r.any Option.isNone
  let fix (r : List (Option (Nat × Nat × Nat × Nat))) : List (Nat × Nat × Nat × Nat) :=
    if r.any Option.isNone then r.map fun _ => (512, 512, 512, 512) else r.filterMap id
  let pad := List.replicate (pitch - 2 * w) (0 : Byte)
  let luma := rows.flatMap fun r => ((fix r).flatMap fun q => leBytes 2 q.2.1 ++ leBytes 2 q.2.2.2) ++ pad
  let chroma := rows.flatMap fun r => ((fix r).flatMap fun q => leBytes 2 q.1 ++ leBytes 2 q.2.2.1) ++ pad
  let colour : Colour := ⟨d.fld c0 17 17, d.fld c0 19 18, d.fld c0 17 17, d.fld c0 16 16, none, none⟩
  (headerBytes w h 10 1 (d.fld c0 15 13) colour pitch ++ luma ++ chroma, grey)

/-- The open picture of a stream enters its group as a PICTURE would (R335, R130, R139). -/
def Dev.st2110Close (d : Dev) (s : Nat) : Dev :=
  let x := d.ingest s
  let e := d.setIngest s { x with picTs := none, segs := [] }
  if x.picTs.isNone then d
  else match e.ingGroup s with
    | none => e
    | some g => match e.group g with
      | none => e
      | some y =>
        let im := d.st2110Image s x
        let f := formatOf im.1
        if e.pictureStatus true g f ≠ 0 ∨ y.src.lastDt.any (fun t => decide (x.picDt ≤ t)) then e
        else e.setGroup g { y with src := y.src.take (newPic y.src.count x.picDt 0 im.1 f false none (b2n im.2)) }

/-- An ST 2110-20 packet passes. -/
def Dev.st2110In (d : Dev) (s : Nat) (p : HeldPkt) : Dev :=
  if (d.ingGroup s).isNone then d.ingDrop
  else
    let d1 := if (d.ingest s).picTs.any (· != p.ts) then d.st2110Close s else d
    let x := d1.ingest s
    let x1 := if x.picTs.isNone then { x with picTs := some p.ts, picDt := pictureDt p.ts p.at_, segs := [] } else x
    let y := srdOf p.data 3 2
    let d2 := d1.setIngest s { x1 with segs := x1.segs ++ srdCut y.1 (p.data.drop y.2) }
    if p.marker then d2.st2110Close s else d2

/-! ### RTP and the path merge (R313) -/

/-- A packet passes to the demux. -/
def Dev.passPkt (d : Dev) (s : Nat) (p : HeldPkt) : Dev :=
  let e := d.setIngest s { d.ingest s with next := some (p.seq + 1) }
  if e.ingCarriage s = 2 then e.st2110In s p else e.tsDatagram s p.at_ p.data

/-- Held packets that have become next pass; `n` bounds how many. -/
def Dev.passHeld (d : Dev) (s : Nat) : Nat → Dev
  | 0 => d
  | n + 1 =>
    let x := d.ingest s
    match x.held with
    | p :: r => if x.next = some p.seq then ((d.setIngest s { x with held := r }).passPkt s p).passHeld s n else d
    | [] => d

/-- Every held packet passes. -/
def Dev.passAll (d : Dev) (s : Nat) : Dev :=
  let x := d.ingest s
  x.held.foldl (fun (e : Dev) (p : HeldPkt) =>
    let e1 := if (e.ingest s).next.any (· != p.seq) then e.ingLoss s else e
    e1.passPkt s p) (d.setIngest s { x with held := [] })

/-- A packet joins those that are held, in the order of their sequence numbers. -/
def holdPkt (p : HeldPkt) : List HeldPkt → List HeldPkt
  | [] => [p]
  | q :: r => if p.seq < q.seq then p :: q :: r else q :: holdPkt p r

/-- How far a packet lies beyond the number `next` that is to pass, its own number extended to 32 bits so that it lies
nearest to the last one passed; exactly 2^15 from that one reads as behind it (DEDUCED, log entry 39). -/
def seqGap (next seq : Nat) : Int := signed 16 (unsigned 16 ((seq : Int) - next + 1)) - 1

/-- An RTP packet of a stream that merges two paths. -/
def Dev.mergePkt (d : Dev) (s : Nat) (p : HeldPkt) : Dev :=
  let x := d.ingest s
  match x.next with
  | none => d.passPkt s p
  | some n =>
    let g := seqGap n p.seq
    let q := { p with seq := ((n : Int) + g).toNat }
    if g = -32769 then
      -- 2^15 from the last number passed, so that it lies on no side of it: the merge starts again (log entry 39)
      ((d.passAll s).ingLoss s).passPkt s { p with seq := ((n : Int) + g + 65536).toNat }
    else if g < 0 ∨ x.held.any (fun y => y.seq == q.seq) then d.setIngest s { x with dupes := x.dupes + 1 }
    else if g = 0 then (d.passPkt s q).passHeld s (x.held.length)
    else d.setIngest s { x with held := holdPkt q x.held }

/-- An RTP packet of one path: a gap is a loss point (R335). -/
def Dev.plainPkt (d : Dev) (s : Nat) (p : HeldPkt) : Dev :=
  match (d.ingest s).next with
  | none => d.passPkt s p
  | some n =>
    let q := { p with seq := ((n : Int) + seqGap n p.seq + 65536).toNat }
    (if seqGap n p.seq = 0 then d else d.ingLoss s).passPkt s q

/-- The RTP header of a datagram (RFC 3550), its CSRCs and extension skipped; none where it is none. -/
def rtpOf (t : Nat) (l : List Byte) : Option HeldPkt :=
  let cc := frameNum l 0 1 % 16
  let n0 := 12 + 4 * cc
  let n := if bit (frameNum l 0 1) 4 then n0 + 4 + 4 * frameNum l (n0 + 2) 2 else n0
  let pad := if bit (frameNum l 0 1) 5 then ((l.getLast?.map BitVec.toNat).getD 0) else 0
  if frameNum l 0 1 / 64 ≠ 2 ∨ l.length < n + pad then none
  else some ⟨frameNum l 2 2, t, frameNum l 4 4, bit (frameNum l 1 1) 7, (l.drop n).take (l.length - n - pad), 0⟩

/-- A frame for ingest stream `s`, with path B, and its receive timestamp (R335). -/
def Dev.ingestFrame (d : Dev) (s : Nat) (pathB : Bool) (t : Nat) (f : List Byte) : Dev :=
  let x := parseFrame f
  let udp := (f.drop (x.l4 + 8)).take (frameNum f (x.l4 + 4) 2 - 8)
  if !d.ingOn s || (pathB && !d.ingProtected s) || !d.ingUsed s then d.ingDrop
  else if x.proto ≠ 17 ∨ x.frag ≠ 0 ∨ x.ports.isNone ∨ x.malformed then d.ingDrop
  else if d.ingCarriage s = 0 then d.tsDatagram s t udp
  else match rtpOf t udp with
    | none => d.ingDrop
    | some p => if d.ingProtected s then d.mergePkt s p else d.plainPkt s p

/-! ### Meanings -/

/-- SKEW_TIMEOUT (R313): the oldest packet held by a stream has waited SKEW_MS; the gap before it is lost. -/
def execSkewTimeout (stream : Nat) (s : State) : Host.Outcome State Fault Refusal :=
  s.act fun d =>
    let x := d.ingest stream
    match x.held with
    | [] => d
    | p :: _ =>
      let began (q : HeldPkt) : Nat := ((q.at_ : Int) + q.moved).toNat
      let at_ := x.held.foldl (fun m (q : HeldPkt) => min m (began q)) (began p)
      let e := d.advanceTo (at_ + d.fld (Reg.INGEST_CFG0 stream) 27 20 * 1000 * unitsPerUs)
      ((e.setIngest stream { x with next := some p.seq }).ingLoss stream).passHeld stream x.held.length

end Sys2Proof.Machine
end

