-- ==== Sys2Proof/Machine/RxOps.lean ====
section
/-! DEFINITION. Received frames: the MAC's checks (spec/12_ethernet_ports.md R304, R308, R310), classification and
delivery (spec/13_parser_classifier.md R323, R324, R328, R333), policing and cut-through (spec/14_queues_scheduling.md
R347-R349). -/

namespace Sys2Proof.Machine

/-- Ethernet of a receive pipeline's monitor events (R510): requester and class. -/
def rxAttr (p tc : Nat) : PmAttr := ⟨none, some (0x5000 + p), none, some tc⟩

/-- A frame of port `p` is discarded, for any reason. -/
def Dev.rxLost (d : Dev) (p tc : Nat) : Dev := d.pmEvent (30 + p / 64) 0x52 1 (rxAttr p tc)

/-! ### Delivery (R323, R324, R333) -/

/-- A frame or copy whose destination does not exist (R323). -/
def Dev.destInvalid (d : Dev) : Dev := (d.count (Reg.PAR_COUNT 1) 1).setEvent Reg.PAR_EVENTS 4

/-- What the policer and the watermark of management make of a frame: the device, and whether it goes on (R333). -/
def Dev.mgmtAdmit (d : Dev) (f : QFrame) : Dev × Bool :=
  let y := d.police 0 (f.data.length + 4)
  if y.2 = false then ((y.1.count (Reg.PAR_COUNT 4) 1).setEvent Reg.PAR_EVENTS 2, false)
  else if y.1.par.mgmtAbove then (y.1.count (Reg.PAR_COUNT 5) 1, false)
  else (y.1, true)

/-- A frame for management. -/
def Dev.toMgmt (d : Dev) (f : QFrame) : Dev :=
  let y := d.mgmtAdmit f
  if y.2 then y.1.rxEnqueue mgmtQueue none f else y.1

/-- A copy whose destination cannot take it at once is discarded (R324). -/
def Dev.putCopy (d : Dev) (q : Nat) (port : Option Nat) (f : QFrame) : Dev :=
  if d.copyFits q port f then d.rxEnqueue q port f else d.count (Reg.PAR_COUNT 2) 1

/-- A copy for management. -/
def Dev.copyMgmt (d : Dev) (f : QFrame) : Dev :=
  let y := d.mgmtAdmit f
  if y.2 then y.1.putCopy mgmtQueue none f else y.1

/-- A copy for a Host Receive ring. -/
def Dev.copyRing (d : Dev) (r : Nat) (f : QFrame) : Dev :=
  if d.hostRing r then d.putCopy (ringQueue r) none f else d.destInvalid

/-- A copy for a port. -/
def Dev.copyPort (d : Dev) (p q : Nat) (f : QFrame) : Dev :=
  if d.portNamed p then d.putCopy q (some p) f else d.destInvalid

/-- Flags of a frame's prefix changed (R326). -/
def QFrame.flag (f : QFrame) (n : Nat) : QFrame := { f with meta_ := f.meta_.set 3 (f.meta_.getD 3 0 + n) }

/-- The frame itself goes to its destination. -/
def Dev.deliver (d : Dev) (a hash : Nat) (f : QFrame) : Dev :=
  match actDest a with
  | 0 =>
    let r := actTarget a + hash % 2 ^ actRingLog a
    if d.hostRing r then d.rxEnqueue (ringQueue r) none f else d.destInvalid
  | 1 =>
    match d.rxRefused (mgmtQueue + 1) none f with
    | some (0, _) => d.count (Reg.QM_COUNT 0) 1
    | some (k, e) => d.qmDrop k e
    | none => d.ingestFrame (bits (actTarget a) 9 0) (bit (actTarget a) 15) f.rxDt f.data
  | 2 => d.toMgmt f
  | 3 => if d.portNamed (actTarget a) then d.rxEnqueue (actQueue a) (some (actTarget a)) f else d.destInvalid
  | _ => d

/-- The second copy of COPY_TO_PROCESSOR and MIRROR. -/
def Dev.deliverCopy (d : Dev) (a : Nat) (f : QFrame) : Dev :=
  if actKind a = 2 then
    (if actCopySel a = 0 then d.copyRing (actCopyTarget a) (f.flag 1) else d.copyMgmt (f.flag 1))
  else if actKind a = 3 then
    (if actCopySel a = 0 then d.copyPort (actCopyTarget a) (actCopyQueue a) (f.flag 2)
     else d.copyRing (actCopyTarget a) (f.flag 2))
  else d

/-- What a decision makes of a frame: the frame as a queue holds it. -/
def frameOf (c : Decision) (x : Parsed) (port rxDt : Nat) (f : List Byte) (inner : Option Nat) : QFrame :=
  let tc := actClassTc c.action
  { id := 0, data := f, ingress := some (port, tc), rxDt := rxDt,
    meta_ := [c.reason, c.rule, c.gen, 4 * b2n inner.isSome + 8 * b2n (x.frag != 0), tc, c.hash, inner.getD 0, port],
    spilled := false, op := none, flow := none }

/-- The class's policer (R349). -/
def Dev.policed (d : Dev) (c n : Nat) : Dev × Bool :=
  if c = 0 then (d, true)
  else
    let y := d.police c n
    if y.2 then y else ((y.1.count (Reg.POLICE_DROPS c) 1).setEvent Reg.QM_EVENTS 2, false)

/-- A decided frame is delivered (R323, R328, R349). `inner` is the VNI of a removed tunnel. -/
def Dev.applyDecision (d : Dev) (c : Decision) (x : Parsed) (port rxDt : Nat) (f : List Byte) (inner : Option Nat)
    (b : Bool) : Dev :=
  let d1 := if c.reason = 0 then d else d.count (Reg.PORT_REASON port (c.reason - 1)) 1
  let d2 := (d1.ruleHit c.hit).fragUpdate x c
  if c.decap then
    let t := x.tunnel.getD (0, 0)
    { d2 with par := { d2.par with recirc := d2.par.recirc ++ [(port, f.drop t.2, t.1, rxDt, b, c.gen)] } }
  else if actKind c.action = 0 then d2.rxLost port (actClassTc c.action)
  else
    let y := d2.policed (actPolice c.action) (f.length + 4)
    if y.2 = false then y.1.rxLost port (actClassTc c.action)
    else
      let q := frameOf c x port rxDt f inner
      (y.1.deliver c.action c.hash q).deliverCopy c.action q

/-- A frame, without its FCS, is classified on its first pass (R321). -/
def Dev.classify (d : Dev) (port rxDt : Nat) (f : List Byte) : Dev :=
  let b := d.par.activeB
  let x := parseFrame f
  d.applyDecision (d.decide_ f x port false 0 b (d.ruleGen b)) x port rxDt f none b

/-- The inner frame of a removed tunnel has its second pass (R328). -/
def Dev.secondPass (d : Dev) : Dev :=
  match d.par.recirc with
  | [] => d
  | (port, f, vni, rxDt, b, gen) :: r =>
    let e := { d with par := { d.par with recirc := r } }
    let x := parseFrame f
    e.applyDecision (e.decide_ f x port true vni b gen) x port rxDt f (some vni) b

/-! ### Cut-through (R347, R348) -/

/-- Where a frame would start to leave under cut-through: its port and queue. -/
def Dev.cutThrough (d : Dev) (f : RxFrame) (len : Nat) : Option (Nat × Nat × QFrame) :=
  let b := d.par.activeB
  let g := f.data.take len
  let x := parseFrame g
  let c := d.decide_ g x f.port false 0 b (d.ruleGen b)
  let q := actQueue c.action
  let p := actTarget c.action
  let ct := d.fld (Reg.QUEUE_WM q) 7 0
  let ok := actKind c.action != 0 && actDest c.action == 3 && !c.decap && d.enabled 9 && d.enabled 10 &&
    d.egressBound q p && ct != 0 && decide (ct * 256 ≤ len) && decide (d.portRate p ≤ d.portRate f.port) &&
    (d.portQueues p).isEmpty && d.portOn p && (d.port p).up && (d.onWire p).isNone && (d.port p).due.isEmpty &&
    d.eligible p q
  if ok then some (p, q, frameOf c x f.port 0 g none) else none

/-- A frame that has started to leave under R347 is ended with an inverted FCS after `len` bytes (R348). -/
def Dev.cutAbort (d : Dev) (f : RxFrame) (len : Nat) : Dev :=
  match d.cutThrough f len with
  | none => d
  | some (p, q, g) =>
    let e := (d.putFrame q g).egressSelect p
    match e.onWire p with
    | none => d
    | some w =>
      (((((e.clearWire p).ethCount p 8 1).qmDrop 4 3).emit (.frameAbort p)).freeFrame w.frame).safePoint 11 p

/-- Whether a good frame grows beyond the frame limit of the queue it is leaving from: the limit. -/
def Dev.cutLimit (d : Dev) (f : RxFrame) : Option Nat :=
  match d.cutThrough f (f.data.length - 4) with
  | some (_, q, _) => if d.frameLimit q < f.data.length then some (d.frameLimit q) else none
  | none => none

/-! ### The MAC (R304, R308, R310) -/

/-- Opcode of a MAC control frame; none for another frame. -/
def macControl (f : List Byte) : Option Nat := if frameNum f 12 2 = 0x8808 then some (frameNum f 14 2) else none

/-- A frame fails a check: it is counted, and ended where it has started to leave. -/
def Dev.rxFail (d : Dev) (f : RxFrame) (k len : Nat) : Dev := ((d.ethCount f.port k 1).rxLost f.port 0).cutAbort f len

/-- A frame from the MAC enters its receive pipeline. -/
def Dev.rxPass (d : Dev) (f : RxFrame) : Dev :=
  let n := f.data.length
  let d1 := (d.ethCount f.port 0 1).ethCount f.port 1 n
  let rx := ((f.t : Int) - d.tsDelay (Reg.TS_RX_DELAY (f.port / 16) (f.port % 16))).toNat
  let d2 := (d1.pmEvent (30 + f.port / 64) 0x50 1 (rxAttr f.port 0)).pmEvent (30 + f.port / 64) 0x51 n (rxAttr f.port 0)
  if d2.enabled 9 = false then (d2.count (Reg.PAR_COUNT 0) 1).rxLost f.port 0
  else match d2.cutLimit f with
    | some m => d2.cutAbort f m
    | none => d2.classify f.port rx (f.data.take (n - 4))

/-- A frame received to its end (R304): `data` with its FCS. -/
def Dev.rxFrame (d : Dev) (f : RxFrame) : Dev :=
  if !d.portOn f.port || !(d.port f.port).up then d
  else
    let n := f.data.length
    let e := (d.advanceTo (f.t + d.bitTime f.port (8 * n))).bwAdd (Reg.PM_BW_PORT_RX_LO f.port) n
    if f.fcsOk = false then e.rxFail f 2 (n - 4)
    else if n < 64 then e.rxFail f 3 (n - 4)
    else if e.maxFrame f.port < n then e.rxFail f 4 (e.maxFrame f.port - 4)
    else match macControl f.data with
      | some 0x0001 => e.pauseRx f.port f.data
      | some 0x0101 => e.pfcRx f.port f.data
      | some _ => (e.ethCount f.port 12 1).rxLost f.port 0
      | none => e.rxPass f

/-- A frame from outside: a port in loopback takes none. -/
def Dev.rxOutside (d : Dev) (f : RxFrame) : Dev :=
  if d.flag (Reg.PORT_CTRL (f.port / 16) (f.port % 16)) 1 then d else d.rxFrame f

/-- What a port in loopback receives of the frame it has sent (PORT_CTRL.LOOPBACK). -/
def Dev.loopFrame (d : Dev) (p : Nat) : Option RxFrame :=
  if d.flag (Reg.PORT_CTRL (p / 16) (p % 16)) 1 then
    (d.onWire p).map fun w =>
      { port := p, data := padded w.frame.data ++ leBytes 4 (crc32 (padded w.frame.data)), fcsOk := true, t := w.first }
  else none

/-- The management cores take a frame of their queue. -/
def Dev.mgmtTake (d : Dev) : Dev :=
  match (d.queue mgmtQueue).frames with
  | f :: _ => if d.mgmt.restarting then d else (((d.popFrame mgmtQueue).freeFrame f)).hoistMark
  | [] => d

/-! ### Meanings -/

/-- RX_FRAME (R304). -/
def execRxFrame (f : RxFrame) (s : State) : Host.Outcome State Fault Refusal := s.act fun d => (d.rxOutside f).hoistMark

/-- PAUSE_RX (R308): a received frame that is an Annex 31B pause. -/
def execPauseRx (f : RxFrame) (s : State) : Host.Outcome State Fault Refusal :=
  s.act fun d => if macControl f.data = some 0x0001 then d.rxOutside f else d

/-- PFC_RX (R308): a received frame of priority flow control. -/
def execPfcRx (f : RxFrame) (s : State) : Host.Outcome State Fault Refusal :=
  s.act fun d => if macControl f.data = some 0x0101 then d.rxOutside f else d

/-- DECAP_RECIRCULATE (R328). -/
def execDecapRecirculate (s : State) : Host.Outcome State Fault Refusal := s.act fun d => d.secondPass.hoistMark

/-- FRAME_TX_END (R359): in loopback the port receives its own frame. -/
def execFrameTxEnd (port : Nat) (s : State) : Host.Outcome State Fault Refusal :=
  s.act fun d =>
    match d.loopFrame port with
    | some f => ((d.txEnd port false).rxFrame f).hoistMark
    | none => (d.txEnd port true).hoistMark

end Sys2Proof.Machine
end

