-- ==== Sys2Proof/Machine/BarOps.lean ====
section
/-! DEFINITION. Writes through BAR0 and through a VF's own BAR0 (spec/04_register_behaviour.md R87-R102): who may write,
access types, staging, ENABLE, aliases, and what the chapters' registers do when they are written. -/

namespace Sys2Proof.Machine

/-- Whether the writer is Ndelia firmware. -/
def isFirmware (w : Writer) : Bool := match w with
  | .firmware => true
  | _ => false

/-! ### ENABLE and RWL fields (R91, R92) -/

/-- Windows whose chapters name an ENABLE bit: bit 0 of the first register. -/
def hasEnable (w : Nat) : Bool :=
  [2, 3, 5, 6, 7, 9, 10, 11, 12, 14, 15].contains w || (decide (16 ≤ w) && decide (w < 24)) ||
  (decide (28 ≤ w) && decide (w < 49))

/-- Whether RWL fields of a window may be written (R91). -/
def Dev.rwlOpen (d : Dev) (w : Nat) : Bool := !(hasEnable w && d.enabled w) && d.flag (Reg.BLK_STATE w) 2

/-- Whether a field of a write to window `w` is stored: an RW field always, an RWL field while it is open. -/
def Dev.stores (d : Dev) (w : Nat) (f : Fld) : Bool := f.acc == .rw || (f.acc == .rwl && d.rwlOpen w)

/-- A register with the fields that `p` chooses taken from `v`. -/
def mergeFlds (p : Fld → Bool) (old v : Nat) (l : List Fld) : Nat :=
  l.foldl (fun r f => if p f then putBits r f.hi f.lo (bits v f.hi f.lo) else r) old

/-- Whether every field that `p` chooses has an encoding that its table defines (R9). -/
def fldsOk (p : Fld → Bool) (v : Nat) (l : List Fld) : Bool :=
  l.all fun f => !p f || (decide (f.min ≤ bits v f.hi f.lo) && decide (bits v f.hi f.lo ≤ f.max))

/-! ### What the chapters refuse beyond the tables' encodings (R9) -/

/-- Event codes of a monitor unit (R510). -/
def pmCodeOk (u c : Nat) : Bool :=
  c == 0 || c == 1 ||
  (if u < 16 then (decide (0x10 ≤ c) && decide (c ≤ 0x15)) || (c == 0x16 && u % 4 == 0)
   else if u < 24 then decide (0x20 ≤ c) && decide (c ≤ 0x25)
   else if u < 28 then decide (0x30 ≤ c) && decide (c ≤ 0x32)
   else if u < 30 then c == 0x40 || c == 0x41 || c == 0x43 || (c == 0x42 && u == 28)
   else if u < 34 then decide (0x50 ≤ c) && decide (c ≤ 0x53)
   else if u < 39 then decide (0x60 ≤ c) && decide (c ≤ 0x62)
   else decide (0x70 ≤ c) && decide (c ≤ 0x72))

/-- Word `j` of a default action (R322, R332): reserved bits 0, DECAP=0 and defined encodings. What one word says against
another is not judged, since each word is a register of its own (DEDUCED, log entry 43). -/
def defaultWordOk (j v : Nat) : Bool :=
  match j with
  | 0 => !bit v 5 && decide (actDest v ≤ 4) && (actDest v != 4 || decide (2 ≤ actKind v)) && decide (actRingLog v ≤ 8) &&
    bits v 15 11 == 0 && bits v 31 28 == 0
  | 1 => bits v 31 30 == 0
  | 2 => bits v 31 30 == 0
  | _ => v == 0

/-- Whether a register may take the value `new`, where the chapters give more than ranges of fields: `i` and `j` are its
indexes. -/
def Dev.legal (d : Dev) (w : Nat) (name : String) (i j old new : Nat) : Bool :=
  if w = 2 then name != "TB_CTRL" || bits new 3 2 == 0 || bits new 3 2 != bits new 5 4
  else if w = 7 then name != "PM_EVT" || (pmCodeOk i (bits new 7 0) && (!bit new 29 || decide (j < 7)))
  else if w = 9 then
    (if name = "MGMT_WM" then decide (bits new 15 0 < bits new 31 16)
     else name != "PORT_DEFAULT" || defaultWordOk j new)
  else if w = 10 then
    (if name = "QM_POOL" then decide (bits new 31 16 < bits new 15 0)
     else if name = "ING_WM" then decide (bits new 15 0 < bits new 31 16)
     else if name = "QUEUE_WM" then decide (bits new 19 8 < bits new 31 20)
     else name != "QUEUE_LIMIT" || ((bits new 31 18 == 0 || (decide (64 ≤ bits new 31 18) &&
      decide (bits new 31 18 ≤ 9216))) && (!bit new 17 || decide (ringQueue 64 ≤ i))))
  else if w = 12 then
    name != "GATE_CYCLE" || (decide (1000 ≤ bits new 29 0) && decide (bits new 29 0 ≤ 1000000000))
  else if 28 ≤ w ∧ w < 36 then
    name != "LG_CTRL" || ((bits new 9 8 != 1 || bits new 5 4 == 0) && (bits new 5 4 != 2 || bits new 9 8 == 2)) &&
      (bits new 5 4 != 2 || bits new 3 2 == 0)
  else if 36 ≤ w ∧ w < 40 then
    (let t := w - 36
     let r := d.capPxe t * bits new 15 8 / 100
     name != "TILE_CTRL" || bits new 15 8 == bits old 15 8 ||
      (decide (d.reg (Reg.TILE_ADMITTED_OD t) ≤ r) && decide (d.reg (Reg.TILE_ADMITTED_LIVE t) + r ≤ d.capPxe t)))
  else if 40 ≤ w ∧ w < 48 then name != "RT_THRESH" || decide (bits new 5 0 < bits new 13 8)
  else if w = 48 then
    (if name = "MEM_SECTION" then bits new 2 0 == 0 || decide (4 ≤ bits new 2 0)
     else name != "RT_PORT_SEL" || bits new 3 0 == 0 ||
      !(List.range 8).any fun k => k != i && d.fld (Reg.RT_PORT_SEL k) 3 0 == bits new 3 0)
  else true

/-! ### A register whose fields are RW, RWL or RO -/

/-- TIME_PPS_OUT follows PPS_OUT_EN (R38, R540). -/
def Dev.ppsFollow (d : Dev) (old new : Nat) : Dev :=
  if bit old 1 = bit new 1 then d
  else if bit new 1 then { d with tb := { d.tb with pps := some (Series.start unitsPerSec d.tb.dt) } }
  else { d with tb := { d.tb with pps := none, ppsFall := none }, pins := { d.pins with ppsOut := false } }

/-- The links of the ports of a lane group that `p` chooses, by first lane, go down and start again. -/
def Dev.portsDown (d : Dev) (g : Nat) (p : Nat → Bool) : Dev :=
  (List.range 16).foldl (fun e l => if p l then (e.linkDown (16 * g + l)).portRestart (16 * g + l) else e) d

/-- A block's ENABLE rises from 0 to 1; `d0` is the device before the write. -/
def Dev.blockRises (d0 d : Dev) (w : Nat) : Dev :=
  let e := d.setFlag (Reg.BLK_STATE w) 2 false
  if w = 2 then e.tbAcquire
  else if w = 3 then Dev.intUpdate d0 e
  else if w = 5 then e.dmaRestart.dmaFollow
  else if w = 7 then e.pmStart
  else if w = 11 then e.hoistRise
  else if w = 12 then e.gateEnable true
  else e

/-- A block's ENABLE falls to 0: a pending set of LIVE values applies at once (R96), and the block stops as its chapter
says. -/
def Dev.blockFalls (d : Dev) (w : Nat) : Dev :=
  let e := d.safeAll w
  if w = 2 then e.freerun
  else if w = 5 then e.dmaFollow
  else if w = 7 then { e with pm := { e.pm with window := none } }
  else if w = 12 then e.gateEnable false
  else if 16 ≤ w ∧ w < 24 then e.segDisable (w - 16)
  else if 28 ≤ w ∧ w < 36 then e.portsDown (w - 28) fun _ => true
  else e

/-- The register that holds ENABLE takes a value (R92): windows 6, 40 to 47 and 48 keep ENABLE once it is 1. -/
def Dev.ctrlStored (d : Dev) (w a old new : Nat) : Dev :=
  if w = 6 then (if !bit old 0 && bit new 0 then d.bunEnable else d)
  else if w = 48 then
    (if bit old 0 then d
     else
      let e := (d.setFld Reg.MAP_CTRL 3 1 (bits new 3 1)).mapFollow
      if !bit new 0 then e
      else match e.capFail with
        | some t => (d.setReg Reg.MAP_STATUS (t * 4 + 2 + b2n (d.flag Reg.MAP_STATUS 0))).reject 48
        | none => e.mapEnable)
  else if 40 ≤ w ∧ w < 48 then
    (let e := d.setReg a (if bit old 0 then putBits new 0 0 1 else new)
     if !bit old 0 && bit new 0 then Dev.blockRises d e w else e)
  else
    let e := d.setReg a new
    let e1 := if !bit old 0 && bit new 0 then Dev.blockRises d e w
      else if bit old 0 && !bit new 0 then e.blockFalls w else e
    if w = 2 then e1.ppsFollow old new else e1

/-- Mask bits of FATAL and of reserved sources in word `k` of FC_MASK stay 0 (R464). -/
def fcMaskable (k new : Nat) : Nat :=
  (List.range 32).foldl (fun v b => match fcSeverity (32 * k + b) with
    | some 4 => putBits v b b 0
    | none => putBits v b b 0
    | _ => v) new

/-- A register takes a value, and what its chapter ties to it follows. -/
def Dev.stored (d : Dev) (w : Nat) (name : String) (i a old new : Nat) : Dev :=
  if hasEnable w ∧ a = w * 0x100000 then d.ctrlStored w a old new
  else if w = 4 then (d.setReg a (if name = "FC_MASK" then fcMaskable i new else new)).pinFault
  else if w = 10 ∧ name = "FSTOP_CFG" then (d.setReg a new).flowStops
  else if 28 ≤ w ∧ w < 36 ∧ name = "LG_PORT_EN" then
    (d.setReg a new).portsDown (w - 28) fun l => bit old l && !bit new l
  else if w = 48 ∧ name = "MEM_SECTION" then (d.setReg a new).mapFollow
  else d.setReg a new

/-- A write of a register without LIVE, SQC and command fields (R9, R90, R91): closed RWL fields that would change set
CFG_REJECTED and the others are stored; an undefined encoding refuses the whole write. -/
def Dev.plainWrite (d : Dev) (w : Nat) (row : RegRow) (ix : List Nat) (a v : Nat) : Dev :=
  let old := d.reg a
  let new := mergeFlds (d.stores w) old v row.flds
  let shut := row.flds.any fun f => f.acc == .rwl && !d.rwlOpen w && bits v f.hi f.lo != bits old f.hi f.lo
  if fldsOk (d.stores w) v row.flds && d.legal w row.name (ix.headD 0) (ix.getD 1 0) old new then
    (if shut then d.reject w else d).stored w row.name (ix.headD 0) a old new
  else d.reject w

/-! ### Registers that an EN bit of their own closes (R340, INGEST_CFG0) -/

/-- What refuses setting EN of egress queue `q` with the value `v` (R339, R340). -/
def Dev.queueEnBad (d : Dev) (q v : Nat) : Bool :=
  let p := bits v 30 24
  let slot := bits v 23 21
  let m := d.fld (Reg.QUEUE_LIMIT q) 31 18
  let limit := if m = 0 then d.maxFrame p else m
  let same (e : Nat × W32) : Bool :=
    decide (Reg.QUEUE_CFG 0 ≤ e.1) && decide (e.1 < Reg.QUEUE_CFG 12288) && e.1 != Reg.QUEUE_CFG q &&
    bit e.2.toNat 31 && bits e.2.toNat 30 24 == p && bits e.2.toNat 23 21 == slot
  let others := d.regs.filter same
  decide (d.qmax q < ceilDiv limit 256) ||
    (if slot = 4 then decide (1024 ≤ others.length) else !others.isEmpty)

/-- A write of a register that is closed while bit 31 of the register at `en` is 1: then EN alone may fall, and any other
change is refused. `bad` refuses setting EN. -/
def Dev.lockedWrite (d : Dev) (w : Nat) (row : RegRow) (ix : List Nat) (a v en : Nat) (bad : Bool) : Dev :=
  let old := d.reg a
  let new := mergeFlds (fun f => f.acc == .rw) old v row.flds
  if d.flag en 31 then
    let rest := if a = en then 2 ^ 31 else 2 ^ 32
    let d1 := if new % rest = old % rest then d else d.reject w
    if a = en && !bit new 31 then d1.setFlag a 31 false else d1
  else if fldsOk (fun f => f.acc == .rw) v row.flds && d.legal w row.name (ix.headD 0) 0 old new &&
      !(a == en && bit new 31 && bad) then d.setReg a new
  else d.reject w

/-- The configuration of ingest stream `s` (spec/13_parser_classifier.md): what its path merge holds goes when EN
falls. -/
def Dev.ingestWrite (d : Dev) (row : RegRow) (ix : List Nat) (a v : Nat) : Dev :=
  let s := ix.headD 0
  let e := d.lockedWrite 13 row ix a v (Reg.INGEST_CFG0 s) false
  if d.flag (Reg.INGEST_CFG0 s) 31 && !e.flag (Reg.INGEST_CFG0 s) 31 then
    { e with par := { e.par with ingest := SMap.erase e.par.ingest s } }
  else e

/-- A register of DMA channel `c` (R424, R425). -/
def Dev.dmaChanWrite (d : Dev) (fw : Bool) (row : RegRow) (ix : List Nat) (a v : Nat) : Dev :=
  let c := ix.headD 0
  if decide (56 ≤ c) && !fw then d.bar0Refuse
  else if row.name = "DMA_CH_CFG" then d.dmaCfgWrite c v
  else if row.name = "DMA_CH_STATUS" then d
  else
    let new := mergeFlds (fun f => f.acc == .rw) (d.reg a) v row.flds
    if new = d.reg a then d
    else if d.dmaEn c || !fldsOk (fun f => f.acc == .rw) v row.flds then d.reject 5
    else d.setReg a new

/-! ### Interrupt Hub (R446, R447, R453-R457) -/

/-- The bits of a bitmap word that `p` chooses by source. -/
def wordMask (w : Nat) (p : Nat → Bool) : Nat :=
  (List.range 32).foldl (fun m b => if p (32 * w + b) then m + 2 ^ b else m) 0

/-- A write of word `i` of INTC_PENDING or INTC_MASK (R446, R447, R457). -/
def Dev.intWord (d : Dev) (fw pend : Bool) (i v : Nat) : Dev :=
  let a := if pend then Reg.INTC_PENDING i else Reg.INTC_MASK i
  let old := d.reg a
  let shut := if fw then 0 else wordMask i fun s => decide (773 ≤ s)
  let hold := Nat.lor shut (if pend then wordMask i intIsLevel else 0)
  let new := Nat.lor (Nat.land v (2 ^ 32 - 1 - hold)) (Nat.land old hold)
  let d1 := if Nat.land (Nat.xor v old) shut = 0 then d else d.bar0Refuse
  let d2 := Dev.intUpdate d1 (d1.setReg a new)
  let gone := ((List.range 32).filter fun b => pend && bit old b && !bit new b).map fun b => d2.intTarget (32 * i + b)
  gone.eraseDups.foldl (fun e k => e.mirror k) d2

/-- A write of INTC_SRC_CFG of source `s` (R446, R449, R456). -/
def Dev.intSrcWrite (d : Dev) (fw : Bool) (row : RegRow) (ix : List Nat) (a v : Nat) : Dev :=
  if decide (773 ≤ ix.headD 0) && !fw then d.bar0Refuse else Dev.intUpdate d (d.plainWrite 3 row ix a v)

/-- A write at offset `off` of the page of target `k` by function `who`, none for the cores (R448, R453-R457). -/
def Dev.intPage (d : Dev) (who : Option Nat) (k off v : Nat) : Dev :=
  let s := bits v 9 0
  if off = 0x00 then d.intClaim who k s
  else if off = 0x04 then d.intComplete k s (bit v 16)
  else if off = 0x10 then d.intThreshold k v
  else if off = 0x14 then d.intMask who k s true
  else if off = 0x18 then d.intMask who k s false
  else if off = 0x1C then d.intPend who k s true
  else if off = 0x20 then d.intPend who k s false
  else if off = 0x28 ∧ k < 64 then (if v % 64 = 0 then d.setReg (Reg.INTC_MIRROR_LO k) v else d.reject 3)
  else if off = 0x2C ∧ k < 64 then d.setReg (Reg.INTC_MIRROR_HI k) v
  else d

/-! ### LIVE, SQC and command registers -/

/-- The staged copy of a LIVE register replaced; entries stand only where the copies differ. -/
def Dev.stage (d : Dev) (a v : Nat) : Dev :=
  { d with staged := if v = d.reg a then SMap.erase d.staged a else SMap.insert d.staged a (BitVec.ofNat 32 v) }

/-- A write of a LIVE register (R93, R95, R96). -/
def Dev.liveWrite (d : Dev) (w : Nat) (row : RegRow) (ix : List Nat) (a v : Nat) : Dev :=
  let new := mergeFlds (fun f => f.acc == .live) (d.stagedReg a) v row.flds
  if d.flag (Reg.BLK_STATE w) 0 || !fldsOk (fun f => f.acc == .live) v row.flds ||
      !d.legal w row.name (ix.headD 0) (ix.getD 1 0) (d.stagedReg a) new then d.reject w
  else if d.enabled w then (d.stage a new).setFlag (Reg.BLK_STATE w) 1 true
  else
    let d1 := d.stage a new
    let d2 := if w = 9 then d1.policersNow else d1
    { d2 with staged := SMap.erase d2.staged a }.setReg a new

/-- A clear of an SQC register, and what follows from it (R98, R442, R468). -/
def Dev.sqcWrite (d : Dev) (w a v : Nat) : Dev :=
  let e := d.clearEvents w a v
  if w = 5 ∧ a = Reg.DMA_EVENTS ∧ d.flag a 0 ∧ ¬ e.flag a 0 then e.dmaRestart
  else if w = 4 then e.pinFault
  else e

/-- SNAP (R39). -/
def Dev.snap (d : Dev) : Dev :=
  let t := dt96 d.tb.dt
  ((d.setReg Reg.TB_SNAP0 t).setReg Reg.TB_SNAP1 (t / 2 ^ 32)).setReg Reg.TB_SNAP2 (t / 2 ^ 64)

/-- A write of MC_FREQ_CMD (R379): ARM, then CANCEL. -/
def Dev.freqCmd (d : Dev) (s v : Nat) : Dev :=
  let e := if bit v 0 then d.freqArm s else d
  if bit v 1 then e.freqCancel s else e

/-- A write of a register that issues commands (WO and W1P fields). -/
def Dev.cmdWrite (d : Dev) (fw : Bool) (w : Nat) (name : String) (i v : Nat) : Dev :=
  if w = 2 then (if bit v 0 then d.snap else d)
  else if w = 4 then (if name = "FC_MH_REARM" then d.rearm v else d.force v)
  else if w = 5 then d.dmaSwreq (name = "DMA_SWREQ_HI") v fw
  else if w = 7 then d.pmClear i v
  else if 28 ≤ w ∧ w < 36 then (if bit v 0 then d.cntSnap (w - 28) else d)
  else if 40 ≤ w ∧ w < 48 then d.freqCmd (w - 40) v
  else d

/-! ### A write in a window -/

/-- A write of a register by its row. -/
def Dev.rowWrite (d : Dev) (fw : Bool) (w : Nat) (row : RegRow) (ix : List Nat) (a v : Nat) : Dev :=
  let i := ix.headD 0
  if row.flds.any (fun f => f.acc == .sqc) then d.sqcWrite w a v
  else if row.flds.any (fun f => f.acc == .live) then
    (if decide (w = 5) && decide (56 ≤ i) && !fw then d.bar0Refuse else d.liveWrite w row ix a v)
  else if row.flds.any (fun f => f.acc == .wo || f.acc == .w1p) then d.cmdWrite fw w row.name i v
  else if w = 3 ∧ row.name = "INTC_PENDING" then d.intWord fw true i v
  else if w = 3 ∧ row.name = "INTC_MASK" then d.intWord fw false i v
  else if w = 3 ∧ row.name = "INTC_SRC_CFG" then d.intSrcWrite fw row ix a v
  else if w = 5 ∧ row.name = "DMA_TIMER" then d.dmaTimerWrite i v
  else if w = 5 ∧ 0x1000 ≤ row.base ∧ row.base < 0x3000 then d.dmaChanWrite fw row ix a v
  else if w = 10 ∧ row.name = "QUEUE_CFG" then d.lockedWrite w row ix a v a (d.queueEnBad i v)
  else if w = 10 ∧ row.name = "QUEUE_LIMIT" ∧ i < 12288 then d.lockedWrite w row ix a v (Reg.QUEUE_CFG i) false
  else if w = 13 ∧ row.base < 0x3000 then d.ingestWrite row ix a v
  else d.plainWrite w row ix a v

/-- A write of the register at a window's offset below the alias region; none is defined there: ignored (R88). -/
def Dev.regWrite (d : Dev) (fw : Bool) (a v : Nat) : Dev :=
  match regRow a with
  | some (row, ix) => d.rowWrite fw (regWin a) row ix a v
  | none => d

/-- COMMIT, then DISCARD (R95). -/
def Dev.blkCommit (d : Dev) (w v : Nat) : Dev :=
  let e := if bit v 0 then d.commitWin w else d
  if bit v 1 then e.discardWin w else e

/-- A write of alias word `k` of window `w` (R100, R101): bit `k % 32` of the register at `k / 32`, an RW field. -/
def Dev.aliasWrite (d : Dev) (fw : Bool) (w k v : Nat) : Dev :=
  let a := w * 0x100000 + k / 32
  match regRow a with
  | some (row, ix) =>
    if row.aliased && decide (k / 32 < 0x1000) then
      d.rowWrite fw w row ix a (putBits (d.reg a) (k % 32) (k % 32) (v % 2))
    else d
  | none => d

/-- A write at offset `off` of window `w`; `fw` for Ndelia firmware. -/
def Dev.winWrite (d : Dev) (fw : Bool) (w off v : Nat) : Dev :=
  let e :=
    if 0x80000 ≤ off then d.aliasWrite fw w ((off - 0x80000) / 4) v
    else if off = 0x7F004 then d.clearEvents w (Reg.BLK_STATUS w) v
    else if off = 0x7F008 then d.blkCommit w v
    else if 0x40000 ≤ off then d
    else if w = 1 ∧ off < 0x1000 then d.pageWrite 0 off v
    else if w = 3 ∧ 0x10000 ≤ off then
      (let k := (off - 0x10000) / 1024
       if 66 ≤ k then d
       else if decide (64 ≤ k) && !fw then d.bar0Refuse
       else d.intPage (if fw then none else some 0) k (off % 1024) v)
    else d.regWrite fw (w * 0x100000 + off) v
  if w = 10 ∨ w = 11 ∨ w = 15 then e.hoistMark else e

/-- A 32-bit write to BAR0, or by a VF's driver to its own BAR0 (R51, R87-R89, R471). -/
def Dev.access (d : Dev) (wr : Writer) (a v : Nat) : Dev :=
  let w := a / 0x100000
  if a % 4 ≠ 0 then d.bar0Refuse
  else match wr with
  | .vf f =>
    if f = 0 ∨ d.host.numVfs < f ∨ d.pins.fatalStop then d
    else if a < 0x1000 then d.pageWrite f a v
    else if a < 0x1400 then d.intPage (some f) f (a - 0x1000) v
    else d
  | .pf =>
    if 52 ≤ w then d
    else if w = 50 ∨ w = 51 then d.bar0Refuse
    else if d.fnLevel 0 = 2 ∧ ¬ (w = 1 ∧ a % 0x100000 < 0x1000) then d.bar0Refuse
    else if d.pins.fatalStop && w != 4 then d
    else d.winWrite false w (a % 0x100000) v
  | .firmware =>
    if 52 ≤ w ∨ (d.pins.fatalStop ∧ w ≠ 4) then d else d.winWrite true w (a % 0x100000) v

end Sys2Proof.Machine
end

