-- ==== Sys2Proof/Machine/View.lean ====
section
/-! DEFINITION. What the PF's driver reads from BAR0: held registers, and the fields that follow other state (R57, R93,
R341, R458, R501, R516). -/

namespace Sys2Proof.Machine

/-- Bits of a register that read as held: WO and W1P fields read 0 (R90). -/
def readMask (a : Nat) : Nat :=
  match regRow a with
  | none => 0
  | some (row, _) => row.flds.foldl (fun m f =>
      if f.acc = .wo ∨ f.acc = .w1p then m else putBits m f.hi f.lo (2 ^ (f.hi + 1 - f.lo) - 1)) 0

/-- Admin commands of function `f` that were fetched and have not completed (FN_LOAD). -/
def Dev.backlog (d : Dev) (f : Nat) : Nat :=
  min 255 (((d.ring f).map fun x => x.fetched.length).getD 0 + (d.host.ops.filter fun o => o.ring == f).length)

/-- Milliseconds to the expiry of the host watchdog, rounded up (R501). -/
def Dev.watchdogMs (d : Dev) : Nat :=
  match d.mgmt.wdog with
  | some t => ceilDiv (t - d.tb.dt) (1000 * unitsPerUs)
  | none => 0

/-- QM_QFILL of the queue that QM_QSEL names (R341). -/
def Dev.queueFill (d : Dev) : Nat :=
  let q := d.fld Reg.QM_QSEL 13 0
  b2n (d.queueAbove q) * 2 ^ 31 + b2n ((d.queue q).frames.any QFrame.spilled) * 2 ^ 30 + (d.queue q).fill % 2 ^ 18

/-- The lower or upper word of a counter of monitor unit `u` as reading path `path` sees it (R516); `k` of 8 is the cycle
counter. -/
def Dev.pmWord (d : Dev) (path u k : Nat) (hi : Bool) : Nat :=
  if !d.pmShown path u then 0
  else if !hi then d.pmValue u k % 2 ^ 32
  else match SMap.find d.pm.latch (path * 1024 + u * 16 + k) with
    | some v => v
    | none => d.pmValue u k / 2 ^ 32

/-- The unit, the counter and whether it is the HI word, of a word of a user page at `off` (R518). -/
def userWord (off : Nat) : Option (Nat × Nat × Bool) :=
  let r := off % 96
  if 40 ≤ off / 96 ∨ 72 ≤ r then none
  else if r < 8 then some (off / 96, 8, r == 4) else some (off / 96, (r - 8) / 8, r % 8 == 4)

/-- What a register reads as: what is held, and the fields that follow other state; `held` is its held value. -/
def Dev.viewOf (d : Dev) (a held : Nat) : Nat :=
  let v := held &&& readMask a
  match regRow a with
  | none => 0
  | some (row, ix) =>
    let i := ix.headD 0
    let j := (ix.drop 1).headD 0
    let f := if a < 0x4000000 then 0 else (a - 0x4000000) / 0x1000
    if row.name = "FN_STATUS" then
      putBits (putBits (if d.negotiating f then putBits v 15 8 1 else v) 2 2 (b2n (d.stickyAny fun s => decide (2 ≤ (fcSeverity s).getD 0)))) 3 3
        (b2n (d.host.linkActive && (decide (d.host.linkRate < 160) || decide (d.host.linkWidth < 4))))
    else if row.name = "FN_LOAD" then putBits v 15 8 (d.backlog f)
    else if row.name = "PROT_EPOCH" then d.host.epoch % 2 ^ 32
    else if row.name = "WDOG_REMAINING" then d.watchdogMs
    else if row.name = "QM_QFILL" then d.queueFill
    else if row.name = "PAR_GENS" then d.par.genB % 65536 * 65536 + d.par.genA % 65536
    else if row.name = "PAR_STATE" then 2 * b2n d.par.drained + b2n d.par.activeB
    else if row.name = "PM_CYCLE_LO" then d.pmWord 0 i 8 false
    else if row.name = "PM_CYCLE_HI" then d.pmWord 0 i 8 true
    else if row.name = "PM_CNT_LO" then d.pmWord 0 i j false
    else if row.name = "PM_CNT_HI" then d.pmWord 0 i j true
    else v

/-- The bit that an alias word at offset `off` of window `w` shows (R100). -/
def Dev.aliasView (d : Dev) (w off : Nat) : Nat :=
  let k := (off - 0x80000) / 4
  match regRow (w * 0x100000 + k / 32) with
  | some (row, _) => if row.aliased && decide (k / 32 < 0x1000) then b2n (d.flag (w * 0x100000 + k / 32) (k % 32)) else 0
  | none => 0

/-- The value that a read of the 32-bit word at `a` by the PF's driver returns: firmware-only windows read 0 (R89), the PF's
user page lies in window 7 (R518), a LIVE register's staged copy 0x40000 above it (R94), alias words above that (R100). -/
def Dev.view (d : Dev) (a : Nat) : Nat :=
  let w := a / 0x100000
  let off := a % 0x100000
  if w = 50 ∨ w = 51 then 0
  else if w < 52 ∧ 0x80000 ≤ off then d.aliasView w off
  else if w = 7 ∧ 0x70000 ≤ off ∧ off < 0x71000 then
    (match userWord (off - 0x70000) with
    | some (u, k, hi) => d.pmWord 1 u k hi
    | none => 0)
  else if w < 52 ∧ 0x40000 ≤ off ∧ off < 0x7F000 then
    (match regRow (a - 0x40000) with
    | some (row, _) => if row.flds.any fun f => f.acc == .live then d.viewOf (a - 0x40000) (d.stagedReg (a - 0x40000)) else 0
    | none => 0)
  else d.viewOf a (d.reg a)

/-! ### Reads (R51, R53, R87) -/

/-- The counter that a 32-bit read samples and latches: its reading path, unit and number (R516). -/
def sampled (fn a : Nat) : Option (Nat × Nat × Nat) :=
  let page (off : Nat) : Option (Nat × Nat × Nat) := match userWord off with
    | some (u, k, false) => some (1 + fn, u, k)
    | _ => none
  if fn ≠ 0 then (if 0x2000 ≤ a ∧ a < 0x3000 then page (a - 0x2000) else none)
  else if 0x770000 ≤ a ∧ a < 0x771000 then page (a - 0x770000)
  else match regRow a with
    | some (row, ix) =>
      if row.name = "PM_CYCLE_LO" then some (0, ix.headD 0, 8)
      else if row.name = "PM_CNT_LO" then some (0, ix.headD 0, (ix.drop 1).headD 0) else none
    | none => none

/-- A 32-bit word of function `fn`'s BAR0 (R51): a VF has its control page, its claim and complete page and its user page. -/
def Dev.bar0Word (d : Dev) (fn a : Nat) : Nat :=
  if fn = 0 then d.view a
  else if a < 0x1000 then d.view (0x4000000 + fn * 0x1000 + a)
  else if a < 0x1400 then d.view (0x310000 + 0x400 * fn + (a - 0x1000))
  else if 0x2000 ≤ a ∧ a < 0x3000 then
    match userWord (a - 0x2000) with
    | some (u, k, hi) => d.pmWord (1 + fn) u k hi
    | none => 0
  else 0

/-- A 32-bit read of a word of function `fn`'s BAR0: the value, and the latch that a LO word of a counter leaves. -/
def Dev.wordRead (d : Dev) (fn a : Nat) : Dev × Nat :=
  (match sampled fn a with
    | some (path, u, k) => if d.pmShown path u then d.pmLatch path u k else d
    | none => d, d.bar0Word fn a)

/-- A read of function `fn`'s BAR0 (R87): posted writes become visible first (R53), and one of 64 bits is two, the lower
address first. -/
def Dev.bar0Read (d : Dev) (fn a size : Nat) : Dev :=
  let x := (d.flushPosted fn).wordRead fn a
  if size = 8 then
    let y := x.1.wordRead fn (a + 4)
    y.1.emit (.regData (x.2 + 2 ^ 32 * y.2))
  else x.1.emit (.regData x.2)

/-- A read of a function's wake page, BAR4: posted writes become visible, and it returns 0 (R53, R64). -/
def Dev.bar4Read (d : Dev) (fn : Nat) : Dev := (d.flushPosted fn).emit (.regData 0)

end Sys2Proof.Machine
end

