-- ==== Sys2Proof/Machine/RegExec.lean ====
section
/-! DEFINITION. The commands that are writes of registers, and the events of the Interrupt Hub. A command that the table
names for a bit of its register writes its value with that bit as its name says (DEDUCED, log entry 21). -/

namespace Sys2Proof.Machine

/-- A value with bit `b` set, and with bit `b` clear. -/
def withBit (v : W32) (b : Nat) : Nat := putBits v.toNat b b 1
def withoutBit (v : W32) (b : Nat) : Nat := putBits v.toNat b b 0

/-- A write of function `fn`'s own control page by its driver. -/
def Dev.ownPage (d : Dev) (fn off v : Nat) : Dev :=
  if fn = 0 then d.access .pf (0x100000 + off) v else d.access (.vf fn) off v

/-- A write in the page of interrupt target `k`: a VF reaches its own, at its own BAR0 (R453). -/
def Dev.pageAccess (d : Dev) (w : Writer) (k off v : Nat) : Dev :=
  if 66 ≤ k then d
  else match w with
  | .vf f => if k = f then d.access w (0x1000 + off) v else d
  | _ => d.access w (0x310000 + 0x400 * k + off) v

/-! ### Any register (R87-R102) -/

/-- REGISTER_WRITE (R87-R91). -/
def execRegisterWrite (w : Writer) (a : Nat) (v : W32) (s : State) : Host.Outcome State Fault Refusal :=
  s.keep fun d => d.access w a v.toNat

/-- A refused access of `size` bytes (R87): a NOTE fault and a count; a read returns all ones, and makes posted writes
visible as any read does (R53). -/
def Dev.sizeRefused (d : Dev) (fn size : Nat) (write : Bool) : Dev :=
  if write then d.bar0Refuse else (d.flushPosted fn).bar0Refuse.emit (.regData (2 ^ (8 * size) - 1))

/-- BAR0_REFUSED (R87, R89): an access of `size` bytes at `a` of function `fn`'s BAR0 that its size, its alignment or the
writer's level refuses. A 64-bit write is two of 32 bits; a read that nothing refuses is carried out. -/
def Dev.bar0Refused (d : Dev) (fn a size : Nat) (write : Bool) : Dev :=
  let w := a / 0x100000
  let closed (b : Nat) : Bool := fn == 0 && decide (b / 0x100000 < 52) && (b / 0x100000 == 50 || b / 0x100000 == 51 ||
    (d.fnLevel 0 == 2 && !(b / 0x100000 == 1 && decide (b % 0x100000 < 0x1000))))
  if d.pins.fatalStop && write && w != 4 then d
  else if ¬ ((size = 4 ∧ a % 4 = 0) ∨ (size = 8 ∧ a % 8 = 0)) then d.sizeRefused fn size write
  else if !write then d.bar0Read fn a size
  else
    let e := if closed a then d.bar0Refuse else d
    if size = 8 ∧ closed (a + 4) then e.bar0Refuse else e

/-- BAR0_REFUSED (R87, R89). -/
def execBar0Refused (fn a size : Nat) (write : Bool) (s : State) : Host.Outcome State Fault Refusal :=
  s.keep fun d => d.bar0Refused fn a size write

/-- ALIAS_WRITE (R100-R102). -/
def execAliasWrite (w : Writer) (a : Nat) (v : W32) (s : State) : Host.Outcome State Fault Refusal :=
  s.keep fun d => if 0x80000 ≤ a % 0x100000 then d.access w a v.toNat else d

/-- Whether an address is that of an SQC register. -/
def isSqc (a : Nat) : Bool := match regRow a with
  | some (row, _) => row.flds.any fun f => f.acc == .sqc
  | none => false

/-- SQC_CLEAR (R98, R99). -/
def execSqcClear (w : Writer) (a : Nat) (v : W32) (s : State) : Host.Outcome State Fault Refusal :=
  s.keep fun d => if isSqc a then d.access w a v.toNat else d

/-- COMMIT (R93, R96). -/
def execCommit (w : Writer) (win : Nat) (v : W32) (s : State) : Host.Outcome State Fault Refusal :=
  s.keep fun d => if win < 52 then d.access w (Reg.BLK_COMMIT win) (withBit v 0) else d

/-- DISCARD (R95). -/
def execDiscard (w : Writer) (win : Nat) (v : W32) (s : State) : Host.Outcome State Fault Refusal :=
  s.keep fun d => if win < 52 then d.access w (Reg.BLK_COMMIT win) (withBit v 1) else d

/-- BLOCK_ENABLE_SET (R92). -/
def execBlockEnableSet (w : Writer) (win : Nat) (v : W32) (s : State) : Host.Outcome State Fault Refusal :=
  s.keep fun d => if hasEnable win then d.access w (win * 0x100000) (withBit v 0) else d

/-- BLOCK_ENABLE_CLEAR (R92, R96). -/
def execBlockEnableClear (w : Writer) (win : Nat) (v : W32) (s : State) : Host.Outcome State Fault Refusal :=
  s.keep fun d => if hasEnable win then d.access w (win * 0x100000) (withoutBit v 0) else d

/-- Whether a block has no work in progress left after its ENABLE has fallen (R92 and its chapter). -/
def Dev.drained (d : Dev) (w : Nat) : Bool :=
  if w = 5 then d.dma.chans.all fun e => e.2.descs.isEmpty
  else if w = 9 then d.par.recirc.isEmpty
  else if w = 11 ∨ w = 14 ∨ w = 15 then d.qm.wire.isEmpty
  else if 28 ≤ w ∧ w < 36 then d.qm.wire.all fun x => x.port / 16 != w - 28
  else if 36 ≤ w ∧ w < 40 then (d.tile (w - 36)).jobs.all fun j => !j.running
  else true

/-- BLOCK_QUIESCED (R92). -/
def execBlockQuiesced (win : Nat) (s : State) : Host.Outcome State Fault Refusal :=
  s.keep fun d =>
    if hasEnable win && !d.enabled win && d.drained win then d.setFlag (Reg.BLK_STATE win) 2 true else d

/-! ### Time Base (R35-R39) -/

/-- TB_ENABLE_SET (R35). -/
def execTbEnableSet (w : Writer) (v : W32) (s : State) : Host.Outcome State Fault Refusal :=
  s.keep fun d => d.access w Reg.TB_CTRL (withBit v 0)

/-- TB_ENABLE_CLEAR (R35). -/
def execTbEnableClear (w : Writer) (v : W32) (s : State) : Host.Outcome State Fault Refusal :=
  s.keep fun d => d.access w Reg.TB_CTRL (withoutBit v 0)

/-- PPS_OUT_ENABLE (R38, R540). -/
def execPpsOutEnable (w : Writer) (v : W32) (s : State) : Host.Outcome State Fault Refusal :=
  s.keep fun d => d.access w Reg.TB_CTRL (withBit v 1)

/-- SNAP (R39). -/
def execSnap (w : Writer) (v : W32) (s : State) : Host.Outcome State Fault Refusal :=
  s.keep fun d => d.access w Reg.TB_SNAP_CMD (withBit v 0)

/-! ### Control pages (R57, R58) -/

/-- FN_ENABLE_SET (R57). -/
def execFnEnableSet (fn : Nat) (v : W32) (s : State) : Host.Outcome State Fault Refusal :=
  s.keep fun d => d.ownPage fn 0x10 (withBit v 0)

/-- FN_ENABLE_CLEAR (R58). -/
def execFnEnableClear (fn : Nat) (v : W32) (s : State) : Host.Outcome State Fault Refusal :=
  s.keep fun d => d.ownPage fn 0x10 (withoutBit v 0)

/-- CLR_REJECTED (R58). -/
def execClrRejected (fn : Nat) (v : W32) (s : State) : Host.Outcome State Fault Refusal :=
  s.keep fun d => d.ownPage fn 0x10 (withBit v 2)

/-! ### Ports, controllers, data protection, Bunting, monitors, faults -/

/-- LG_CNT_SNAP (R304). -/
def execLgCntSnap (w : Writer) (lg : Nat) (v : W32) (s : State) : Host.Outcome State Fault Refusal :=
  s.keep fun d => if lg < 8 then d.access w (Reg.LG_CNT_SNAP lg) (withBit v 0) else d

/-- ARM (R379, R381). -/
def execArm (w : Writer) (stack : Nat) (v : W32) (s : State) : Host.Outcome State Fault Refusal :=
  s.keep fun d => if stack < 8 then d.access w (Reg.MC_FREQ_CMD stack) (withBit v 0) else d

/-- CANCEL (R379). -/
def execCancel (w : Writer) (stack : Nat) (v : W32) (s : State) : Host.Outcome State Fault Refusal :=
  s.keep fun d => if stack < 8 then d.access w (Reg.MC_FREQ_CMD stack) (withBit v 1) else d

/-- MAP_ENABLE (R368). -/
def execMapEnable (w : Writer) (v : W32) (s : State) : Host.Outcome State Fault Refusal :=
  s.keep fun d => d.access w Reg.MAP_CTRL (withBit v 0)

/-- BUNTING_ENABLE (R408, R415). -/
def execBuntingEnable (w : Writer) (v : W32) (s : State) : Host.Outcome State Fault Refusal :=
  s.keep fun d => d.access w Reg.BUN_CTRL (withBit v 0)

/-- PM_CLEAR (R515). -/
def execPmClear (w : Writer) (unit : Nat) (v : W32) (s : State) : Host.Outcome State Fault Refusal :=
  s.keep fun d => if unit < 40 then d.access w (Reg.PM_CLEAR unit) v.toNat else d

/-- FC_MH_REARM (R466). -/
def execFcMhRearm (w : Writer) (v : W32) (s : State) : Host.Outcome State Fault Refusal :=
  s.keep fun d => d.access w Reg.FC_MH_REARM v.toNat

/-- FC_FORCE (R472). -/
def execFcForce (w : Writer) (v : W32) (s : State) : Host.Outcome State Fault Refusal :=
  s.keep fun d => d.access w Reg.FC_FORCE v.toNat

/-! ### DMA engine (R425, R427, R432, R434, R442) -/

/-- DMA_RESTART (R442): the written SEQ decides whether the clear of STOPPED takes effect. -/
def execDmaRestart (w : Writer) (v : W32) (s : State) : Host.Outcome State Fault Refusal :=
  s.keep fun d => d.access w Reg.DMA_EVENTS (withBit v 0)

/-- DMA_TIMER_WRITE (R434). -/
def execDmaTimerWrite (w : Writer) (k : Nat) (v : W32) (s : State) : Host.Outcome State Fault Refusal :=
  s.keep fun d => if k < 16 then d.access w (Reg.DMA_TIMER k) v.toNat else d

/-- DMA_SWREQ (R432). -/
def execDmaSwreq (w : Writer) (hi : Bool) (v : W32) (s : State) : Host.Outcome State Fault Refusal :=
  s.keep fun d => d.access w (if hi then Reg.DMA_SWREQ_HI else Reg.DMA_SWREQ_LO) v.toNat

/-- DMA_CHANNEL_ENABLE (R425). -/
def execDmaChannelEnable (w : Writer) (ch : Nat) (v : W32) (s : State) : Host.Outcome State Fault Refusal :=
  s.keep fun d => if ch < 64 then d.access w (Reg.DMA_CH_CFG ch) (withBit v 31) else d

/-- DMA_CHANNEL_DISABLE (R427). -/
def execDmaChannelDisable (w : Writer) (ch : Nat) (v : W32) (s : State) : Host.Outcome State Fault Refusal :=
  s.keep fun d => if ch < 64 then d.access w (Reg.DMA_CH_CFG ch) (withoutBit v 31) else d

/-! ### Interrupt Hub (R447-R457) -/

/-- CLAIM (R453). -/
def execClaim (w : Writer) (target : Nat) (v : W32) (s : State) : Host.Outcome State Fault Refusal :=
  s.keep fun d => d.pageAccess w target 0x00 v.toNat

/-- COMPLETE (R454, R455). -/
def execComplete (w : Writer) (target : Nat) (v : W32) (s : State) : Host.Outcome State Fault Refusal :=
  s.keep fun d => d.pageAccess w target 0x04 v.toNat

/-- THRESHOLD_WRITE (R448). -/
def execThresholdWrite (w : Writer) (target : Nat) (v : W32) (s : State) : Host.Outcome State Fault Refusal :=
  s.keep fun d => d.pageAccess w target 0x10 v.toNat

/-- MASK_SET (R457). -/
def execMaskSet (w : Writer) (target : Nat) (v : W32) (s : State) : Host.Outcome State Fault Refusal :=
  s.keep fun d => d.pageAccess w target 0x14 v.toNat

/-- MASK_CLR (R457). -/
def execMaskClr (w : Writer) (target : Nat) (v : W32) (s : State) : Host.Outcome State Fault Refusal :=
  s.keep fun d => d.pageAccess w target 0x18 v.toNat

/-- PEND_SET (R457). -/
def execPendSet (w : Writer) (target : Nat) (v : W32) (s : State) : Host.Outcome State Fault Refusal :=
  s.keep fun d => d.pageAccess w target 0x1C v.toNat

/-- PEND_CLR (R457). -/
def execPendClr (w : Writer) (target : Nat) (v : W32) (s : State) : Host.Outcome State Fault Refusal :=
  s.keep fun d => d.pageAccess w target 0x20 v.toNat

/-- INT_SOURCE_EVENT (R447). -/
def execIntSourceEvent (src : Nat) (s : State) : Host.Outcome State Fault Refusal :=
  s.keep fun d => d.intEdge src false

/-- INT_LEVEL_CHANGE (R447, R469). -/
def execIntLevelChange (src : Nat) (s : State) : Host.Outcome State Fault Refusal :=
  s.keep fun d => d.intFollow src

/-- MOD_MAX_EXPIRE (R451): in FATAL_STOP only source 772's notice goes (R471). -/
def execModMaxExpire (fn vec : Nat) (s : State) : Host.Outcome State Fault Refusal :=
  s.keep fun d =>
    if d.pins.fatalStop && !(d.deliverable 772 && d.intTarget 772 == fn && d.intVec 772 == vec) then d
    else d.modExpire fn vec

/-- INT_HOLD_RELEASE (R452). -/
def execIntHoldRelease (fn : Nat) (s : State) : Host.Outcome State Fault Refusal :=
  s.keep fun d => if fn < 64 then d.holdRelease fn else d

end Sys2Proof.Machine
end

