-- ==== Sys2Proof/Machine/FlrOps.lean ====
section
/-! DEFINITION. Configuration requests and Function Level Resets (spec/03_host_interface.md R54-R56, R543). -/

namespace Sys2Proof.Machine

/-! ### What a function owns is released (R55, R541) -/

/-- Whether the running standing order has made a resource (R502): kind 0 context, 1 ladder group, 2 stream, 3 buffer of
one of its segments. -/
def Dev.orderMade (d : Dev) (kind n : Nat) : Bool :=
  match d.mgmt.order with
  | none => false
  | some o => o.made.any (fun m => m.2.1 == kind && m.2.2 == n) ||
    (kind == 3 && (o.egress.any (fun e => e.seg == some n) ||
      o.made.any fun m => m.2.1 == 2 && (d.stream m.2.2).any fun st => st.ready.any fun x => x.handle == n))

/-- A flow is gone with all it holds: its operations end with FLOW_CLOSED. -/
def Dev.flowRelease (d : Dev) (f : Nat) (fl : Flow) : Dev :=
  let mine (i : Nat) : Bool := (d.op i).any fun o => flowNum o.desc == f
  let waits := d.dlv.cacheWait.filter mine
  let d1 := fl.ops.foldl (fun e i => match e.op i with
    | some o => if isSend o.desc then e.sendRelease o else e
    | none => e) d
  let d2 := if fl.state = 2 then d1 else d1.setReg Reg.FLOWS_OPEN (d1.reg Reg.FLOWS_OPEN - 1)
  let d3 := { d2 with dlv := { d2.dlv with
    flows := SMap.erase d2.dlv.flows f, cache := d2.dlv.cache.filter (· != f),
    cacheWait := d2.dlv.cacheWait.filter fun i => !mine i } }
  (fl.ops ++ waits).foldl (fun e i => e.finish i (resOf stFlowClosed)) d3

/-- A context is gone at once, with its running picture and its pending operations. -/
def Dev.ctxGone (d : Dev) (c : Nat) : Dev :=
  match d.ctx c with
  | none => d
  | some y =>
    let e := (d.ctxDestroy c d.host.nextOp y).dropJobs c true
    match e.ctx c with
    | some z => (e.ctxFree c z).endOps (fun o => o.key == keyCtx c) fun _ => resOf stDestroyed
    | none => e

/-- A ladder group is gone. -/
def Dev.groupGone (d : Dev) (g : Nat) : Dev :=
  match d.group g with
  | some y => d.groupDestroy g y
  | none => d

/-- Contexts of function `f` are released before the groups and streams they use, then its flows and buffers. -/
def Dev.releaseOwned (d : Dev) (f : Nat) : Dev :=
  let d1 := d.media.ctxs.foldl (fun e x => if x.2.fn == f && !d.orderMade 0 x.1 then e.ctxGone x.1 else e) d
  let d2 := d1.media.groups.foldl (fun e x => if x.2.fn == f && !d.orderMade 1 x.1 then e.groupGone x.1 else e) d1
  let d3 := d2.dlv.streams.foldl (fun e x =>
    if x.2.fn == f && !d.orderMade 2 x.1 then e.segRelease x.1 true else e) d2
  let d4 := d3.dlv.flows.foldl (fun e x => if x.2.fn == f then e.flowRelease x.1 x.2 else e) d3
  d4.bun.bufs.foldl (fun e x =>
    if x.2.owner == ownerFn f && x.2.state == 1 && !d.orderMade 3 x.1 then (e.free x.1 (ownerFn f) 1).1 else e) d4

/-! ### The reset of a function -/

/-- The rings and completion queues of function `f` are gone (R55). What was fetched from them completes inside the device
and writes nothing: operations that have started have no ring from here on, and fetched descriptors are orphans. -/
def Dev.ringsGone (d : Dev) (f : Nat) : Dev :=
  let gone (r : Nat) : Option Ring := (d.ring r).filter fun x => x.fn == f
  { d with host := { d.host with
      rings := d.host.rings.filter fun e => e.2.fn != f,
      cqs := d.host.cqs.filter fun e => e.2.fn != f,
      ops := d.host.ops.map fun o => match gone o.ring with
        | some x => { o with ring := noRing x.type, key := if o.key = keyRing o.ring then keyFree o.id else o.key }
        | none => o,
      orphans := d.host.orphans ++ (d.host.rings.filter fun e => e.2.fn == f).flatMap fun e =>
        e.2.fetched.map fun x => ⟨e.1, e.2.type, f, x⟩ } }

/-- Operations whose ring is gone and whose whole effect is to write host memory end: buffers for received frames, and
waits for segments. -/
def Dev.opsGone (d : Dev) : Dev :=
  let live (i : Nat) : Bool := (d.op i).any fun o => (d.ring o.ring).isSome
  let ends : List Nat := (d.qm.rxBufs.map fun b => b.2.1) ++ d.dlv.streams.flatMap fun e => e.2.waits
  { d with
    qm := { d.qm with rxBufs := d.qm.rxBufs.filter fun b => live b.2.1 },
    dlv := { d.dlv with streams := d.dlv.streams.map fun e => (e.1, { e.2 with waits := e.2.waits.filter live }) },
    host := { d.host with ops := d.host.ops.filter fun o => (d.ring o.ring).isSome || !ends.contains o.id } }

/-- The control page of a function returns to its reset values (R103). -/
def Dev.pageReset (d : Dev) (f : Nat) : Dev :=
  let mine (a : Nat) : Bool := decide (Reg.page f ≤ a) && decide (a < Reg.page f + 0x1000)
  { d with regs := d.regs.filter fun e => !mine e.1 }

/-- What PCIe and the interface keep for a function after an FLR: its protection set-up stands, all else is as after
reset. -/
def FnState.afterFlr (x : FnState) : FnState :=
  { fnReset with window := x.window, rings := x.rings, cqs := x.cqs, ctxs := x.ctxs, flows := x.flows,
                 keySlots := x.keySlots, ints := x.ints, flr := true, posted := x.posted }

/-- A Function Level Reset of function `f` begins (R55, R452, R456). -/
def Dev.flr (d : Dev) (f : Nat) : Dev :=
  let link := d.flag (Reg.FN_STATUS f) 3
  let d1 := ((d.ringsGone f).releaseOwned f).opsGone
  let d2 := (d1.setFn f (d1.fn f).afterFlr).intFlr f
  ((d2.pageReset f).setFlag (Reg.FN_STATUS f) 3 link).hoistMark

/-- VFs above `n` are removed with an FLR each (R543). -/
def Dev.vfsTo (d : Dev) (n : Nat) : Dev :=
  let d1 := (List.range 64).foldl (fun e f => if n < f ∧ f ≤ d.host.numVfs then e.flr f else e) d
  { d1 with host := { d1.host with numVfs := n } }

/-! ### Meanings -/

/-- VF_FLR (R55). -/
def execVfFlr (fn : Nat) (s : State) : Host.Outcome State Fault Refusal :=
  s.keep fun d => if 1 ≤ fn ∧ fn < 64 then d.flr fn else d

/-- PF_FLR (R56): an FLR of every function; services of a standing order run on. -/
def execPfFlr (s : State) : Host.Outcome State Fault Refusal :=
  s.keep fun d => (List.range 64).foldl (fun e f => e.flr f) d

/-- VF_FLR_COMPLETE (R54, R55): READY reads 1 again once the device is ready. -/
def execVfFlrComplete (fn : Nat) (s : State) : Host.Outcome State Fault Refusal :=
  s.keep fun d =>
    if fn < 64 ∧ (d.fn fn).flr then
      (d.setFn fn { d.fn fn with flr := false }).setFlag (Reg.FN_STATUS fn) 0 (d.bootState == 3)
    else d

/-- VF_DISABLE (R543): NumVFs falls to `n`. -/
def execVfDisable (n : Nat) (s : State) : Host.Outcome State Fault Refusal :=
  s.keep fun d => if n < d.host.numVfs then d.vfsTo n else d

/-- A configuration request that is served (R49, R50, R452, R529, R543). What a read returns is PCIe's, and the spec gives no
layout (DESIGN CHOICE, log entry 22). A size beyond those of R49 is not taken. -/
def Dev.config (d : Dev) (f : Nat) (c : CfgAccess) : Dev :=
  let x := d.fn f
  match c with
  | .read _ => (d.emit (.cfgData d.freeNat)).useFree
  | .busMaster on => d.setFn f { x with bme := on }
  | .d3hot on => d.setFn f { x with d3 := on }
  | .fnMask on => d.setFn f { x with fnMask := on }
  | .vecMask v on => if v < 32 then d.setFn f { x with vecMask := putBits x.vecMask v v (b2n on) } else d
  | .relaxedOrdering on => d.setFn f { x with roEnable := on }
  | .maxPayload n => if n ≤ 2 then d.setFn f { x with mps := n } else d
  | .maxReadReq n => if n ≤ 5 then d.setFn f { x with mrrs := n } else d
  | .msixEnable on => d.setFn f { x with msixEn := on }
  | .aspmL1 on => d.setFn f { x with aspmL1 := on }
  | .aer a v => d.setFn f { x with aer := SMap.set (fun _ => 0) x.aer a v }
  | .clearPme => (d.setFn f { x with pmeStatus := false }).pinWake
  | .numVfs n =>
    if f ≠ 0 ∨ 63 < n then d
    else if n < d.host.numVfs then d.vfsTo n
    else { d with host := { d.host with numVfs := n } }
  | .other _ _ => d

/-- CONFIG_REQUEST (R54): Request Retry Status until the device is ready; also served in FATAL_STOP (R471). -/
def execConfigRequest (fn : Nat) (c : CfgAccess) (s : State) : Host.Outcome State Fault Refusal :=
  s.keep fun d =>
    if !d.host.ready then d.emit .cfgRetry
    else if d.host.numVfs < fn then d
    else d.config fn c

end Sys2Proof.Machine
end

