-- ==== Sys2Proof/Machine/OrderOps.lean ====
section
/-! DEFINITION. Standing orders (spec/21_management_security.md R499-R503). -/

namespace Sys2Proof.Machine

/-! ### The image (R499) -/

/-- An entry: its index, its bytes, and whether its format is right. -/
structure SoEntry where
  idx : Nat
  data : List Byte
  ok : Bool
  deriving DecidableEq, Repr

def SoEntry.type (x : SoEntry) : Nat := recNum x.data 0 1
def SoEntry.channel (x : SoEntry) : Nat := recNum x.data 1 1
def SoEntry.desc (x : SoEntry) : Desc := BitVec.ofNat 512 (recNum x.data 4 64)

/-- An entry's own format: TYPE, CHANNEL and a size that holds its body. -/
def entryOk (b : List Byte) : Bool :=
  let need := [0, 16, 68, 58].getD (recNum b 0 1) 0
  decide (0 < need) && decide (need ≤ b.length) && (decide (recNum b 1 1 < 32) || recNum b 1 1 == 255)

/-- The entries of an order; each starts on a 4-byte boundary. -/
def soParse : Nat → Nat → List Byte → List SoEntry
  | _, _, [] => []
  | 0, i, b => [⟨i, b, false⟩]
  | n + 1, i, b =>
    let z := recNum b 2 2
    if z < 4 ∨ b.length < z then [⟨i, b, false⟩]
    else ⟨i, b.take z, entryOk (b.take z)⟩ :: soParse n (i + 1) (b.drop ((z + 3) / 4 * 4))

/-- The entries of a stored image. -/
def soEntries (img : List Byte) : List SoEntry := soParse 4096 0 ((img.take (recNum img 12 4)).drop 128)

/-- The order that an image holds. -/
def orderOf (img : List Byte) : Order :=
  { image := img, id := recNum img 8 4, triggers := recNum img 6 1,
    ranges := (List.range 6).map fun k => (recNum img (16 + 8 * k) 4, recNum img (20 + 8 * k) 4),
    made := [], egress := [], dropped := 0 }

/-! ### The checks of SO_STORE (R500) -/

/-- The header's format, in an image of `n` bytes with its signature. -/
def soHeader (img : List Byte) (n : Nat) : Bool :=
  decide (640 ≤ n) && decide (n ≤ 1048576) && recNum img 0 4 == 0x4F535844 && recNum img 4 2 == 1 &&
  decide (recNum img 6 1 < 4) && recNum img 7 1 == 0 && recNum img 12 4 + 512 == n && zeroBytes img 64 64

/-- Windows that a REG entry may name. -/
def soWindow (w : Nat) : Bool := (9 ≤ w ∧ w ≤ 14) ∨ (16 ≤ w ∧ w ≤ 23) ∨ (28 ≤ w ∧ w ≤ 39)

/-- The ring type of a descriptor that a DESC entry may hold; 255 for another. -/
def soType (x : Desc) : Nat :=
  [(0x20, 0), (0x22, 0), (0x26, 0), (0x50, 1), (0x60, 3)].lookup (opcodeOf x) |>.getD 255

/-- Whether an entry's window or opcode is one of R499's. -/
def SoEntry.known (x : SoEntry) : Bool :=
  if x.type = 1 then soWindow (recNum x.data 4 2)
  else if x.type = 2 then soType x.desc != 255 else true

/-- The numbers that an entry names, each with the range it must lie in (R499). -/
def SoEntry.names (x : SoEntry) : List (Nat × Nat) :=
  if x.type = 3 then [(2, recNum x.data 4 2), (4, recNum x.data 8 2)]
  else if x.type = 1 then
    match regRow (recNum x.data 4 2 * 0x100000 + recNum x.data 8 4) with
    | some (row, i :: _) =>
      if row.name = "INGEST_CFG0" ∨ row.name = "INGEST_CFG1" then [(3, i)]
      else if row.name = "QUEUE_CFG" ∨ row.name = "QUEUE_WM" ∨ row.name = "QUEUE_LIMIT" ∨ row.name = "HOIST_WEIGHT" then
        [(4, i)]
      else []
    | _ => []
  else
    let y := x.desc
    match opcodeOf y with
    | 0x20 =>
      let n := newCtx y
      [(0, n.ctx)] ++ (if n.grouped then [(1, n.group)] else []) ++
      (if n.kind = 1 ∧ n.output = 1 then [(2, n.stream)] else []) ++
      if n.kind = 0 ∧ n.ingest ≠ 0xFFFFFFFF then [(3, n.ingest)] else []
    | 0x22 => [(1, Desc.field y 8 8 0)] ++ if Desc.byte y 10 = 0 then [(0, Desc.le y 12 2)] else []
    | 0x26 => [(0, ctxNum y)]
    | 0x50 => [(2, streamNum y)]
    | 0x60 => (List.range (lengthOf y)).map fun i => (5, Desc.field y 8 11 0 + i)
    | _ => []

/-- Whether every number that an entry names lies in its range. -/
def SoEntry.inRanges (x : SoEntry) (o : Order) : Bool := x.names.all fun e => (o.range e.1).has e.2

/-- The first entry that fails a check. -/
def soFails (l : List SoEntry) (p : SoEntry → Bool) : Option Nat := (l.find? fun x => !p x).map SoEntry.idx

/-- What refuses an image of `n` bytes: the entry index, 0xFFFF for the header. The checks in the order of R500. -/
def Dev.soBad (d : Dev) (img : List Byte) (n : Nat) : Option Nat :=
  let t := n - 512
  if !d.ownerSigned (img.take t) (img.drop t) then some 0xFFFF
  else if !soHeader img n then some 0xFFFF
  else
    let l := soEntries img
    let o := orderOf img
    let groups := (l.filter fun x => x.type == 2 && opcodeOf x.desc == 0x22).drop 32
    match soFails l SoEntry.ok with
    | some i => some i
    | none => match soFails l SoEntry.known with
      | some i => some i
      | none => match soFails l (fun x => x.inRanges o) with
        | some i => some i
        | none => match groups.head? with
          | some x => some x.idx
          | none => match soFails l (fun x => x.type != 2 || opcodeOf x.desc != 0x50 || Desc.byte x.desc 10 == 2) with
            | some i => some i
            | none => if d.host.fns.any fun f => o.meetsCtxs f.2.ctxs then some 0xFFFF else none

/-- SO_STATUS.STATE. -/
def Dev.soState (d : Dev) : Nat := d.fld Reg.SO_STATUS 1 0
def Dev.setSoState (d : Dev) (x : Nat) : Dev := d.setFld Reg.SO_STATUS 1 0 x

/-- The order replaced. -/
def Dev.setOrder (d : Dev) (o : Option Order) : Dev := { d with mgmt := { d.mgmt with order := o } }

/-- SO_STORE (R500). -/
def execSoStore (o : RingOp) (s : State) : Host.Outcome State Fault Refusal :=
  s.act fun d => d.runAdmin o levelOne (fun x => noLength x && zeroAt x 8 4 && zeroAt x 24 40) fun e op =>
    let n := Desc.le op.desc 12 4
    if n = 0 then (e, resOf stZero)
    else if e.soState = 2 then (e, resOf stSoState)
    else if e.mgmt.ownerKey.isNone then (e, resOf stSigFail)
    else
      let img := e.hostRead (addrOf op.desc) (min n 1048577)
      let e1 := e.opRead op img.length
      match e.soBad img n with
      | some i => (e1, ⟨stSoBad, 0, i, 0⟩)
      | none => (((e1.setOrder (some (orderOf img))).setSoState 1).extend 4 (digest img), resOf stOk)

/-! ### Destroying what a channel has made (R502, R503) -/

/-- Rules `l` go from the active or the inactive set. -/
def Dev.rulesGone (d : Dev) (active : Bool) (l : List Nat) : Dev :=
  let b := if active then d.par.activeB else !d.par.activeB
  if l.isEmpty then d else d.setRules b (l.foldl (fun m i => SMap.set (fun _ => ruleReset) m i ruleReset) (d.ruleSet b))

/-- Everything that the channels chosen by `p` have created goes: contexts first, then groups, streams, rules and
egress. -/
def Dev.orderDestroy (d : Dev) (active : Bool) (p : Nat → Bool) : Dev :=
  match d.mgmt.order with
  | none => d
  | some o =>
    let l := o.made.filter fun m => p m.1
    let of_ (k : Nat) : List Nat := (l.filter fun m => m.2.1 == k).map fun m => m.2.2
    let d1 := (of_ 2).foldl (fun e x => e.segRelease x true)
      ((of_ 1).foldl Dev.groupGone ((of_ 0).foldl Dev.ctxGone d))
    let segs := (o.egress.filter fun e => p e.channel).filterMap Egress.seg
    let d2 := (segs.foldl (fun e h => (e.free h (ownerFn 0) 1).1) d1).rulesGone active (of_ 4)
    d2.setOrder (some { o with made := o.made.filter fun m => !p m.1, egress := o.egress.filter fun e => !p e.channel })

/-! ### Carrying out the entries (R502) -/

/-- A resource made for a channel. -/
def Dev.soMade (d : Dev) (c kind n : Nat) : Dev :=
  d.setOrder (d.mgmt.order.map fun o => { o with made := o.made ++ [(c, kind, n)] })

/-- A REG entry, as Ndelia firmware writes it: it fails if the write is refused. -/
def Dev.soReg (d : Dev) (x : SoEntry) : Dev × Bool :=
  let w := recNum x.data 4 2
  let a := Reg.BLK_STATUS w
  let old := d.reg a
  let e := (d.setFlag a 0 false).access .firmware (w * 0x100000 + recNum x.data 8 4) (recNum x.data 12 4)
  let bad := e.flag a 0 || e.reg Reg.GLB_BAR0_REFUSED != d.reg Reg.GLB_BAR0_REFUSED
  (if bit old 0 then e.setReg a old else e, !bad)

/-- The operation under which firmware runs a descriptor, at level 0 for function 0. -/
def Dev.soOp (d : Dev) (x : Desc) : Op :=
  ⟨d.host.nextOp, noRing (soType x), 0, 0, 2, d.host.epoch, keyRing (noRing (soType x)), x, [], none, d.tb.dt⟩

/-- A DESC entry; its address fields are offsets into the order. Its header is judged as that of any descriptor (R8, R68). -/
def Dev.soDesc (d : Dev) (img : List Byte) (c : Nat) (y : Desc) : Dev × Bool :=
  let op := d.soOp y
  let part (a n : Nat) : List Byte := (img.drop a).take n
  if frameStatus 2 y [] ≠ 0 then (d, false)
  else match opcodeOf y with
  | 0x20 => let r := d.contextRun op
    if r.2.status = 0 then (r.1.soMade c 0 (newCtx y).ctx, true) else (r.1, false)
  | 0x22 => let r := d.groupRun op
    if r.2.status = 0 then (r.1.soMade c 1 (Desc.field y 8 8 0), true) else (r.1, false)
  | 0x26 => let r := d.rateRun op
    (r.1, r.2.status == 0)
  | 0x50 =>
    let a := Desc.le y 52 8
    let n := Desc.le y 60 2
    let r := d.streamRun op (part a n) (when_ (decide (img.length < a + n)) stProt)
    if r.2.status = 0 then (r.1.soMade c 2 (streamNum y), true) else (r.1, false)
  | 0x60 =>
    let l := (List.range (lengthOf y)).map fun i => ruleOf (part (Desc.le y 16 8 + 144 * i) 144)
    let st := d.gate op 3 false false (rulesFormat y) true
    let r := d.rulesWrite y l
    if st = 0 ∧ l ≠ [] ∧ r.2.status = 0 ∧ Desc.le y 16 8 + 144 * lengthOf y ≤ img.length then
      ((List.range (lengthOf y)).foldl (fun e i => e.soMade c 4 (Desc.field y 8 11 0 + i)) r.1, true)
    else (d, false)
  | _ => (d, false)

/-- An EGRESS entry. -/
def Dev.soEgress (d : Dev) (c : Nat) (x : SoEntry) : Dev :=
  let e : Egress := ⟨c, recNum x.data 4 2, recNum x.data 6 1, recNum x.data 8 2, recNum x.data 12 4,
    (x.data.drop 16).take 42, none, 0, d.tb.dt⟩
  d.setOrder (d.mgmt.order.map fun o => { o with egress := o.egress ++ [e] })

/-- One entry: whether it was carried out. -/
def Dev.soEntry (d : Dev) (img : List Byte) (x : SoEntry) : Dev × Bool :=
  if x.type = 1 then d.soReg x
  else if x.type = 2 then d.soDesc img x.channel x.desc
  else (d.soEgress x.channel x, true)

/-- Entries in order up to the first that fails, which is answered. -/
def Dev.soRun (d : Dev) (img : List Byte) : List SoEntry → Dev × Option Nat
  | [] => (d, none)
  | x :: r =>
    let y := d.soEntry img x
    if y.2 then y.1.soRun img r else (y.1, some x.idx)

/-- A failed entry is reported (R502). -/
def Dev.soFailed (d : Dev) (i : Nat) : Dev := (d.setEvent Reg.MGMT_EVENTS 4).raise 513 i

/-- The entries of one channel: it runs, or all it has made is destroyed. -/
def Dev.soChannel (d : Dev) (img : List Byte) (l : List SoEntry) (c : Nat) : Dev :=
  let mine := l.filter fun x => x.channel == c
  if mine.isEmpty then d
  else
    let y := d.soRun img mine
    match y.2 with
    | none => y.1.setFlag Reg.SO_CHANNELS c true
    | some i => (y.1.orderDestroy false (· == c)).soFailed i

/-- The order ends: everything it has made is destroyed, and it is STORED again. -/
def Dev.orderStop (d : Dev) (active : Bool) : Dev :=
  ((d.orderDestroy active fun _ => true).setSoState 1).setReg Reg.SO_CHANNELS 0

/-- A trigger with bit `k` fires (R502): a running order is left alone. -/
def Dev.trigger (d : Dev) (k : Nat) : Dev :=
  match d.mgmt.order with
  | none => d
  | some o =>
    if d.soState = 2 ∨ !bit o.triggers k then d
    else
      let l := soEntries o.image
      let d1 := (d.setSoState 2).setEvent Reg.MGMT_EVENTS 3
      let y := d1.soRun o.image (l.filter fun x => x.channel == 255)
      match y.2 with
      | some i => (y.1.orderStop false).soFailed i
      | none =>
        let d2 := (List.range 32).foldl (fun e c => e.soChannel o.image l c) y.1
        if l.any fun x => x.type == 2 && opcodeOf x.desc == 0x60 then d2.rulesSwap.1 else d2

/-! ### Meanings -/

/-- HOST_WATCHDOG (R501). The order is not started in FATAL_STOP. -/
def execHostWatchdog (s : State) : Host.Outcome State Fault Refusal :=
  s.keep fun d => match d.mgmt.wdog with
    | none => d
    | some t =>
      if d.mgmt.restarting then d
      else
        let e := d.advanceTo t
        let e1 := (({ e with mgmt := { e.mgmt with wdog := none } }).setEvent Reg.MGMT_EVENTS 2).raise 512 0
        if e1.pins.fatalStop then e1 else e1.trigger 1

/-- HOST_WAIT_EXPIRY (R502): HOST_WAIT_S after READY, if no function has completed NEGOTIATE. -/
def execHostWaitExpiry (s : State) : Host.Outcome State Fault Refusal :=
  s.act fun d => match d.mgmt.readyAt with
    | none => d
    | some t =>
      if d.mgmt.hostSeen || d.mgmt.restarting then d
      else
        let e := d.advanceTo (t + d.mgmt.waitS * unitsPerSec)
        ({ e with mgmt := { e.mgmt with readyAt := none } }).trigger 0

/-- The format of an SO_CONTROL (R503). -/
def soControlFormat (x : Desc) : Bool := noLength x && zeroAt x 9 55

/-- SO_CONTROL with ACTION `a` acts; any other case completes with SO_STATE (R503). -/
def Dev.soControl (d : Dev) (a : Nat) : Dev × Result :=
  if a = 0 ∧ d.soState = 2 then (d.orderStop true, resOf stOk)
  else if a = 1 ∧ d.soState = 2 then (((d.setOrder none).setSoState 0).setReg Reg.SO_CHANNELS 0, resOf stOk)
  else if a = 2 ∧ d.soState = 1 then ((d.setOrder none).setSoState 0, resOf stOk)
  else (d, resOf stSoState)

/-- SO_STOP (R503): ACTION 0. -/
def execSoStop (o : RingOp) (s : State) : Host.Outcome State Fault Refusal :=
  s.act fun d => d.runAdmin o levelOne soControlFormat fun e op => e.soControl (Desc.byte op.desc 8)

/-- SO_ADOPT (R503): ACTION 1. -/
def execSoAdopt (o : RingOp) (s : State) : Host.Outcome State Fault Refusal :=
  s.act fun d => d.runAdmin o levelOne soControlFormat fun e op => e.soControl (Desc.byte op.desc 8)

/-- SO_CLEAR (R503): ACTION 2. -/
def execSoClear (o : RingOp) (s : State) : Host.Outcome State Fault Refusal :=
  s.act fun d => d.runAdmin o levelOne soControlFormat fun e op => e.soControl (Desc.byte op.desc 8)

/-! ### Egress (R502) -/

/-- An egress entry replaced. -/
def Dev.putEgress (d : Dev) (i : Nat) (x : Egress) : Dev :=
  d.setOrder (d.mgmt.order.map fun o => { o with egress := o.egress.set i x })

/-- The datagram with `p` as its payload: IP lengths and checksum filled, UDP checksum 0. -/
def datagram (tmpl p : List Byte) : List Byte :=
  let eth := tmpl.take 14
  let ip0 := (tmpl.drop 14).take 2 ++ beBytes 2 (28 + p.length) ++ (tmpl.drop 18).take 6 ++ [0, 0] ++ (tmpl.drop 26).take 8
  let ip := ip0.take 10 ++ beBytes 2 (inetSum (sum16 ip0)) ++ ip0.drop 12
  eth ++ ip ++ (tmpl.drop 34).take 4 ++ beBytes 2 (8 + p.length) ++ [0, 0] ++ p

/-- The entry's next segment: the oldest sealed one of its stream. -/
def Dev.egressSeg (d : Dev) (x : Egress) : Dev × Option Nat :=
  match x.seg with
  | some h => (d, some h)
  | none => match d.stream x.stream with
    | none => (d, none)
    | some st => match st.ready.dropWhile fun r => r.record.isEmpty with
      | [] => (d, none)
      | r :: l => (d.setStream x.stream { st with ready := l }, some r.handle)

/-- SO_EGRESS_DATAGRAM (R502): entry `i` sends its next datagram of at most 7 TS packets; after the last of a segment the
segment is dropped. -/
def execSoEgressDatagram (i : Nat) (s : State) : Host.Outcome State Fault Refusal :=
  s.act fun d =>
    match d.mgmt.order.bind fun o => o.egress[i]? with
    | none => d
    | some x =>
      if d.soState ≠ 2 ∨ d.mgmt.restarting ∨ x.rate = 0 then d
      else
        let y := d.egressSeg x
        match y.2 with
        | none => d
        | some h =>
          let n := min 1316 (y.1.segBytes h - x.sent)
          let e := y.1.advanceTo x.nextAt
          let bufs := e.segBufs h
          let p := (e.chainSpans (segUnit (e.segBytes h) bufs.length) bufs (256 + x.sent) n).flatMap fun a =>
            e.dataRead a.1 a.2
          let f := datagram x.template p
          if !e.egressBound x.queue x.port then d
          else if e.egressRoom x.queue f.length = false then d
          else
            let e1 := e.putFrame x.queue
              { id := 0, data := f, ingress := none, rxDt := 0, meta_ := [], spilled := false, op := none, flow := none }
            let x1 := { x with sent := x.sent + n, seg := some h,
                               nextAt := max x.nextAt e.tb.dt + n * 8 * unitsPerSec / (x.rate * 1000) }
            (if e.segBytes h ≤ x.sent + n then
              (e1.putEgress i { x1 with seg := none, sent := 0 }).free h (ownerFn 0) 1 |>.1
            else e1.putEgress i x1).hoistMark

end Sys2Proof.Machine
end

