-- ==== Sys2Proof/Machine/ResetOps.lean ====
section
/-! DEFINITION. Resets, start-up and the expiry of times outside the device's own engines (spec/04_register_behaviour.md
R103, R104; spec/21_management_security.md R481-R485, R504, R507; spec/23_pins_power_package.md R534-R538; R20, R439). -/

namespace Sys2Proof.Machine

/-! ### Entering reset (R103, R104, R535, R536) -/

/-- What a register holds after a warm reset: kept fields keep their values, all else returns to its reset value. -/
def keptValue (a : Nat) (v : W32) : W32 :=
  match regRow a with
  | none => regReset a
  | some (row, _) => BitVec.ofNat 32 (row.flds.foldl
      (fun r f => if f.kept then putBits r f.hi f.lo (bits v.toNat f.hi f.lo) else r) (regReset a).toNat)

/-- The register file after a warm reset. -/
def keptRegs (m : SMap W32) : SMap W32 :=
  m.filterMap fun e => if keptValue e.1 e.2 = regReset e.1 then none else some (e.1, keptValue e.1 e.2)

/-- A stored order that does not run. -/
def Order.idle (o : Order) : Order := { o with made := [], egress := [], dropped := 0 }

/-- The flash contents and fuses, which no reset changes (R483, R486). -/
def Mgmt.flash (m : Mgmt) : Mgmt :=
  { devReset.mgmt with slotA := m.slotA, slotB := m.slotB, ownerKey := m.ownerKey, config := m.config,
                       order := m.order.map Order.idle, fuses := m.fuses }

/-- The pins and the AON domain in reset: every output in its reset state (R531), the inputs as they stand. -/
def Pins.held (p : Pins) : Pins :=
  { devReset.pins with porN := p.porN, perstN := p.perstN, sysResetN := p.sysResetN, pinStraps := p.pinStraps,
                       inReset := true, thermalHold := p.thermalHold, internal := p.internal, dreq := p.dreq,
                       jtagIr := p.jtagIr, bsr := p.bsr }

/-- A reset of cause `cause` begins, or joins the one under way, whose cause then stands (R536). Host memory, the flash
and what the device has put out stay. -/
def Dev.resetTo (d : Dev) (power : Bool) (cause : Nat) : Dev :=
  let first := if d.pins.inReset then d.fld Reg.GLB_RESET 3 0 else cause
  let count := if power then 0
    else if d.pins.inReset then d.fld Reg.GLB_RESET 31 16 else min 65535 (d.fld Reg.GLB_RESET 31 16 + 1)
  let e := { devReset with
    regs := if power then [] else keptRegs d.regs
    hostMem := d.hostMem
    fc := { devReset.fc with flashLog := d.fc.flashLog, flashSeq := d.fc.flashSeq }
    mgmt := d.mgmt.flash
    pins := d.pins.held
    freeCtr := d.freeCtr
    out := d.out }
  (e.setReg Reg.GLB_RESET (count * 65536 + first)).setReg Reg.GLB_STRAPS (d.reg Reg.GLB_STRAPS)

/-- A warm reset held inside the device: causes 3, 6 and 7 (R535, R538). -/
def Dev.internalReset (d : Dev) (cause : Nat) : Dev :=
  ({ d with pins := { d.pins with internal := true } }).resetTo false cause

/-- POWER_ON_RESET (R103, R535): POR low, cause 1, or VDD_AON out of limits, cause 2. The board holds POR low in both cases
(R533). -/
def execPowerOnReset (vdd : Bool) (straps : Nat) (s : State) : Host.Outcome State Fault Refusal :=
  s.raw fun d =>
    let p := { d.pins with porN := false, pinStraps := straps % 256, thermalHold := false, internal := false }
    ({ d with pins := p }).resetTo true (if vdd then 2 else 1)

/-- WARM_RESET (R103, R535): PERST_N (4) or SYS_RESET_N (5) low for at least 1 µs, or a reset inside the device. -/
def execWarmReset (cause : Nat) (s : State) : Host.Outcome State Fault Refusal :=
  s.raw fun d =>
    if cause = 4 then ({ d with pins := { d.pins with perstN := false } }).resetTo false 4
    else if cause = 5 then ({ d with pins := { d.pins with sysResetN := false } }).resetTo false 5
    else if cause = 6 ∨ cause = 7 then d.internalReset cause
    else d

/-- RESET_DELAY_EXPIRE (R507): 10 ms after RESET's completion. -/
def execResetDelayExpire (s : State) : Host.Outcome State Fault Refusal :=
  s.raw fun d =>
    match d.mgmt.resetDue with
    | none => d
    | some t => if d.pins.inReset then d else (d.advanceTo t).internalReset 6

/-- SMB_RESET (R489): port 0, byte 0xA5. -/
def execSmbReset (port b : Nat) (s : State) : Host.Outcome State Fault Refusal :=
  s.raw fun d => if port = 0 ∧ b = 0xA5 ∧ d.pins.inReset = false then d.internalReset 7 else d

/-- THERMAL_HOLD (R538): every block except AON is held in warm reset. -/
def execThermalHold (s : State) : Host.Outcome State Fault Refusal :=
  s.raw fun d =>
    if !d.pins.porN || d.pins.thermalHold then d
    else ({ d with pins := { d.pins with thermalHold := true } }).resetTo false 3

/-! ### Leaving reset (R534, R485) -/

/-- Whether the boot ROM accepts a slot. An image placed at manufacture has no bytes here: DEVICE_READY says what start-up
made of it (DESIGN CHOICE, log entry 24). -/
def Dev.slotOk (d : Dev) (x : FwSlot) : Bool := x.image.isEmpty || d.fwCheck x == 0

/-- The slot in TRIAL, as slot B or not. -/
def Dev.trialSlot (d : Dev) : Option Bool :=
  if d.mgmt.slotA.state = 2 then some false else if d.mgmt.slotB.state = 2 then some true else none

def Dev.slot (d : Dev) (b : Bool) : FwSlot := if b then d.mgmt.slotB else d.mgmt.slotA
def Dev.setSlot (d : Dev) (b : Bool) (x : FwSlot) : Dev :=
  { d with mgmt := if b then { d.mgmt with slotB := x } else { d.mgmt with slotA := x } }

/-- A trial slot takes one of its attempts; spent, it becomes VALID and FW_REVERTED raises (R485). -/
def Dev.trialAttempt (d : Dev) : Dev :=
  match d.trialSlot with
  | none => d
  | some b =>
    let x := d.slot b
    if x.tries = 0 then ((d.setSlot b { x with state := 1 }).setEvent Reg.MGMT_EVENTS 1).raise 514 0
    else d.setSlot b { x with tries := x.tries - 1 }

/-- The boot ROM chooses a slot (R485): none where neither passes. -/
def Dev.chooseSlot (d : Dev) : Option Bool :=
  let b := match d.trialSlot with
    | some b => b
    | none => d.mgmt.slotB.state == 3
  let o := d.slot (!b)
  if d.slotOk (d.slot b) then some b
  else if (o.state = 1 ∨ o.state = 3) ∧ d.slotOk o then some (!b) else none

/-- The boot ROM starts, reads the fuses and chooses a slot (R481, R485). -/
def Dev.boot (d : Dev) : Dev :=
  let d1 := (d.setFld Reg.MGMT_BOOT 22 16 d.mgmt.fuses).trialAttempt
  match d1.chooseSlot with
  | none => ((d1.setFld Reg.MGMT_BOOT 15 8 1).setFld Reg.MGMT_BOOT 2 0 5).pinAlert
  | some b =>
    ((d1.setFlag Reg.MGMT_BOOT 3 b).setFlag Reg.MGMT_BOOT 4 ((d1.slot b).state == 2)).setFld Reg.MGMT_BOOT 2 0 1

/-- The device leaves reset if nothing holds it there (R534, R538): the kept sticky bits drive FAULT_N again (R468). -/
def Dev.tryRelease (d : Dev) : Dev :=
  if d.pins.porN && d.pins.sysResetN && d.pins.perstN && !d.pins.thermalHold && !d.pins.internal then
    ({ d with pins := { d.pins with inReset := false } }).pinFault.boot
  else d

/-- RESET_RELEASE (R534, R526): the levels of the reset inputs; straps are sampled when POR rises, and a reset held inside
the device has run its 10 µs. -/
def execResetRelease (p : ReleasePins) (s : State) : Host.Outcome State Fault Refusal :=
  s.raw fun d =>
    if !d.pins.inReset then d
    else
      let d1 := if !d.pins.porN && p.por then d.setReg Reg.GLB_STRAPS d.pins.pinStraps else d
      ({ d1 with pins := { d1.pins with porN := p.por, sysResetN := p.sysReset, perstN := p.perst,
                                        internal := false } }).tryRelease

/-- THERMAL_HOLD_EXIT (R538): every sensor, in °C, reads below 100. -/
def execThermalHoldExit (temps : List Int) (s : State) : Host.Outcome State Fault Refusal :=
  s.raw fun d =>
    if d.pins.thermalHold && temps.all (fun t => decide (t < 100)) then
      ({ d with pins := { d.pins with thermalHold := false } }).tryRelease
    else d

/-! ### Start-up (R403, R474, R481, R482, R504) -/

/-- A failed rank takes a spare at once, without a copy, or enters HALF_MAST (R403). -/
def Dev.reapplyRank (d : Dev) (rank : Nat) : Dev :=
  if d.rankState rank ≠ 0 then d
  else match d.chooseSpare rank with
    | none => d.halfMast rank
    | some sp =>
      let d1 := (List.range 32).foldl (fun x i =>
        if x.flag (Reg.RANK_MAP i) 5 && x.fld (Reg.RANK_MAP i) 4 0 == rank then
          (let y := x.setFld (Reg.RANK_MAP i) 4 0 sp
           if sp / 8 = i / 8 then y else y.setFlag Reg.MAP_STATUS 0 true) else x) d
      ((d1.setRankState rank 3).setRankState sp 0).spareRegs

/-- A standing record takes effect again (R403, R475). -/
def Dev.reapplyRecord (d : Dev) (x : LogRec) : Dev :=
  let b := x.data.drop 16
  let at_ (k : Nat) : Nat := (b.getD k 0).toNat
  match (x.data.getD 1 0).toNat with
  | 3 => (d.retirePage (leNum (b.take 8))).1
  | 4 => (d.retireBank (at_ 0) (at_ 1) (at_ 2)).1
  | 5 => (d.declareErasure (at_ 0) (at_ 1)).1
  | 6 => d.reapplyRank (at_ 0)
  | _ => d

/-- The standing set takes effect, failed ranks first; it is in the log already and writes no records. -/
def Dev.reapplyLog (d : Dev) : Dev :=
  let set := d.fc.flashLog.filter LogRec.standing
  let rank (x : LogRec) : Bool := x.data.getD 1 0 == 6
  let e0 := { d with fc := { d.fc with flashLog := [], flashWait := [] } }
  let e := (set.filter rank ++ set.filter fun x => !rank x).foldl Dev.reapplyRecord e0
  { e with fc := { e.fc with ramLog := d.fc.ramLog, ramSeq := d.fc.ramSeq, flashLog := d.fc.flashLog,
                             flashWait := d.fc.flashWait } }

/-- After-reset records of the kept fault state, after a warm reset (R474). -/
def Dev.afterResetLog (d : Dev) : Dev :=
  if d.fld Reg.GLB_RESET 31 16 = 0 then d
  else ((d.stickyRecords true).foldl (fun e x => e.logRam 1 x.1 x.2 true) d).usedBySticky

/-- The record of a start-up (R475). -/
def Dev.bootLog (d : Dev) : Dev :=
  d.logRam 7 (dtStamp d.tb.dt)
    (leBytes 4 d.mgmt.fwVersion ++ leBytes 1 (d.fld Reg.GLB_RESET 3 0) ++ leBytes 1 (d.fld Reg.MGMT_BOOT 3 3) ++
      leBytes 10 0) false

/-- Start-up fails (R482): Request Retry Status ends, READY stays 0. -/
def Dev.startFail (d : Dev) (state cause : Nat) : Dev :=
  let e := (d.setFld Reg.MGMT_BOOT 15 8 cause).setFld Reg.MGMT_BOOT 2 0 state
  ({ e with host := { e.host with ready := true } }).pinAlert

/-- Header of the running image: FW_VERSION and MIN_PATCH_SV, and its embedded patch. -/
def Dev.runningImage (d : Dev) (b : BootInfo) : Nat × Nat × List Byte × List Byte :=
  let x := d.slot (d.flag Reg.MGMT_BOOT 3)
  let h := x.read 0 128
  if x.image.isEmpty then (b.fwVersion, b.minPatchSv, b.patch, Config.factoryImage)
  else (recNum h 8 4, recNum h 16 4, x.patchImage, x.read 0 (128 + recNum h 20 4 + 512))

/-- Measurements of a start-up (R504). -/
def Dev.measureStart (d : Dev) (image : List Byte) : Dev :=
  let opt (e : Dev) (k : Nat) (l : Option (List Byte)) : Dev := match l with
    | some b => e.extend k (digest b)
    | none => e
  let d1 := (d.extend 0 Config.bootRomDigest).extend 1 (digest image)
  let d2 := opt (opt (opt d1 3 d.mgmt.config) 4 (d.mgmt.order.map Order.image)) 5 d.mgmt.ownerKey
  d2.extend 6 (digest (Config.fuseBytes d.mgmt.fuses (d.flag Reg.GLB_STRAPS 0)))

/-- The patch in the image is applied to every SXE (R218). -/
def Dev.patchStart (d : Dev) (b : List Byte) : Dev :=
  if b.isEmpty then d
  else
    let e := ({ d with media := { d.media with patch := some (patchOfImage b) } }).extend 2 (digest b)
    let id := if patchBody b = 0 then 0 else recNum b 8 4
    (List.range 4).foldl (fun x t => (x.setReg (Reg.SXE_PATCH t) id).setEvent (Reg.SXE_EVENTS t) 4) e

/-- ENABLE of a window set by Ndelia firmware. -/
def Dev.enableWin (d : Dev) (w a : Nat) : Dev := d.ctrlStored w a (d.reg a) (putBits (d.reg a) 0 0 1)

/-- The firmware slots at READY (R485): a TRIAL slot that runs becomes ACTIVE, and the ACTIVE one VALID. -/
def Dev.settleSlots (d : Dev) : Dev :=
  let b := d.flag Reg.MGMT_BOOT 3
  if (d.slot b).state = 2 then
    let o := d.slot (!b)
    let e := (d.setSlot b { d.slot b with state := 3, tries := 0 }).setSlot (!b)
      { o with state := if o.state = 3 then 1 else o.state }
    e.setFlag Reg.MGMT_BOOT 4 false
  else d

/-- READY in every function, and the end of Request Retry Status (R54, R481). HOST_WAIT_S without a stored record is a
free value. -/
def Dev.declareReady (d : Dev) : Dev :=
  let d1 := (List.range 64).foldl (fun e f => e.setFlag (Reg.FN_STATUS f) 0 true) d
  let d2 := d1.setFld Reg.MGMT_BOOT 2 0 3
  let d3 := if d2.mgmt.order.isSome then d2.setFld Reg.SO_STATUS 1 0 1 else d2
  let wait := match d3.mgmt.config with
    | some r => recNum r 10 1
    | none => d3.freeNat % 256
  { d3.useFree.useFree with
    host := { d3.host with ready := true }
    mgmt := { d3.mgmt with readyAt := some d3.tb.dt, hostSeen := false, waitS := wait, beatAt := d3.tb.dt,
                           sealKey := d3.freeCtr + 1 } }

/-- The image that runs and what it says of itself, at the start of start-up (R481, R504). -/
def Dev.startImage (d : Dev) (b : BootInfo) : Dev :=
  let img := d.runningImage b
  let d1 := { d with mgmt := { d.mgmt with fwVersion := img.1, minPatchSv := img.2.1 } }.measureStart img.2.2.2
  ((d1.setReg Reg.MGMT_FW_VERSION img.1).setReg Reg.GLB_CLOCKS b.clocks).setFld Reg.MGMT_BOOT 2 0 2

/-- The configuration in force at start-up (R481, R490). -/
def Dev.startConfig (d : Dev) : Dev := (d.withConfig d.mgmt.config).mapFollow

/-- Ndelia firmware starts the device (R481, R403). -/
def Dev.startUp (d : Dev) (b : BootInfo) : Dev :=
  let d2 := d.startImage b
  if b.cause = 4 ∨ b.cause = 5 then d2.startFail 4 b.cause
  else
    let d3 := d2.startConfig
    if d3.capFail.isSome || d3.badPool.isSome || b.cause == 3 then d3.startFail 4 3
    else if b.cause = 2 then (d3.raise (200 + 16 * (b.kat % 8) + 8) 0).startFail 4 2
    else
      let d4 := (List.range 8).foldl (fun e s => e.enableWin (40 + s) (Reg.MC_CTRL s)) d3
      let d5 := (d4.enableWin 48 Reg.MAP_CTRL).reapplyLog
      let d6 := (d5.enableWin 6 Reg.BUN_CTRL).patchStart (d.runningImage b).2.2.1
      (d6.afterResetLog.bootLog.settleSlots).declareReady.pinAlert

/-- DEVICE_READY (R481, R482): start-up ends. -/
def execDeviceReady (b : BootInfo) (s : State) : Host.Outcome State Fault Refusal :=
  s.keep fun d =>
    if d.host.ready then d
    else
      let e := d.advanceTo b.t
      if e.bootState = 5 ∨ b.cause = 1 then e.startFail 5 1 else e.startUp b

/-! ### Requests that are never answered (R20, R439) -/

/-- Whether a stack is lost: it, or its tile, has stopped. -/
def lostStack (tile : Bool) (i s : Nat) : Bool := if tile then s / 2 == i else s == i

/-- Whether a range of the data space has bytes on a lost stack. -/
def Dev.meetsLost (d : Dev) (tile : Bool) (i a n : Nat) : Bool :=
  (pagesOf a n).any fun p => lostStack tile i ((d.pageFrame p).1 / 4)

/-- Contexts whose running pictures address what has stopped fail under cause 2 (R20, R109). -/
def Dev.picsLost (d : Dev) : Dev :=
  let hit := (List.range 4).flatMap fun t => ((d.tile t).jobs.filter Job.running).map Job.ctx
  hit.foldl (fun e c => match e.ctx c with
    | some x => if e.ctxLost x then e.ctxFail c 2 0 none else e
    | none => e) d

/-- Bursts in flight to it return error responses (R439): channel, phase and address of each. -/
def Dev.burstsLost (d : Dev) (tile : Bool) (i : Nat) : List (Nat × Nat × Nat) :=
  d.dma.chans.flatMap fun c => c.2.descs.flatMap fun y => y.flight.filterMap fun f =>
    let src := f.2.2 == 0 && dmaSrcSpace y.desc == 1 && d.meetsLost tile i (dmaSrc y.desc + f.1) f.2.1
    let dst := f.2.2 == 1 && dmaDstSpace y.desc == 1 && d.meetsLost tile i (dmaDst y.desc + f.1) f.2.1
    if src then some (c.1, 0, dmaSrc y.desc + f.1) else if dst then some (c.1, 1, dmaDst y.desc + f.1) else none

/-- HALYARD_TIMEOUT (R20): tile `i`, or stack `i`, has stopped responding. Requests held for it, running pictures and bursts
that address it meet the error response now, and later accesses of it as they are made. -/
def execHalyardTimeout (tile : Bool) (i : Nat) (s : State) : Host.Outcome State Fault Refusal :=
  s.keep fun d =>
    if (if tile then 4 else 8) ≤ i then d
    else
      let d1 := if tile then d.setTile i { d.tile i with stopped := true } else d.setMcState i 5
      let d2 := (d1.condStart (if tile then 32 + i else 36 + i) i).raise 45 0
      let d3 := d2.picsLost
      let d4 := (List.range 8).foldl (fun e k => if lostStack tile i k then e.heldLost k else e) d3
      ((d4.burstsLost tile i).foldl (fun e x => e.dmaReturn x.1 x.2.1 5 x.2.2) d4).dmaFollow

/-- COMPLETION_TIMEOUT (R439-R441): the oldest read of a burst, a fetch or ring record read of a DMA channel, or a read for
an operation of a ring, whose oldest pending operation then completes with BUS_ERROR (PRESUMED, log entry 25). -/
def execCompletionTimeout (r : TimeoutRef) (s : State) : Host.Outcome State Fault Refusal :=
  s.act fun d =>
    match r with
    | .dmaBurst ch addr =>
      let fl := (d.dmaChan ch).descs.flatMap fun y => y.flight.filter fun f =>
        f.2.2 == 2 || (f.2.2 == 0 && dmaSrcSpace y.desc == 0)
      (match fl with
      | [] => d
      | f :: _ => (d.dmaReturn ch f.2.2 3 addr).dmaFollow)
    | .dmaFetch ch addr => if d.dmaFetches ch && d.dmaSpace ch == 0 then (d.dmaError ch false 3 addr).dmaFollow else d
    | .op ring => match d.host.ops.find? fun o => o.ring == ring && o.result.isNone with
      | some o => d.finish o.id (resOf stBus)
      | none => d

end Sys2Proof.Machine
end

