-- ==== Sys2Proof/Machine/StepOps.lean ====
section
/-! DEFINITION. Steps of DT and the measurements that lead to them (spec/02_media_time.md R33-R37, R40-R46). -/

namespace Sys2Proof.Machine

/-! ### What is scheduled in DT (R41, R44) -/

/-- An event that the device has scheduled in DT. -/
inductive DueEvent where
  | ppsOut
  | dmaTimer (k : Nat)
  | bwWindow
  | gateList (port : Nat)
  | freqChange (stack : Nat)
  | frame (ring : Nat)
  | flow (f : Nat)
  deriving DecidableEq, Repr

/-- Occurrences of a series that are due, with their event. -/
def Series.events (x : Series) (now : Nat) (e : DueEvent) : List (Nat × DueEvent) := (x.dueAt now).map fun t => (t, e)

/-- The events of the data path that are due: gate lists, frequency changes, frames and packets. -/
def Dev.pathDue (d : Dev) : List (Nat × DueEvent) :=
  let now (t : Nat) (e : DueEvent) : Option (Nat × DueEvent) := if d.due t ≤ d.tb.dt then some (d.due t, e) else none
  (if d.flag Reg.GATE_CTRL 0 then d.qm.gates.filterMap fun x => x.2.pending.bind fun g => now g.start (.gateList x.1)
   else []) ++
  (d.mem.filterMap fun x => x.2.arm.bind fun a => if a.begun then none else now a.at_ (.freqChange x.1)) ++
  (d.qm.tx.filterMap fun w => if w.released then none else now w.launch (.frame w.ring)) ++
  d.dlv.flows.filterMap fun x => (d.releasableAt x.2).bind fun t => now t (.flow x.1)

/-- Every event that is due, in no order; in FATAL_STOP those of the data path wait (R471). -/
def Dev.allDue (d : Dev) : List (Nat × DueEvent) :=
  ((d.tb.pps.map fun x => x.events d.tb.dt .ppsOut).getD []) ++
  (d.dma.timers.flatMap fun x => x.2.events d.tb.dt (.dmaTimer x.1)) ++
  ((d.pm.window.map fun x => x.events d.tb.dt .bwWindow).getD []) ++
  if d.pins.fatalStop then [] else d.pathDue

/-- An event placed in the order of its time, behind those of the same time. -/
def dueInsert (x : Nat × DueEvent) : List (Nat × DueEvent) → List (Nat × DueEvent)
  | [] => [x]
  | y :: r => if x.1 < y.1 then x :: y :: r else y :: dueInsert x r

/-- The next frame of a ring is released if its time has come. -/
def Dev.frameDue (d : Dev) (r : Nat) : Dev :=
  if (d.txFront r).any fun w => decide (d.due w.launch ≤ d.tb.dt) then d.hoistOne r else d

/-- The packets of a flow whose time has come are released; `n` bounds their number. -/
def Dev.flowDue (d : Dev) (f : Nat) : Nat → Dev
  | 0 => d
  | n + 1 =>
    if ((d.flow f).bind d.releasableAt).any fun t => decide (t ≤ d.tb.dt) then
      match d.hoistFlow f with
      | some e => e.flowDue f n
      | none => d
    else d

/-- One event fires. -/
def Dev.fireOne (d : Dev) : DueEvent → Dev
  | .ppsOut => d.ppsRise
  | .dmaTimer k => d.dmaTimerFire k
  | .bwWindow => d.windowEnd.safePoint 7 0
  | .gateList p => d.gateBegin p
  | .freqChange s => d.freqStart s
  | .frame r => d.frameDue r
  | .flow f => d.flowDue f 4096

/-- Every event that is due fires, in ascending order of the times (R41, R44). -/
def Dev.fireAll (d : Dev) : Dev :=
  (d.allDue.foldl (fun l x => dueInsert x l) []).foldl (fun e x => e.fireOne x.2) d

/-- The Time Base of `d` in `e`, but for TIME_PPS_OUT: what is due takes no time, and touches neither DT nor the sources. -/
def Dev.keepTb (e d : Dev) : Dev :=
  { e with tb := { d.tb with pps := e.tb.pps, ppsFall := e.tb.ppsFall } }.setReg Reg.TB_STATUS (d.reg Reg.TB_STATUS)

/-! ### What a step does (R41-R43) -/

/-- Every series after a step. -/
def Dev.reseries (d : Dev) : Dev :=
  let now := d.tb.dt
  { d with
    tb := { d.tb with pps := d.tb.pps.map (·.step now) },
    dma := { d.dma with timers := d.dma.timers.map fun e => (e.1, e.2.step now) },
    pm := { d.pm with window := d.pm.window.map (·.step now) },
    mem := d.mem.map fun e => (e.1, { e.2 with patrol := e.2.patrol.map (·.step now) }) }

/-- A DEADLINE that has passed is kept as one that stays passed. -/
def keepPassed (late : Nat → Bool) (t : Option Nat) : Option Nat := t.map fun x => if late x then 0 else x

/-- Work whose deadline has passed stays late, wherever DT goes (R42, R45). -/
def Dev.deadlinesKeep (d : Dev) : Dev :=
  let late := d.late
  let au (a : AccUnit) : AccUnit := { a with produced := keepPassed late a.produced }
  let seg (g : Segment) : Segment := { g with produced := keepPassed late g.produced }
  let pic (us : Nat) (p : SrcPic) : SrcPic := { p with late := p.late || late (p.dt + us * unitsPerUs) }
  { d with
    media := { d.media with
      tiles := d.media.tiles.map fun e => (e.1, { e.2 with jobs := e.2.jobs.map fun j =>
        { j with late := j.late || j.deadline.any late, produce := keepPassed late j.produce } }),
      groups := d.media.groups.map fun e => (e.1, { e.2 with produces := e.2.produces.map fun p =>
        { p with late := p.late || late p.deadline } }),
      ctxs := d.media.ctxs.map fun e => (e.1, { e.2 with
        out := e.2.out.map au, src := { e.2.src with pics := e.2.src.pics.map (pic e.2.latencyUs) } }) },
    dlv := { d.dlv with
      streams := d.dlv.streams.map fun e => (e.1, { e.2 with
        open_ := e.2.open_.map seg, closing := e.2.closing.map fun c => (seg c.1, c.2) }) } }

/-- Length in ms of the segments that a stream cuts on DT boundaries: its own for AUDIO_CMAF, else its group's. -/
def Dev.boundaryMs (d : Dev) (st : Stream) : Option Nat :=
  match st.ctx with
  | none => some st.segMs
  | some c => match ((d.ctx c).bind Ctx.group).bind d.group with
    | some g => if g.segOnDt then some g.segMs else none
    | none => none

/-- The segment boundaries that a step to `now` passes over are missed: one cut stands for all of them (R42). -/
def Dev.boundariesMissed (d : Dev) (now : Nat) : Dev :=
  let miss (st : Stream) : Stream := match d.boundaryMs st with
    | none => st
    | some ms => if d.tb.dt < boundaryOf ms now then { st with missed := some (boundaryOf ms now) } else st
  { d with dlv := { d.dlv with streams := d.dlv.streams.map fun e => (e.1, miss e.2) } }

/-- What the line of a port is to do after so many bit times keeps its distance from now (R357). -/
def Port.shift (x : Port) (n : Int) : Port :=
  let move (t : Nat) : Nat := ((t : Int) + n).toNat
  { x with stopped := x.stopped.map fun e => e.map move, refresh := x.refresh.map move, freeAt := move x.freeAt }

/-- What is counted from an instant of the past, an interval, a rate or a bucket, keeps its distance from now: a step
re-evaluates what is scheduled in DT, not how long something has lasted (DEDUCED, log entry 97). -/
def Dev.intervalsKeep (d : Dev) (x : Int) : Dev :=
  let move (t : Nat) : Nat := ((t : Int) + x).toNat
  let ring (r : Ring) : Ring := { r with changed := move r.changed }
  let panics (l : List (Option Nat)) : List (Option Nat) := l.map fun p => p.map move
  let held (l : List MemReq) : List MemReq := l.map fun q => { q with at_ := move q.at_ }
  let ctl (c : MemCtl) : MemCtl :=
    { c with panicAt := panics c.panicAt, srAt := move c.srAt, lastReq := move c.lastReq, held := held c.held }
  let egress (e : Egress) : Egress := { e with nextAt := move e.nextAt }
  let order (o : Order) : Order := { o with egress := o.egress.map egress }
  let ingest (i : Ingest) : Ingest := { i with held := i.held.map fun p => { p with moved := p.moved + x } }
  let flow (f : Flow) : Flow :=
    { f with creditAt := move f.creditAt, readyAt := move f.readyAt, since := f.since.map move }
  let stream (s : Stream) : Stream := { s with closing := s.closing.map fun c => (c.1, c.2.1, move c.2.2) }
  let ctx (c : Ctx) : Ctx := { c with dec := { c.dec with openAt := c.dec.openAt.map move } }
  { d with
    host := { d.host with rings := d.host.rings.map fun (e : Nat × Ring) => (e.1, ring e.2) },
    intc := { d.intc with
      lastMsg := d.intc.lastMsg.map fun (e : Nat × Option Nat) => (e.1, e.2.map move),
      modHeld := d.intc.modHeld.map fun (e : Nat × Option Nat) => (e.1, e.2.map move) },
    mem := d.mem.map fun (e : Nat × MemCtl) => (e.1, ctl e.2),
    mgmt := { d.mgmt with
      challenge := d.mgmt.challenge.map move, wdog := d.mgmt.wdog.map move, readyAt := d.mgmt.readyAt.map move,
      beatAt := move d.mgmt.beatAt, resetDue := d.mgmt.resetDue.map move, order := d.mgmt.order.map order },
    par := { d.par with
      tokens := d.par.tokens.map fun (e : Nat × Nat × Nat) => (e.1, e.2.1, move e.2.2), tokensAt := move d.par.tokensAt,
      frags := d.par.frags.map fun (e : FragEntry) => { e with used := move e.used },
      ingest := d.par.ingest.map fun (e : Nat × Ingest) => (e.1, ingest e.2) },
    dlv := { d.dlv with
      flows := d.dlv.flows.map fun (e : Nat × Flow) => (e.1, flow e.2),
      streams := d.dlv.streams.map fun (e : Nat × Stream) => (e.1, stream e.2) },
    media := { d.media with ctxs := d.media.ctxs.map fun (e : Nat × Ctx) => (e.1, ctx e.2) } }

/-- DT steps by `x` (R41-R43); origins move with it when `adjust`. The time since a source was heard from is elapsed time,
which a step leaves as it is (R32). -/
def Dev.stepDt (d0 : Dev) (x : Int) (adjust : Bool) : Dev :=
  let d1 := (d0.fireAll.keepTb d0).deadlinesKeep
  let now := ((d1.tb.dt : Int) + x).toNat
  let d2 := d1.boundariesMissed now
  let move (t : Nat) : Nat := ((t : Int) + x).toNat
  let d3 := { d2.intervalsKeep x with
    tb := { d2.tb with dt := now, lastEdge := d2.tb.lastEdge.map move, lastSync := d2.tb.lastSync.map move,
                       ppsFall := d2.tb.ppsFall.map move },
    eth := { d2.eth with ports := d2.eth.ports.map fun (e : Nat × Port) => (e.1, e.2.shift x) },
    media := if adjust then (d2.intervalsKeep x).media.shiftOrigins x else (d2.intervalsKeep x).media }
  ((((d3.reseries.gateStep x).fireAll.keepTb d3).countFld Reg.TB_STATUS 23 16 1).setEvent Reg.TB_EVENTS 4).raise 64 0

/-! ### Discipline (R35-R37) -/

/-- LOCKED is entered (R35). -/
def Dev.tbLock (d : Dev) : Dev :=
  let e := (d.setTbState 2).setEvent Reg.TB_EVENTS 0
  { e with tb := { e.tb with everLocked := true } }

/-- OFFSET_LARGE (R36): after the first lock, above 10 ms; a fault whose condition lasts while the offset does (R461). -/
def Dev.offsetCheck (d : Dev) (x : Int) : Dev :=
  if d.tb.everLocked = false then d
  else if offsetWithin x 10000000 then d.condEnd 65
  else (d.setEvent Reg.TB_EVENTS 5).condStart 65 0

/-- A measurement of the followed source acts on DT (R35, R36): before the first lock a step above 1 µs, else a slew. -/
def Dev.discipline (d : Dev) (src : Nat) (x : Int) : Dev :=
  let d1 := if d.tbState = 1 ∧ d.tb.everLocked = false ∧ offsetWithin x 1000 = false then
      let e := d.stepDt x true
      { e with tb := { e.tb with goodPtp := 0, goodPps := 0 } }
    else (d.slew x).offsetCheck x
  if 16 ≤ d1.goodOf src ∧ (d1.tbState = 1 ∨ d1.tbState = 3) ∧ (src ≠ 2 ∨ d1.todKnown) then d1.tbLock else d1

/-- The source that a measurement leaves to be followed (R37): the primary again once it has met the lock criterion, and
in HOLDOVER the source that has returned. -/
def Dev.refollow (d : Dev) (src : Nat) : Dev :=
  if d.onSecondary ∧ d.tbPrimary = src ∧ 16 ≤ d.goodOf src ∧ d.flag Reg.TB_CTRL 0 then
    (d.setFlag Reg.TB_STATUS 3 false).setEvent Reg.TB_EVENTS 3
  else if d.tbState = 3 ∧ d.srcValid d.followed = false then
    (d.setFlag Reg.TB_STATUS 3 (d.tbPrimary != src)).setEvent Reg.TB_EVENTS 3
  else d

/-- A measurement: source `src` is `x` ahead of DT (R32, R35-R37). -/
def Dev.measure (d : Dev) (src : Nat) (x : Int) : Dev :=
  let d1 := { d with tb := if src = 1 then { d.tb with ptpValid := true, goodPtp := goodAfter d.tb.goodPtp x }
                           else { d.tb with ppsValid := true, goodPps := goodAfter d.tb.goodPps x } }
  if d1.tbPrimary ≠ src ∧ d1.tbSecondary ≠ src then d1
  else
    let d2 := ((d1.setReg Reg.TB_OFFSET (offsetNs x)).tbAcquire).refollow src
    if d2.flag Reg.TB_CTRL 0 ∧ d2.followed = src ∧ d2.tbState ≠ 0 then d2.discipline src x else d2

/-- The second that a TIME_PPS_IN edge marks (R34): the one SET_TOD named; else, while the source has stayed valid, the one
after that of the edge before; else the second nearest DT. Once a SET_TOD has been applied the time of day counts as
known, also after the source was lost and has returned: the spec does not say which second the first edge then marks
(DESIGN CHOICE, log entry 65). -/
def Dev.edgeSecond (d : Dev) : Nat :=
  match d.tb.tod, d.tb.todLast with
  | some s, _ => s
  | none, some s => if d.tb.ppsValid then s + 1 else nearestSecond d.tb.dt
  | none, none => nearestSecond d.tb.dt

/-- A rising edge of TIME_PPS_IN (R34). -/
def Dev.ppsEdge (d : Dev) : Dev :=
  let sec := d.edgeSecond
  let known := d.tb.tod.isSome || d.tb.todLast.isSome
  let e := { d with tb := { d.tb with todLast := if known then some sec else none, tod := none,
                                      lastEdge := some d.tb.dt } }
  e.measure 2 ((sec * unitsPerSec : Nat) - (d.tb.dt : Int))

/-! ### PTP (R33) -/

/-- Whether a message is of the clock that PTP_PORT runs: its port, the domain programmed, and a transport of R33. -/
def Dev.ptpOurs (d : Dev) (m : PtpMsg) : Bool :=
  d.fld Reg.TB_CTRL 15 8 == m.port && m.domain == d.tb.domain && decide (m.transport ≤ 2)

/-- A valid Sync has come (R32). -/
def Dev.syncHeard (d : Dev) (m : PtpMsg) : Dev :=
  { d with tb := { d.tb with lastSync := some d.tb.dt, transport := m.transport } }

/-- The offset of the master, by a Sync's transmit time `t1` and its receive timestamp `t2`. -/
def Dev.ptpMeasure (d : Dev) (t1 t2 : Nat) : Dev :=
  let e := { d with tb := { d.tb with syncPair := some (t1, t2), syncRx := none } }
  e.measure 1 ((t1 : Int) + d.tb.pathDelay - t2)

/-- A PTP message of the selected master (R33). -/
def Dev.ptp (d : Dev) (m : PtpMsg) : Dev :=
  if d.ptpOurs m = false then d
  else match m.kind with
    | .sync => (d.syncHeard m).ptpMeasure m.origin m.rx
    | .syncTwoStep =>
      let e := d.syncHeard m
      { e with tb := { e.tb with syncRx := some m.rx } }
    | .followUp => match d.tb.syncRx with
      | some t2 => d.ptpMeasure m.origin t2
      | none => d
    | .delayResp => match d.tb.syncPair, d.tb.delayReqTx with
      | some (t1, t2), some t3 =>
        { d with tb := { d.tb with pathDelay := (((t2 : Int) - t1) + ((m.origin : Int) - t3)) / 2, delayReqTx := none } }
      | _, _ => d

/-! ### Meanings -/

/-- TIME_PPS_IN_EDGE at instant `t` (R34). -/
def execTimePpsInEdge (t : Nat) (s : State) : Host.Outcome State Fault Refusal :=
  s.keep fun d => (d.advanceTo t).ppsEdge

/-- PTP_MESSAGE (R33). -/
def execPtpMessage (m : PtpMsg) (s : State) : Host.Outcome State Fault Refusal :=
  s.keep fun d => (d.advanceTo m.rx).ptp m

/-- The ring number that stands for an issue of Ndelia firmware itself, which has no ring and no completion (R40; DESIGN
CHOICE, log entry 66). -/
def fwRing : Nat := 4096

/-- DT_STEP (R40, R496), of the PF driver with the admin credential, or of Ndelia firmware. -/
def execDtStep (o : RingOp) (s : State) : Host.Outcome State Fault Refusal :=
  s.act fun d =>
    let adjust := Desc.field o.desc 8 1 1 == 1
    if o.ring = fwRing then
      if d.mgmt.restarting || !dtStepFormat o.desc then d
      else match dtStepTarget d.tb.dt o.desc with
        | none => d
        | some t => d.stepDt ((t : Int) - d.tb.dt) adjust
    else d.runAdmin o levelOne dtStepFormat fun e op =>
      match dtStepTarget e.tb.dt op.desc with
      | none => (e, resOf stMalformed)
      | some t =>
        let before := e.tb.dt
        let e1 := e.stepDt ((t : Int) - e.tb.dt) adjust
        (e1.opWrite op (Desc.le op.desc 32 8) (dtBytes before ++ dtBytes t), resOf stOk)

end Sys2Proof.Machine
end

