-- ==== Sys2Proof/Machine/Dispatch.lean ====
section
/-! DEFINITION. One arm for each command: a direct call of its meaning, or the rejection by name of a command whose
meaning is not written yet. -/

namespace Sys2Proof.Machine

/-- The effect of a command on everything but the queue. -/
def exec (i : Instr) (s : State) : Host.Outcome State Fault Refusal :=
  match i with
  | .tbEnableSet w v => Sys2Proof.Machine.execTbEnableSet w v s
  | .tbEnableClear w v => Sys2Proof.Machine.execTbEnableClear w v s
  | .ppsOutEnable w v => Sys2Proof.Machine.execPpsOutEnable w v s
  | .timePpsOutEdge => Sys2Proof.Machine.execTimePpsOutEdge s
  | .timePpsInEdge t => Sys2Proof.Machine.execTimePpsInEdge t s
  | .ptpMessage m => Sys2Proof.Machine.execPtpMessage m s
  | .ppsSourceLoss t => Sys2Proof.Machine.execPpsSourceLoss t s
  | .ptpSourceLoss t => Sys2Proof.Machine.execPtpSourceLoss t s
  | .snap w v => Sys2Proof.Machine.execSnap w v s
  | .dtStep o => Sys2Proof.Machine.execDtStep o s
  | .setTod o => Sys2Proof.Machine.execSetTod o s
  | .configRequest fn c => Sys2Proof.Machine.execConfigRequest fn c s
  | .linkTrained rate width => Sys2Proof.Machine.execLinkTrained rate width s
  | .vfFlr fn => Sys2Proof.Machine.execVfFlr fn s
  | .vfFlrComplete fn => Sys2Proof.Machine.execVfFlrComplete fn s
  | .pfFlr => Sys2Proof.Machine.execPfFlr s
  | .vfDisable n => Sys2Proof.Machine.execVfDisable n s
  | .bar2Write fn off data => Sys2Proof.Machine.execBar2Write fn off data s
  | .bar2Read fn off len => Sys2Proof.Machine.execBar2Read fn off len s
  | .fnEnableSet fn v => Sys2Proof.Machine.execFnEnableSet fn v s
  | .fnEnableClear fn v => Sys2Proof.Machine.execFnEnableClear fn v s
  | .adminQuiesceDone fn => Sys2Proof.Machine.execAdminQuiesceDone fn s
  | .clrRejected fn v => Sys2Proof.Machine.execClrRejected fn v s
  | .ringPoll ring st => Sys2Proof.Machine.execRingPoll ring st s
  | .ringIdleTimeout ring => Sys2Proof.Machine.execRingIdleTimeout ring s
  | .sleepRecheck ring st => Sys2Proof.Machine.execSleepRecheck ring st s
  | .wakeWrite fn off v st => Sys2Proof.Machine.execWakeWrite fn off v st s
  | .cqHeadRead cq st => Sys2Proof.Machine.execCqHeadRead cq st s
  | .nop o => Sys2Proof.Machine.execNop o s
  | .negotiate o => Sys2Proof.Machine.execNegotiate o s
  | .createCq o => Sys2Proof.Machine.execCreateCq o s
  | .createRing o => Sys2Proof.Machine.execCreateRing o s
  | .destroyRing o => Sys2Proof.Machine.execDestroyRing o s
  | .destroyRingDone ring => Sys2Proof.Machine.execDestroyRingDone ring s
  | .destroyCq o => Sys2Proof.Machine.execDestroyCq o s
  | .setProtection o => Sys2Proof.Machine.execSetProtection o s
  | .epochDrain o => Sys2Proof.Machine.execEpochDrain o s
  | .epochDrainDone fn => Sys2Proof.Machine.execEpochDrainDone fn s
  | .flush o => Sys2Proof.Machine.execFlush o s
  | .flushDone fn => Sys2Proof.Machine.execFlushDone fn s
  | .registerWrite w a v => Sys2Proof.Machine.execRegisterWrite w a v s
  | .bar0Refused fn a size write => Sys2Proof.Machine.execBar0Refused fn a size write s
  | .blockEnableSet w win v => Sys2Proof.Machine.execBlockEnableSet w win v s
  | .blockEnableClear w win v => Sys2Proof.Machine.execBlockEnableClear w win v s
  | .blockQuiesced win => Sys2Proof.Machine.execBlockQuiesced win s
  | .commit w win v => Sys2Proof.Machine.execCommit w win v s
  | .discard w win v => Sys2Proof.Machine.execDiscard w win v s
  | .safePointApply win unit => Sys2Proof.Machine.execSafePointApply win unit s
  | .sqcClear w a v => Sys2Proof.Machine.execSqcClear w a v s
  | .aliasWrite w a v => Sys2Proof.Machine.execAliasWrite w a v s
  | .powerOnReset vdd straps => Sys2Proof.Machine.execPowerOnReset vdd straps s
  | .warmReset cause => Sys2Proof.Machine.execWarmReset cause s
  | .resetRelease p => Sys2Proof.Machine.execResetRelease p s
  | .deviceReady b => Sys2Proof.Machine.execDeviceReady b s
  | .createContext o => Sys2Proof.Machine.execCreateContext o s
  | .destroyContext o => Sys2Proof.Machine.execDestroyContext o s
  | .contextDrained ctx => Sys2Proof.Machine.execContextDrained ctx s
  | .createGroup o => Sys2Proof.Machine.execCreateGroup o s
  | .destroyGroup o => Sys2Proof.Machine.execDestroyGroup o s
  | .keyNow o => Sys2Proof.Machine.execKeyNow o s
  | .setRateControl o => Sys2Proof.Machine.execSetRateControl o s
  | .picture o => Sys2Proof.Machine.execPicture o s
  | .bitstream o => Sys2Proof.Machine.execBitstream o s
  | .getAu o => Sys2Proof.Machine.execGetAu o s
  | .produce o => Sys2Proof.Machine.execProduce o s
  | .pictureDispatch tile => Sys2Proof.Machine.execPictureDispatch tile s
  | .rowComplete r => Sys2Proof.Machine.execRowComplete r s
  | .seamFilter ctx seam => Sys2Proof.Machine.execSeamFilter ctx seam s
  | .pictureComplete p => Sys2Proof.Machine.execPictureComplete p s
  | .dvfsChange tile point t => Sys2Proof.Machine.execDvfsChange tile point t s
  | .pictureAnalysis src => Sys2Proof.Machine.execPictureAnalysis src s
  | .rungScale ctx n => Sys2Proof.Machine.execRungScale ctx n s
  | .pairHandover tile pair => Sys2Proof.Machine.execPairHandover tile pair s
  | .pad r => Sys2Proof.Machine.execPad r s
  | .picStart r => Sys2Proof.Machine.execPicStart r s
  | .rowStart r => Sys2Proof.Machine.execRowStart r s
  | .ctb r => Sys2Proof.Machine.execCtb r s
  | .cu r => Sys2Proof.Machine.execCu r s
  | .intra r => Sys2Proof.Machine.execIntra r s
  | .inter r => Sys2Proof.Machine.execInter r s
  | .residual r => Sys2Proof.Machine.execResidual r s
  | .rowEnd r => Sys2Proof.Machine.execRowEnd r s
  | .picEnd r => Sys2Proof.Machine.execPicEnd r s
  | .avcMb r => Sys2Proof.Machine.execAvcMb r s
  | .avcSubmb r => Sys2Proof.Machine.execAvcSubmb r s
  | .predWeight r => Sys2Proof.Machine.execPredWeight r s
  | .sao r => Sys2Proof.Machine.execSao r s
  | .hevcCuExt r => Sys2Proof.Machine.execHevcCuExt r s
  | .av1Cdef r => Sys2Proof.Machine.execAv1Cdef r s
  | .av1Lr r => Sys2Proof.Machine.execAv1Lr r s
  | .av1Compound r => Sys2Proof.Machine.execAv1Compound r s
  | .av1Motion r => Sys2Proof.Machine.execAv1Motion r s
  | .av1Palette r => Sys2Proof.Machine.execAv1Palette r s
  | .av1Delta r => Sys2Proof.Machine.execAv1Delta r s
  | .vvcAlf r => Sys2Proof.Machine.execVvcAlf r s
  | .vvcAffine r => Sys2Proof.Machine.execVvcAffine r s
  | .vvcGpm r => Sys2Proof.Machine.execVvcGpm r s
  | .vvcInterExt r => Sys2Proof.Machine.execVvcInterExt r s
  | .microword tile pair err => Sys2Proof.Machine.execMicroword tile pair err s
  | .preemptionRequest tile pair => Sys2Proof.Machine.execPreemptionRequest tile pair s
  | .routineWatchdog tile pair => Sys2Proof.Machine.execRoutineWatchdog tile pair s
  | .budgetOut ctx region => Sys2Proof.Machine.execBudgetOut ctx region s
  | .stallTimeout ctx => Sys2Proof.Machine.execStallTimeout ctx s
  | .loadPatch o => Sys2Proof.Machine.execLoadPatch o s
  | .patchTake tile pair => Sys2Proof.Machine.execPatchTake tile pair s
  | .streamCreate o => Sys2Proof.Machine.execStreamCreate o s
  | .streamDestroy o => Sys2Proof.Machine.execStreamDestroy o s
  | .streamKey o => Sys2Proof.Machine.execStreamKey o s
  | .audio o => Sys2Proof.Machine.execAudio o s
  | .segNext o => Sys2Proof.Machine.execSegNext o s
  | .segDrop o => Sys2Proof.Machine.execSegDrop o s
  | .accessUnitPackage stream => Sys2Proof.Machine.execAccessUnitPackage stream s
  | .audioWaitTimeout stream => Sys2Proof.Machine.execAudioWaitTimeout stream s
  | .openFlow o => Sys2Proof.Machine.execOpenFlow o s
  | .send o ok => Sys2Proof.Machine.execSend o ok s
  | .resend o ok => Sys2Proof.Machine.execResend o ok s
  | .setRate o ok => Sys2Proof.Machine.execSetRate o ok s
  | .rekey o ok => Sys2Proof.Machine.execRekey o ok s
  | .closeFlow o ok => Sys2Proof.Machine.execCloseFlow o ok s
  | .flowCloseDone flow => Sys2Proof.Machine.execFlowCloseDone flow s
  | .flowCacheEntryFree flow ok => Sys2Proof.Machine.execFlowCacheEntryFree flow ok s
  | .rxFrame f => Sys2Proof.Machine.execRxFrame f s
  | .pauseRx f => Sys2Proof.Machine.execPauseRx f s
  | .pfcRx f => Sys2Proof.Machine.execPfcRx f s
  | .pauseExpire port cls => Sys2Proof.Machine.execPauseExpire port cls s
  | .pauseRefresh port => Sys2Proof.Machine.execPauseRefresh port s
  | .linkUp port => Sys2Proof.Machine.execLinkUp port s
  | .linkDown port => Sys2Proof.Machine.execLinkDown port s
  | .anResolve port ok tech fec => Sys2Proof.Machine.execAnResolve port ok tech fec s
  | .ltComplete lane => Sys2Proof.Machine.execLtComplete lane s
  | .ltFail lane t => Sys2Proof.Machine.execLtFail lane t s
  | .lgCntSnap w lg v => Sys2Proof.Machine.execLgCntSnap w lg v s
  | .skewTimeout stream => Sys2Proof.Machine.execSkewTimeout stream s
  | .decapRecirculate => Sys2Proof.Machine.execDecapRecirculate s
  | .fragmentAgeOut n => Sys2Proof.Machine.execFragmentAgeOut n s
  | .rxBuffer o => Sys2Proof.Machine.execRxBuffer o s
  | .hostRxDelivery ring => Sys2Proof.Machine.execHostRxDelivery ring s
  | .rulesWrite o => Sys2Proof.Machine.execRulesWrite o s
  | .rulesSwap o => Sys2Proof.Machine.execRulesSwap o s
  | .ruleSetDrained => Sys2Proof.Machine.execRuleSetDrained s
  | .hoistRelease r => Sys2Proof.Machine.execHoistRelease r s
  | .egressSelect port => Sys2Proof.Machine.execEgressSelect port s
  | .frameTxEnd port => Sys2Proof.Machine.execFrameTxEnd port s
  | .txFrame o => Sys2Proof.Machine.execTxFrame o s
  | .gateEntryAdvance port => Sys2Proof.Machine.execGateEntryAdvance port s
  | .gateCycleBoundary port => Sys2Proof.Machine.execGateCycleBoundary port s
  | .gateListStart port => Sys2Proof.Machine.execGateListStart port s
  | .memRequest q => Sys2Proof.Machine.execMemRequest q s
  | .refreshDue stack sid => Sys2Proof.Machine.execRefreshDue stack sid s
  | .stackTempRead stack temp => Sys2Proof.Machine.execStackTempRead stack temp s
  | .urgencyReport stack port urgency t => Sys2Proof.Machine.execUrgencyReport stack port urgency t s
  | .panicLong stack port => Sys2Proof.Machine.execPanicLong stack port s
  | .powerDownEntry stack t => Sys2Proof.Machine.execPowerDownEntry stack t s
  | .selfRefreshEntry stack issued t => Sys2Proof.Machine.execSelfRefreshEntry stack issued t s
  | .selfRefreshExit stack => Sys2Proof.Machine.execSelfRefreshExit stack s
  | .arm w stack v => Sys2Proof.Machine.execArm w stack v s
  | .cancel w stack v => Sys2Proof.Machine.execCancel w stack v s
  | .freqChangeStart stack => Sys2Proof.Machine.execFreqChangeStart stack s
  | .pllRelock stack t => Sys2Proof.Machine.execPllRelock stack t s
  | .phyTrainingDone stack t => Sys2Proof.Machine.execPhyTrainingDone stack t s
  | .mapEnable w v => Sys2Proof.Machine.execMapEnable w v s
  | .selfTest stack bad => Sys2Proof.Machine.execSelfTest stack bad s
  | .patrolScrub stack e => Sys2Proof.Machine.execPatrolScrub stack e s
  | .migrationCopy e spareBad => Sys2Proof.Machine.execMigrationCopy e spareBad s
  | .retirePage o => Sys2Proof.Machine.execRetirePage o s
  | .retireBank o => Sys2Proof.Machine.execRetireBank o s
  | .declareErasure o => Sys2Proof.Machine.execDeclareErasure o s
  | .poisonClear o => Sys2Proof.Machine.execPoisonClear o s
  | .allocation size owner => Sys2Proof.Machine.execAllocation size owner s
  | .hold h owner => Sys2Proof.Machine.execHold h owner s
  | .release h owner => Sys2Proof.Machine.execRelease h owner s
  | .free h owner level => Sys2Proof.Machine.execFree h owner level s
  | .bufQuery o => Sys2Proof.Machine.execBufQuery o s
  | .buntingEnable w v => Sys2Proof.Machine.execBuntingEnable w v s
  | .dmaRingPoll ch st => Sys2Proof.Machine.execDmaRingPoll ch st s
  | .copy ch d => Sys2Proof.Machine.execCopy ch d s
  | .fill ch d => Sys2Proof.Machine.execFill ch d s
  | .dmaBurstGrant => Sys2Proof.Machine.execDmaBurstGrant s
  | .dmaBurstResponse r => Sys2Proof.Machine.execDmaBurstResponse r s
  | .dmaEngineStopped => Sys2Proof.Machine.execDmaEngineStopped s
  | .dmaRestart w v => Sys2Proof.Machine.execDmaRestart w v s
  | .dreqEdge line => Sys2Proof.Machine.execDreqEdge line s
  | .dmaTimerFire k => Sys2Proof.Machine.execDmaTimerFire k s
  | .dmaTimerWrite w k v => Sys2Proof.Machine.execDmaTimerWrite w k v s
  | .dmaSwreq w hi v => Sys2Proof.Machine.execDmaSwreq w hi v s
  | .dmaChannelEnable w ch v => Sys2Proof.Machine.execDmaChannelEnable w ch v s
  | .dmaChannelDisable w ch v => Sys2Proof.Machine.execDmaChannelDisable w ch v s
  | .intSourceEvent src => Sys2Proof.Machine.execIntSourceEvent src s
  | .intLevelChange src => Sys2Proof.Machine.execIntLevelChange src s
  | .modMaxExpire fn vec => Sys2Proof.Machine.execModMaxExpire fn vec s
  | .intHoldRelease fn => Sys2Proof.Machine.execIntHoldRelease fn s
  | .claim w target v => Sys2Proof.Machine.execClaim w target v s
  | .complete w target v => Sys2Proof.Machine.execComplete w target v s
  | .thresholdWrite w target v => Sys2Proof.Machine.execThresholdWrite w target v s
  | .maskSet w target v => Sys2Proof.Machine.execMaskSet w target v s
  | .maskClr w target v => Sys2Proof.Machine.execMaskClr w target v s
  | .pendSet w target v => Sys2Proof.Machine.execPendSet w target v s
  | .pendClr w target v => Sys2Proof.Machine.execPendClr w target v s
  | .clockMonitorTrip dom stopped => Sys2Proof.Machine.execClockMonitorTrip dom stopped s
  | .halyardTimeout tile n => Sys2Proof.Machine.execHalyardTimeout tile n s
  | .conditionReraise src => Sys2Proof.Machine.execConditionReraise src s
  | .fcMhRearm w v => Sys2Proof.Machine.execFcMhRearm w v s
  | .fcForce w v => Sys2Proof.Machine.execFcForce w v s
  | .faultEventTake => Sys2Proof.Machine.execFaultEventTake s
  | .flashLogWrite => Sys2Proof.Machine.execFlashLogWrite s
  | .logRead o => Sys2Proof.Machine.execLogRead o s
  | .heartbeat t => Sys2Proof.Machine.execHeartbeat t s
  | .heartbeatMissed => Sys2Proof.Machine.execHeartbeatMissed s
  | .mgmtCoreRestart => Sys2Proof.Machine.execMgmtCoreRestart s
  | .getChallenge o => Sys2Proof.Machine.execGetChallenge o s
  | .claimAdmin o => Sys2Proof.Machine.execClaimAdmin o s
  | .releaseAdmin o => Sys2Proof.Machine.execReleaseAdmin o s
  | .challengeLapse => Sys2Proof.Machine.execChallengeLapse s
  | .ownerSet o => Sys2Proof.Machine.execOwnerSet o s
  | .watchdog o => Sys2Proof.Machine.execWatchdog o s
  | .hostWatchdog => Sys2Proof.Machine.execHostWatchdog s
  | .hostWaitExpiry => Sys2Proof.Machine.execHostWaitExpiry s
  | .soEgressDatagram n => Sys2Proof.Machine.execSoEgressDatagram n s
  | .fwWrite o => Sys2Proof.Machine.execFwWrite o s
  | .fwActivate o => Sys2Proof.Machine.execFwActivate o s
  | .fwCommit o => Sys2Proof.Machine.execFwCommit o s
  | .configStore o => Sys2Proof.Machine.execConfigStore o s
  | .soStore o => Sys2Proof.Machine.execSoStore o s
  | .soStop o => Sys2Proof.Machine.execSoStop o s
  | .soAdopt o => Sys2Proof.Machine.execSoAdopt o s
  | .soClear o => Sys2Proof.Machine.execSoClear o s
  | .keyLoad o => Sys2Proof.Machine.execKeyLoad o s
  | .keyClear o => Sys2Proof.Machine.execKeyClear o s
  | .attest o => Sys2Proof.Machine.execAttest o s
  | .getCert o => Sys2Proof.Machine.execGetCert o s
  | .reset o => Sys2Proof.Machine.execReset o s
  | .resetDelayExpire => Sys2Proof.Machine.execResetDelayExpire s
  | .sensorRefresh x => Sys2Proof.Machine.execSensorRefresh x s
  | .smbStatusRead port => Sys2Proof.Machine.execSmbStatusRead port s
  | .smbFwWrite port off first data => Sys2Proof.Machine.execSmbFwWrite port off first data s
  | .smbFwActivate port b => Sys2Proof.Machine.execSmbFwActivate port b s
  | .smbReset port b => Sys2Proof.Machine.execSmbReset port b s
  | .pmClear w unit v => Sys2Proof.Machine.execPmClear w unit v s
  | .pmCounterLoRead path unit k => Sys2Proof.Machine.execPmCounterLoRead path unit k s
  | .pmOverflow unit k n => Sys2Proof.Machine.execPmOverflow unit k n s
  | .bwWindowEnd => Sys2Proof.Machine.execBwWindowEnd s
  | .railFault rail => Sys2Proof.Machine.execRailFault rail s
  | .thermalHold => Sys2Proof.Machine.execThermalHold s
  | .thermalHoldExit temps => Sys2Proof.Machine.execThermalHoldExit temps s
  | .bypass tdi n => Sys2Proof.Machine.execBypass tdi n s
  | .idcode => Sys2Proof.Machine.execIdcode s
  | .samplePreload pins cells => Sys2Proof.Machine.execSamplePreload pins cells s
  | .extest pins cells => Sys2Proof.Machine.execExtest pins cells s
  | .highz => Sys2Proof.Machine.execHighz s
  | .clamp => Sys2Proof.Machine.execClamp s
  | .completionTimeout r => Sys2Proof.Machine.execCompletionTimeout r s
  | .coreRestartDone => Sys2Proof.Machine.execCoreRestartDone s
  | .delayReq t => Sys2Proof.Machine.execDelayReq t s

end Sys2Proof.Machine
end

