-- ==== Sys2Proof/Machine/Step.lean ====
section
/-! DEFINITION. One step: the command at the front of the queue acts with the queue's rest; on an empty queue one TIME
cycle passes, and the management cores take a frame of their queue (DESIGN CHOICE, log entry 10). -/

namespace Sys2Proof.Machine

/-- One step of the machine. -/
def step (s : State) : Host.Outcome State Fault Refusal :=
  match s.pending with
  | c :: r => exec c { s with pending := r }
  | [] => s.keep fun d => (d.cyclesPass 1).mgmtTake

/-- The state with the command that a word spells at the front of its queue; the table gives no command bits, so no
word spells one. -/
def State.withFetchWord (s : State) (nbits w : Nat) : State :=
  match decodeTableWord nbits w with
  | some c => { s with pending := c :: s.pending }
  | none => s

end Sys2Proof.Machine
end

