-- ==== Sys2Proof/Safety.lean ====
section
/-! DEFINITION. What counts as a safe run, and the terms in which the statements speak of states and commands. -/

namespace Sys2Proof.Machine

/-- A step that neither faults nor is refused. -/
def stepsOn (s : State) : Prop := ∃ t, step s = .next t

/-- A run of steps, each of which goes on. -/
inductive Runs : State → State → Prop where
  | here (s : State) : Runs s s
  | there (s t u : State) : step s = .next t → Runs t u → Runs s u

/-- A state is safe if every state that its run reaches goes on. -/
def safe (s : State) : Prop := ∀ t, Runs s t → stepsOn t

/-- The device is not held in reset (R531). -/
abbrev State.up (s : State) : Prop := s.dev.pins.inReset = false

/-- The device is neither held in reset nor in FATAL_STOP (R471). -/
abbrev State.live (s : State) : Prop := s.dev.pins.inReset = false ∧ s.dev.pins.fatalStop = false

/-- The writer may write any register of BAR0's windows 0 to 49 now (R83, R89): Ndelia firmware, or the PF's driver at
level 1. -/
abbrev Dev.mayWrite (d : Dev) (w : Writer) : Prop := w = .firmware ∨ (w = .pf ∧ d.fnLevel 0 = 1)

/-- The command runs: exec answers a next state, which leaves the commands that wait alone and whose device has `p`. -/
def Completes (i : Instr) (s : State) (p : Dev → Prop) : Prop :=
  ∃ t, exec i s = .next t ∧ t.pending = s.pending ∧ p t.dev

/-- Ring `o.ring` takes the descriptor of command `o` as operation `op`: its framing earns no status (R62, R69), no
SET_PROTECTION has completed since it was fetched (R85), and no FLR has destroyed its ring (R55). -/
abbrev Dev.takes (d : Dev) (o : RingOp) (key : Op → Nat) (op : Op) : Prop :=
  (d.start o key).2 = some (op, 0) ∧ op.epoch = d.host.epoch ∧ op.ring < noRing 0

/-- An Admin ring takes the descriptor of command `o` as operation `op`: the management cores run (R480), and neither
its framing, its ring, its reserved bytes (`fmt`) nor its level (`ok`) refuses it (R68, R75, R494). -/
abbrev Dev.takesAdmin (d : Dev) (o : RingOp) (fmt : Desc → Bool) (ok : Op → Bool) (op : Op) : Prop :=
  d.mgmt.restarting = false ∧ d.takes o adminKey op ∧
  (d.start o adminKey).1.gate op 3 (chainedAdmin op.desc) false (fmt op.desc) (ok op) = 0

end Sys2Proof.Machine
end

