-- ==== Sys2Proof/Certificates/Slice0/Obligations.lean ====
section
/-! DEFINITION. The statements for the provers: parts of statements (Claims), and the statements (Obligations). -/

section
open Sys2Proof Sys2Proof.Machine

/-! ### Time Base (spec/02_media_time.md) -/

/-- A TB_CTRL value that its table and R35 allow: PTP_PORT at most 127, sources 0 to 2, and a secondary that differs
from a primary other than none. -/
abbrev Claims.tbCtrlOk (v : Nat) : Prop :=
  bits v 15 8 ≤ 127 ∧ bits v 5 4 ≤ 2 ∧ bits v 3 2 ≤ 2 ∧ (bits v 3 2 = 0 ∨ bits v 3 2 ≠ bits v 5 4)

/-- TB_ENABLE_SET, TB_ENABLE_CLEAR, PPS_OUT_ENABLE, SNAP (R35, R38, R39). -/
def Claims.TimeBaseRegisterCommands : Prop :=
  ∀ (s : State) (w : Writer) (v : W32), s.live → s.dev.mayWrite w →
    (s.dev.rwlOpen 2 = true → Claims.tbCtrlOk v.toNat →
      Completes (.tbEnableSet w v) s fun t => t.flag Reg.TB_CTRL 0 = true ∧
        (s.dev.flag Reg.TB_CTRL 0 = false → s.dev.tbState = 0 → s.dev.srcValid (bits v.toNat 3 2) = true →
          t.tbState = 1)) ∧
    (Claims.tbCtrlOk (s.dev.reg Reg.TB_CTRL) → Claims.tbCtrlOk v.toNat →
      Completes (.tbEnableClear w v) s fun t => t.flag Reg.TB_CTRL 0 = false ∧
        (s.dev.flag Reg.TB_CTRL 0 = true → t.tbState = 0 ∧ t.tb.inc = nominalInc)) ∧
    (s.dev.rwlOpen 2 = true → Claims.tbCtrlOk v.toNat → s.dev.flag Reg.TB_CTRL 1 = false →
      Completes (.ppsOutEnable w v) s fun t => t.flag Reg.TB_CTRL 1 = true ∧
        t.tb.pps = some (Series.start unitsPerSec s.dev.tb.dt)) ∧
    Completes (.snap w v) s fun t =>
      t.reg Reg.TB_SNAP0 + t.reg Reg.TB_SNAP1 * 2 ^ 32 + t.reg Reg.TB_SNAP2 * 2 ^ 64 = dt96 s.dev.tb.dt

/-- TIME_PPS_OUT_EDGE, TIME_PPS_IN_EDGE, PPS_SOURCE_LOSS, PTP_SOURCE_LOSS, DELAY_REQ (R32-R38). -/
def Claims.TimeBaseEvents : Prop :=
  ∀ (s : State) (t0 : Nat), s.up →
    (∀ x, s.dev.tb.pps = some x →
      Completes .timePpsOutEdge s fun t => t.pins.ppsOut = true ∧ t.tb.dt = (s.dev.advanceTo x.next).tb.dt ∧
        t.tb.pps = some x.fire ∧ t.out = s.dev.out ++ [.ppsOut (x.at_ / unitsPerSec)] ∧
        t.tb.ppsFall = some (x.at_ + unitsPerSec / 10)) ∧
    Completes (.timePpsInEdge t0) s (fun t => t.tb.ppsValid = true ∧ t.tb.tod = none) ∧
    Completes (.ppsSourceLoss t0) s (fun t => t.tb.ppsValid = false ∧ t.tb.goodPps = 0 ∧
      (s.dev.flag Reg.TB_CTRL 0 = true → s.dev.tbState = 2 → s.dev.tbPrimary = 2 → s.dev.tbSecondary = 0 →
        t.tbState = 3 ∧ t.flag Reg.TB_EVENTS 1 = true)) ∧
    Completes (.ptpSourceLoss t0) s (fun t => t.tb.ptpValid = false ∧ t.tb.goodPtp = 0 ∧
      (s.dev.flag Reg.TB_CTRL 0 = true → s.dev.tbState = 2 → s.dev.tbPrimary = 1 → s.dev.tbSecondary = 0 →
        t.tbState = 3 ∧ t.flag Reg.TB_EVENTS 1 = true)) ∧
    (s.live → Completes (.delayReq t0) s fun t => t.tb.delayReqTx = some t0 ∧
      t.out = s.dev.out ++ [.delayReq (s.dev.fld Reg.TB_CTRL 15 8) s.dev.tb.transport s.dev.tb.domain])

/-- PTP_MESSAGE (R33): a message on PTP_PORT of the domain programmed, by any of the three transports;
one of another port or domain leaves the device alone but for time. -/
def Claims.PtpMessages : Prop :=
  ∀ (s : State) (m : PtpMsg), s.up →
    (s.dev.fld Reg.TB_CTRL 15 8 = m.port → m.domain = s.dev.tb.domain → m.transport ≤ 2 →
      Completes (.ptpMessage m) s fun t =>
        (m.kind = .sync → t.tb.ptpValid = true ∧ t.tb.syncPair = some (m.origin, m.rx)) ∧
        (m.kind = .syncTwoStep → t.tb.syncRx = some m.rx) ∧
        (∀ t2, m.kind = .followUp → s.dev.tb.syncRx = some t2 →
          t.tb.ptpValid = true ∧ t.tb.syncPair = some (m.origin, t2)) ∧
        (∀ t1 t2 t3 : Nat, m.kind = .delayResp → s.dev.tb.syncPair = some (t1, t2) → s.dev.tb.delayReqTx = some t3 →
          t.tb.pathDelay = (((t2 : Int) - t1) + ((m.origin : Int) - t3)) / 2)) ∧
    (s.dev.fld Reg.TB_CTRL 15 8 ≠ m.port ∨ m.domain ≠ s.dev.tb.domain → Completes (.ptpMessage m) s fun t => t = s.dev.under (s.dev.advanceTo m.rx))

/-- DT_STEP and SET_TOD (R34, R40-R43, R496). -/
def Claims.TimeBaseAdmin : Prop :=
  ∀ (s : State) (o : RingOp) (op : Op), s.live →
    (∀ x : Nat, s.dev.takesAdmin o dtStepFormat levelOne op → dtStepTarget s.dev.tb.dt o.desc = some x →
      Completes (.dtStep o) s fun t => t.tb.dt = x ∧
        t.fld Reg.TB_STATUS 23 16 = (s.dev.fld Reg.TB_STATUS 23 16 + 1) % 256 ∧
        t.flag Reg.TB_EVENTS 4 = true) ∧
    (s.dev.takesAdmin o (fun x => lengthOf x == 0 && zeroAt x 8 8 && zeroAt x 22 42) levelOne op →
      Completes (.setTod o) s fun t => t.tb.tod = some (Desc.le o.desc 16 6) ∧ t.tb.dt = s.dev.tb.dt)

/-! ### Host interface (spec/03_host_interface.md) -/

/-- CONFIG_REQUEST and LINK_TRAINED (R48, R54): Request Retry Status until the device is ready; then a field of the
function's configuration space takes its value, and NumVFs its number; a link below 16.0 GT/s or below x4 is degraded. -/
def Claims.ConfigurationAndLink : Prop :=
  ∀ (s : State) (f r w : Nat) (on : Bool), s.up →
    (s.dev.host.ready = false → ∀ c, Completes (.configRequest f c) s fun t =>
      t.out = s.dev.out ++ [.cfgRetry] ∧ t.host = s.dev.host) ∧
    (s.dev.host.ready = true → f ≤ s.dev.host.numVfs →
      Completes (.configRequest f (.busMaster on)) s (fun t => (t.fn f).bme = on) ∧
      Completes (.configRequest f (.d3hot on)) s (fun t => (t.fn f).d3 = on) ∧
      Completes (.configRequest f (.fnMask on)) s (fun t => (t.fn f).fnMask = on) ∧
      Completes (.configRequest f (.relaxedOrdering on)) s (fun t => (t.fn f).roEnable = on) ∧
      Completes (.configRequest f .clearPme) s (fun t => (t.fn f).pmeStatus = false) ∧
      (f = 0 → ∀ n ≤ 63, s.dev.host.numVfs ≤ n →
        Completes (.configRequest 0 (.numVfs n)) s fun t => t.host.numVfs = n)) ∧
    Completes (.linkTrained r w) s fun t => t.host.linkRate = r ∧ t.host.linkWidth = w ∧ t.host.linkActive = true ∧
      ((SMap.find t.fc.conds 48).isSome = true ↔ r < 160 ∨ w < 4)

/-- VF_FLR, VF_FLR_COMPLETE, VF_DISABLE, PF_FLR (R54-R56, R543): after an FLR the function's control page holds its
reset values, its in-service stack is empty, it masters no bus and READY stays 0 until the reset completes. -/
def Claims.FunctionResets : Prop :=
  ∀ (s : State) (f n : Nat), s.up →
    (1 ≤ f → f < 64 → Completes (.vfFlr f) s fun t => (t.fn f).flr = true ∧ (t.fn f).bme = false ∧
      (t.fn f).negotiated = false ∧ t.reg (Reg.FN_CTRL f) = 0 ∧ t.flag (Reg.FN_STATUS f) 0 = false ∧
      t.intStack f = []) ∧
    (f < 64 → (s.dev.fn f).flr = true → Completes (.vfFlrComplete f) s fun t => (t.fn f).flr = false ∧
      t.flag (Reg.FN_STATUS f) 0 = (s.dev.bootState == 3)) ∧
    (n < s.dev.host.numVfs → Completes (.vfDisable n) s fun t => t.host.numVfs = n) ∧
    Completes .pfFlr s fun t => t = s.dev.under ((List.range 64).foldl (fun e k => e.flr k) s.dev)

/-- BAR2_WRITE and BAR2_READ (R52, R53): a write inside the function's window is posted in order and reaches the data
space no later than the function's next read; outside the window it changes no memory, and a read returns all ones. -/
def Claims.Bar2Accesses : Prop :=
  ∀ (s : State) (f off n : Nat) (data : List Byte), s.live →
    (off + data.length ≤ (s.dev.fn f).window.count → Completes (.bar2Write f off data) s fun t =>
      t.dataMem = s.dev.dataMem ∧ (t.fn f).posted = (s.dev.fn f).posted ++
        (List.range data.length).map fun i => ((s.dev.fn f).window.first + off + i, data.getD i 0)) ∧
    ((s.dev.fn f).window.count < off + data.length → Completes (.bar2Write f off data) s fun t =>
      t.dataMem = s.dev.dataMem ∧ t.host = s.dev.host ∧ t.flag (Reg.FC_STICKY 2) 2 = true) ∧
    (off + n ≤ (s.dev.fn f).window.count → Completes (.bar2Read f off n) s fun t => (t.fn f).posted = [] ∧
      ∃ l ep, t.out = s.dev.out ++ [.bar2 f l ep] ∧ l.length = n ∧
        (ep = false → l = t.dataRead ((s.dev.fn f).window.first + off) n)) ∧
    ((s.dev.fn f).window.count < off + n → Completes (.bar2Read f off n) s fun t =>
      t.out = s.dev.out ++ [.bar2 f (List.replicate n 0xFF) false])

/-- FN_ENABLE_SET, FN_ENABLE_CLEAR, CLR_REJECTED, ADMIN_QUIESCE_DONE (R57, R58), of a function that is ready. -/
def Claims.ControlPage : Prop :=
  ∀ (s : State) (f : Nat) (v : W32), s.live → s.dev.flag (Reg.FN_STATUS f) 0 = true → f < 64 →
    f ≤ s.dev.host.numVfs →
    (s.dev.flag (Reg.FN_CTRL f) 0 = false → s.dev.admAligned f = true →
      Completes (.fnEnableSet f v) s fun t => t.flag (Reg.FN_CTRL f) 0 = true ∧ t.flag (Reg.FN_STATUS f) 4 = false ∧
        ∃ x, t.ring f = some x ∧ x.type = 3 ∧ x.fn = f ∧ x.ci = 0 ∧ x.stopped = false) ∧
    (s.dev.flag (Reg.FN_CTRL f) 0 = true → ∀ x, s.dev.ring f = some x →
      Completes (.fnEnableClear f v) s fun t => t.flag (Reg.FN_CTRL f) 0 = false ∧
        ∃ y, t.ring f = some y ∧ y.closing = true ∧ y.fetched = x.fetched) ∧
    (bit v.toNat 0 = false → s.dev.flag (Reg.FN_CTRL f) 0 = false → s.dev.flag (Reg.FN_STATUS f) 4 = true →
      Completes (.clrRejected f v) s fun t => t.flag (Reg.FN_STATUS f) 5 = false) ∧
    (s.dev.flag (Reg.FN_CTRL f) 0 = false → (∀ p ∈ s.dev.host.ops, p.ring ≠ f) →
      (∀ x, s.dev.ring f = some x → x.fetched = []) →
      Completes (.adminQuiesceDone f) s fun t => t.ring f = none ∧ t.cq f = none ∧
        t.flag (Reg.FN_STATUS f) 4 = true)

/-! ### Rings and completion queues -/

/-- RING_POLL, RING_IDLE_TIMEOUT, SLEEP_RECHECK, WAKE_WRITE, CQ_HEAD_READ (R62-R64, R67). -/
def Claims.RingRecords : Prop :=
  ∀ (s : State) (r c : Nat) (x : Ring) (q : Cq) (v : W32), s.live → s.dev.ring r = some x →
    -- a stale record epoch is counted, and nothing is fetched (R62)
    (x.asleep = false → x.stopped = false → x.closing = false → (x.type = 3 → s.dev.mgmt.restarting = false) →
      s.dev.hostNum (x.recAddr + 4) 2 ≠ x.epoch →
      Completes (.ringPoll r []) s fun t => t.ring r = some { x with stale := x.stale + 1 }) ∧
    -- a PI more than the ring's size ahead of CI stops the ring (R62)
    (x.asleep = false → x.stopped = false → x.closing = false → (x.type = 3 → s.dev.mgmt.restarting = false) →
      s.dev.hostNum (x.recAddr + 4) 2 = x.epoch →
      2 ^ x.sizeLog2 < (s.dev.hostNum x.recAddr 4 + 2 ^ 32 - x.ci) % 2 ^ 32 →
      Completes (.ringPoll r []) s fun t =>
        t.ring r = some { x with stopped := true, indexError := true } ∧ t.flag (Reg.FC_STICKY 2) 1 = true) ∧
    (x.asleep = false → x.sleepSeq = false → x.stopped = false → x.closing = false →
      Completes (.ringIdleTimeout r) s fun t => t.ring r = some { x with needsWake := true, sleepSeq := true } ∧
        t.hostNum (x.recAddr + 38) 2 = Ring.rstatus { x with needsWake := true, sleepSeq := true }) ∧
    -- the ring sleeps when PI has not changed; a record of another epoch is stale, and counts as no change (R62, R63)
    (x.sleepSeq = true → s.dev.hostNum (x.recAddr + 4) 2 = x.epoch → s.dev.hostNum x.recAddr 4 = x.lastPi →
      Completes (.sleepRecheck r []) s fun t => t.ring r = some { x with sleepSeq := false, asleep := true }) ∧
    (x.sleepSeq = true → s.dev.hostNum (x.recAddr + 4) 2 ≠ x.epoch →
      Completes (.sleepRecheck r []) s fun t =>
        t.ring r = some { x with sleepSeq := false, asleep := true, stale := x.stale + 1 }) ∧
    (bits v.toNat 11 0 = r → bits v.toNat 31 16 = x.epoch → x.asleep = true →
      Completes (.wakeWrite x.fn 0 v []) s fun t =>
        ∃ y, t.ring r = some y ∧ y.asleep = false ∧ y.sleepSeq = false ∧ y.needsWake = false) ∧
    (∀ h, s.dev.cq c = some q → q.full = true → s.dev.hostNum q.head 4 = h → q.consumed ≤ h → h ≤ q.written →
      q.written < 2 ^ 32 → Completes (.cqHeadRead c []) s fun t => (t.cq c).map Cq.consumed = some h)

/-- What RING_POLL of an active ring leaves when its record is of this epoch and PI is at most the ring's size ahead of CI
(R62, R67, R69, R73): descriptors are fetched from CI up to PI while the completion queue has room; of a full queue
CQ_WAIT is set; one descriptor is fetched as it stands in host memory, with the levels, the epoch and the DT of that moment. -/
def Claims.RingPolls : Prop :=
  ∀ (s : State) (r : Nat) (x : Ring), s.live → s.dev.ring r = some x →
    x.asleep = false → x.stopped = false → x.closing = false → (x.type = 3 → s.dev.mgmt.restarting = false) →
    s.dev.hostNum (x.recAddr + 4) 2 = x.epoch →
    ¬ 2 ^ x.sizeLog2 < (s.dev.hostNum x.recAddr 4 + 2 ^ 32 - x.ci) % 2 ^ 32 →
    ((s.dev.cq x.cq).any Cq.full = false → Completes (.ringPoll r []) s fun t =>
      t.ring r = some (s.dev.fetch r (2 ^ x.sizeLog2) (s.dev.sawPi x))) ∧
    ((s.dev.cq x.cq).any Cq.full = true → Completes (.ringPoll r []) s fun t =>
      t.ring r = some { s.dev.sawPi x with cqWait := true }) ∧
    ((s.dev.cq x.cq).any Cq.full = false → (s.dev.hostNum x.recAddr 4 + 2 ^ 32 - x.ci) % 2 ^ 32 = 1 →
      s.dev.fenced r x = false → flagChain (s.dev.slotDesc x x.ci) = false →
      Completes (.ringPoll r []) s fun t => ∃ y f, t.ring r = some y ∧ y.fetched = x.fetched ++ [f] ∧
        y.ci = (x.ci + 1) % 2 ^ 32 ∧ y.lastPi = s.dev.hostNum x.recAddr 4 ∧
        f = ⟨s.dev.slotDesc x x.ci, [], s.dev.host.epoch, s.dev.ringLevel x, s.dev.iface x.fn,
          frameStatus (s.dev.iface x.fn) (s.dev.slotDesc x x.ci) [], s.dev.tb.dt⟩)

/-- The operations that have no result yet. -/
def Claims.unfinished (d : Dev) : Nat := d.host.ops.countP fun p => p.result.isNone

/-- The descriptor formats of the admin commands (R8, R68): their reserved bytes are 0. -/
def Claims.fmtTwelve (x : Desc) : Bool := noLength x && Desc.field x 8 15 12 == 0 && zeroAt x 10 54

/-- NOP (R66, R70, R72): its completion record stands in the queue's next slot, with the queue's phase. -/
def Claims.NopCompletion : Prop :=
  ∀ (s : State) (o : RingOp) (op : Op) (x : Ring) (q : Cq) (key : Op → Nat), s.live → s.dev.host.ops = [] →
    (key = fun p => if flagBarrier p.desc || decide (2 ≤ s.dev.ringType p.ring) then keyRing p.ring else keyFree p.id) →
    s.dev.takes o key op → opcodeOf o.desc = 0 → flagForceKey o.desc = false → noLength o.desc = true →
    zeroAt o.desc 8 56 = true →
    (s.dev.start o key).1.ring op.ring = some x → (s.dev.start o key).1.cq x.cq = some q → q.full = false →
    Completes (.nop o) s fun t => t.host.ops = [] ∧ (t.cq x.cq).map Cq.written = some (q.written + 1) ∧
      (q.src = 0xFFFF → t.hostRead (q.base + q.written % 2 ^ q.sizeLog2 * 32) 32 =
        recordBytes op (resOf stOk) s.dev.tb.dt q.phase)

/-- NEGOTIATE, CREATE_CQ, CREATE_RING (R80-R82). -/
def Claims.NegotiateAndCreate : Prop :=
  ∀ (s : State) (o : RingOp) (op : Op), s.live →
    (∀ l, s.dev.takesAdmin o (fun x => noLength x && zeroAt x 10 54) levelTwo op → (s.dev.fn op.fn).negotiated = false →
      negotiated (Desc.byte o.desc 8) (Desc.byte o.desc 9) = some l →
      Completes (.negotiate o) s fun t => (t.fn op.fn).negotiated = true ∧ t.fld (Reg.FN_STATUS op.fn) 15 8 = l ∧
        t.mgmt.hostSeen = true) ∧
    (s.dev.takesAdmin o
        (fun x => noLength x && Desc.field x 8 15 11 == 0 && zeroAt x 11 1 && zeroAt x 14 2 && zeroAt x 32 32) levelTwo op →
      (s.dev.start o adminKey).1.cqStatus op = 0 →
      Completes (.createCq o) s fun t => ∃ q, t.cq (Desc.field o.desc 8 10 0) = some q ∧
        q.sizeLog2 = Desc.byte o.desc 10 ∧ q.base = Desc.le o.desc 16 8 ∧ q.head = Desc.le o.desc 24 8 ∧
        q.src = Desc.le o.desc 12 2 ∧ q.consumed = 0) ∧
    (s.dev.takesAdmin o (fun x => noLength x && Desc.field x 8 15 12 == 0 && zeroAt x 40 24) levelTwo op →
      (s.dev.start o adminKey).1.ringStatus op = 0 →
      Completes (.createRing o) s fun t => ∃ y, t.ring (Desc.field o.desc 8 11 0) = some y ∧
        y.type = Desc.byte o.desc 10 ∧ y.sizeLog2 = Desc.byte o.desc 11 ∧ y.base = Desc.le o.desc 16 8 ∧
        y.recAddr = Desc.le o.desc 24 8 ∧ y.cq = Desc.le o.desc 12 2 ∧ y.epoch = Desc.le o.desc 32 2 ∧ y.ci = 0 ∧
        y.asleep = false ∧ y.stopped = false ∧ y.fetched = [])

/-- DESTROY_RING, DESTROY_RING_DONE, DESTROY_CQ (R79, R80). -/
def Claims.DestroyRingsAndQueues : Prop :=
  ∀ (s : State) (o : RingOp) (op : Op) (x : Ring) (q : Cq) (r : Nat), s.live →
    (s.dev.takesAdmin o Claims.fmtTwelve levelTwo op → Desc.field o.desc 8 11 0 = r → 64 ≤ r →
      (s.dev.start o adminKey).1.ring r = some x → op.level ≤ 1 →
      Completes (.destroyRing o) s fun t => t.ring r = some { x with closing := true, sleepSeq := false }) ∧
    ((s.dev.waiting fun p => opcodeOf p.desc == 0x13 && s.dev.ringType p.ring == 3 && Desc.field p.desc 8 11 0 == r) =
        some op → (∀ p ∈ s.dev.host.ops, p.ring ≠ r) → (∀ y, s.dev.ring r = some y → y.fetched = []) →
      Completes (.destroyRingDone r) s fun t => t.ring r = none) ∧
    (s.dev.takesAdmin o (fun x => noLength x && Desc.field x 8 15 11 == 0 && zeroAt x 10 54) levelTwo op →
      Desc.field o.desc 8 10 0 = r → 64 ≤ r → (s.dev.start o adminKey).1.cq r = some q →
      (∀ k y, (k, y) ∈ (s.dev.start o adminKey).1.host.rings → y.cq ≠ r) → op.level ≤ 1 →
      Completes (.destroyCq o) s fun t => t.cq r = none)

/-- SET_PROTECTION, EPOCH_DRAIN, EPOCH_DRAIN_DONE, FLUSH, FLUSH_DONE (R53, R84, R85). -/
def Claims.ProtectionAndDrains : Prop :=
  ∀ (s : State) (o : RingOp) (op : Op) (f : Nat), s.live →
    (s.dev.takesAdmin o protFormat levelOne op → op.tail = [] →
      (s.dev.start o adminKey).1.itemStatus (protItem o.desc) = 0 →
      Completes (.setProtection o) s fun t => t.host.epoch = (s.dev.host.epoch + 1) % 2 ^ 32 ∧
        ∃ held pme, t.fn (protItem o.desc).fn =
          { (s.dev.fn (protItem o.desc).fn).withItem (protItem o.desc) with pba := held, pmeStatus := pme }) ∧
    (s.dev.takesAdmin o (fun x => noLength x && zeroAt x 12 52) levelTwo op →
      Completes (.epochDrain o) s fun t => op ∈ t.host.ops ∧ op.result = none) ∧
    ((s.dev.waiting fun p => p.ring == f && opcodeOf p.desc == 0x19) = some op →
      s.dev.drainBusy op.id (Desc.le op.desc 8 4) = false →
      Completes (.epochDrainDone f) s fun t => Claims.unfinished t + 1 = Claims.unfinished s.dev) ∧
    (s.dev.takesAdmin o (fun x => noLength x && zeroAt x 8 56) levelTwo op →
      Completes (.flush o) s fun t => op ∈ t.host.ops ∧ op.result = none) ∧
    ((s.dev.waiting fun p => p.ring == f && opcodeOf p.desc == 0x1A) = some op →
      Completes (.flushDone f) s fun t => (t.fn f).posted = [] ∧ Claims.unfinished t + 1 = Claims.unfinished s.dev)

/-! ### Registers of block windows (spec/04_register_behaviour.md) -/

/-- REGISTER_WRITE and BAR0_REFUSED (R83, R87-R91): an RW register takes the value, an RO register and an address
without a register ignore it, a closed RWL field sets CFG_REJECTED, and a refused access is counted with a NOTE fault. -/
def Claims.RegisterWrites : Prop :=
  ∀ (s : State) (w : Writer) (v : W32), s.live → s.dev.mayWrite w →
    (∀ a ∈ [Reg.FC_FORCE_INFO_LO, Reg.FC_FORCE_INFO_HI, Reg.PM_USER_FN_LO, Reg.PM_USER_FN_HI],
      Completes (.registerWrite w a v) s fun t => t.reg a = v.toNat) ∧
    (∀ a ∈ [Reg.TB_STATUS, Reg.FC_MH_COUNT, Reg.FLOWS_OPEN, Reg.MEM_SPARES, Reg.DMA_STOPS],
      Completes (.registerWrite w a v) s fun t => t.reg a = s.dev.reg a) ∧
    (∀ a, a % 4 = 0 → a / 0x100000 < 50 → a / 0x100000 ≠ 1 → a / 0x100000 ≠ 3 → a % 0x100000 < 0x40000 →
      a / 0x100000 ≠ 10 → a / 0x100000 ≠ 11 → a / 0x100000 ≠ 15 → regRow a = none →
      Completes (.registerWrite w a v) s fun t => t = s.dev.under s.dev) ∧
    (s.dev.rwlOpen 2 = false → bits v.toNat 15 8 ≠ s.dev.fld Reg.TB_CTRL 15 8 → bit v.toNat 0 = s.dev.flag Reg.TB_CTRL 0 →
      Completes (.registerWrite w Reg.TB_CTRL v) s fun t => t.fld Reg.TB_CTRL 15 8 = s.dev.fld Reg.TB_CTRL 15 8 ∧
        t.flag (Reg.BLK_STATUS 2) 0 = true) ∧
    (∀ a, a % 4 = 0 → a / 0x100000 = 50 ∨ a / 0x100000 = 51 →
      Completes (.registerWrite .pf a v) s fun t =>
        t.reg Reg.GLB_BAR0_REFUSED = (s.dev.reg Reg.GLB_BAR0_REFUSED + 1) % 2 ^ 32 ∧
        t.flag (Reg.FC_STICKY 2) 3 = true) ∧
    (∀ f a size wr, ¬ ((size = 4 ∧ a % 4 = 0) ∨ (size = 8 ∧ a % 8 = 0)) →
      Completes (.bar0Refused f a size wr) s fun t =>
        t.reg Reg.GLB_BAR0_REFUSED = (s.dev.reg Reg.GLB_BAR0_REFUSED + 1) % 2 ^ 32 ∧
        t.flag (Reg.FC_STICKY 2) 3 = true ∧ t.out = s.dev.out ++ (if wr then [] else [.regData (2 ^ (8 * size) - 1)]))

/-- BLOCK_ENABLE_SET, BLOCK_ENABLE_CLEAR, BLOCK_QUIESCED (R92). -/
def Claims.BlockEnables : Prop :=
  ∀ (s : State) (w : Writer) (v : W32) (win : Nat), s.live → s.dev.mayWrite w →
    (∀ row ix, win ∈ [9, 10, 14, 15, 16, 17, 18, 19, 20, 21, 22, 23] →
      regRow (win * 0x100000) = some (row, ix) → s.dev.flag (win * 0x100000) 0 = false →
      fldsOk (s.dev.stores win) (withBit v 0) row.flds = true →
      Completes (.blockEnableSet w win v) s fun t => t.flag (win * 0x100000) 0 = true ∧
        t.flag (Reg.BLK_STATE win) 2 = false) ∧
    (∀ row ix, win ∈ [9, 10, 14, 15] → regRow (win * 0x100000) = some (row, ix) →
      s.dev.flag (win * 0x100000) 0 = true → s.dev.flag (Reg.BLK_STATE win) 0 = false →
      fldsOk (s.dev.stores win) (withoutBit v 0) row.flds = true →
      Completes (.blockEnableClear w win v) s fun t => t.flag (win * 0x100000) 0 = false) ∧
    (hasEnable win = true → s.dev.enabled win = false → s.dev.drained win = true →
      Completes (.blockQuiesced win) s fun t => t.flag (Reg.BLK_STATE win) 2 = true)

/-- COMMIT, DISCARD, SAFE_POINT_APPLY (R93-R97), with one register staged. -/
def Claims.LiveCommits : Prop :=
  ∀ (s : State) (w : Writer) (v : W32) (win a : Nat) (x : W32), s.live → s.dev.mayWrite w →
    s.dev.staged = [(a, x)] → a / 0x100000 = win → a ≠ Reg.BLK_STATE win →
    (win = 9 ∨ win = 10 → bit v.toNat 1 = false → s.dev.flag (Reg.BLK_STATE win) 0 = false →
      s.dev.hasApplied win 0 = false →
      Completes (.commit w win v) s fun t => t.reg a = x.toNat ∧ t.staged = [] ∧
        t.flag (Reg.BLK_STATE win) 0 = false ∧
        t.fld (Reg.BLK_STATE win) 31 16 = (s.dev.fld (Reg.BLK_STATE win) 31 16 + 1) % 65536) ∧
    (liveWindow win = true → bit v.toNat 0 = false → s.dev.flag (Reg.BLK_STATE win) 0 = false →
      Completes (.discard w win v) s fun t => t.reg a = s.dev.reg a ∧ t.staged = [] ∧
        t.flag (Reg.BLK_STATE win) 1 = false) ∧
    (liveWindow win = true → liveUnits win = 1 → (safeKnown win = true → s.dev.atSafe win 0 = true) →
      s.dev.flag (Reg.BLK_STATE win) 0 = true →
      s.dev.hasApplied win 0 = false →
      Completes (.safePointApply win 0) s fun t => t.reg a = x.toNat ∧ t.staged = [] ∧
        t.flag (Reg.BLK_STATE win) 0 = false)

/-- SQC_CLEAR (R98, R99): the current SEQ clears the masked bits, any other leaves the register and sets STALE_CLEAR. -/
def Claims.SequenceClears : Prop :=
  ∀ (s : State) (w : Writer) (v : W32) (a : Nat), s.live → s.dev.mayWrite w →
    a ∈ [Reg.TB_EVENTS, Reg.BUN_EVENTS, Reg.PAR_EVENTS, Reg.QM_EVENTS, Reg.HOIST_EVENTS, Reg.GATE_EVENTS,
      Reg.CRY_EVENTS, Reg.MEM_EVENTS, Reg.MGMT_EVENTS, Reg.FC_STICKY 0] →
    (bits v.toNat 31 24 = s.dev.fld a 31 24 → Completes (.sqcClear w a v) s fun t =>
      t.reg a = s.dev.reg a - (s.dev.reg a &&& bits v.toNat 23 0) ∧
      t.reg (Reg.BLK_STATUS (a / 0x100000)) = s.dev.reg (Reg.BLK_STATUS (a / 0x100000))) ∧
    (bits v.toNat 31 24 ≠ s.dev.fld a 31 24 → Completes (.sqcClear w a v) s fun t => t.reg a = s.dev.reg a ∧
      t.flag (Reg.BLK_STATUS (a / 0x100000)) 1 = true)

/-- ALIAS_WRITE (R100, R101): word 32i + b of the alias region writes bit b of the register at offset 4i. -/
def Claims.AliasWrites : Prop :=
  ∀ (s : State) (w : Writer) (v : W32) (b : Nat), s.live → s.dev.mayWrite w → b < 32 →
    Completes (.aliasWrite w (0x700000 + 0x80000 + 4 * (32 * 0x18 + b)) v) s fun t =>
      t.flag Reg.PM_USER_FN_LO b = (v.toNat % 2 == 1) ∧
      ∀ k < 32, k ≠ b → t.flag Reg.PM_USER_FN_LO k = s.dev.flag Reg.PM_USER_FN_LO k

/-! ### Resets (spec/23_pins_power_package.md R531-R538, spec/21_management_security.md R481-R482, R507) -/

/-- What every reset leaves (R103, R534, R535): the device is held, no ring, operation or context remains, the data
space is unlisted, DT is 0 and the flash log stands. -/
def Claims.held (d t : Dev) : Prop :=
  t.pins.inReset = true ∧ t.host.rings = [] ∧ t.host.ops = [] ∧ t.media.ctxs = [] ∧ t.dlv.flows = [] ∧
  t.dataMem = [] ∧ t.tb.dt = 0 ∧ t.fc.flashLog = d.fc.flashLog ∧ t.pins.fatalStop = false ∧ t.pins.faultN = false

/-- POWER_ON_RESET, WARM_RESET, RESET_DELAY_EXPIRE, SMB_RESET, THERMAL_HOLD (R507, R533, R535-R537): CAUSE keeps the first
cause while the device is held, and COUNT counts warm resets up to 65535. -/
def Claims.ResetEntry : Prop :=
  ∀ (s : State) (straps : Nat),
    (∀ vdd, Completes (.powerOnReset vdd straps) s fun t => Claims.held s.dev t ∧ t.pins.porN = false ∧
      t.fld Reg.GLB_RESET 31 16 = 0 ∧
      t.fld Reg.GLB_RESET 3 0 = if s.dev.pins.inReset then s.dev.fld Reg.GLB_RESET 3 0 else if vdd then 2 else 1) ∧
    (s.up → ∀ c ∈ [4, 5, 6, 7], Completes (.warmReset c) s fun t => Claims.held s.dev t ∧
      t.fld Reg.GLB_RESET 3 0 = c ∧ t.fld Reg.GLB_RESET 31 16 = min 65535 (s.dev.fld Reg.GLB_RESET 31 16 + 1) ∧
      (c = 4 → t.pins.perstN = false) ∧ (c = 5 → t.pins.sysResetN = false) ∧ (6 ≤ c → t.pins.internal = true)) ∧
    (s.up → ∀ x, s.dev.mgmt.resetDue = some x → Completes .resetDelayExpire s fun t => Claims.held s.dev t ∧
      t.fld Reg.GLB_RESET 3 0 = 6 ∧ t.pins.internal = true) ∧
    (s.up → Completes (.smbReset 0 0xA5) s fun t => Claims.held s.dev t ∧ t.fld Reg.GLB_RESET 3 0 = 7 ∧
      t.pins.internal = true) ∧
    (s.dev.pins.porN = true → s.dev.pins.thermalHold = false → Completes .thermalHold s fun t =>
      Claims.held s.dev t ∧ t.pins.thermalHold = true)

/-- RESET_RELEASE and THERMAL_HOLD_EXIT (R481, R534, R537): the device leaves reset when all three inputs are high and
nothing else holds it; a hot die stays held. -/
def Claims.ResetRelease : Prop :=
  ∀ (s : State) (p : ReleasePins) (temps : List Int), s.dev.pins.inReset = true →
    (p.por = true → p.sysReset = true → p.perst = true → s.dev.pins.thermalHold = false →
      Completes (.resetRelease p) s fun t => t.pins.inReset = false ∧ t.pins.porN = true ∧ t.pins.sysResetN = true ∧
        t.pins.perstN = true ∧ (t.bootState = 1 ∨ t.bootState = 5)) ∧
    (p.por = false ∨ p.sysReset = false ∨ p.perst = false → Completes (.resetRelease p) s fun t =>
      t.pins.inReset = true ∧ t.pins.porN = p.por ∧ t.pins.sysResetN = p.sysReset ∧ t.pins.perstN = p.perst) ∧
    (s.dev.pins.thermalHold = true → (∀ x ∈ temps, x < 100) → s.dev.pins.porN = true → s.dev.pins.sysResetN = true →
      s.dev.pins.perstN = true → s.dev.pins.internal = false →
      Completes (.thermalHoldExit temps) s fun t => t.pins.thermalHold = false ∧ t.pins.inReset = false)

/-- DEVICE_READY (R54, R481, R482): start-up ends in READY, or in FAILED or RECOVERY with READY 0; Request Retry Status
ends in each case. -/
def Claims.DeviceReady : Prop :=
  ∀ (s : State) (b : BootInfo), s.up → s.dev.host.ready = false →
    (s.dev.bootState = 5 ∨ b.cause = 1 → Completes (.deviceReady b) s fun t => t.host.ready = true ∧ t.bootState = 5 ∧
      t.fld Reg.MGMT_BOOT 15 8 = 1 ∧ t.pins.smbAlert = true) ∧
    (s.dev.bootState ≠ 5 → b.cause = 4 ∨ b.cause = 5 → Completes (.deviceReady b) s fun t => t.host.ready = true ∧
      t.bootState = 4 ∧ t.fld Reg.MGMT_BOOT 15 8 = b.cause) ∧
    (s.dev.bootState ≠ 5 → b.cause = 0 →
      ((s.dev.advanceTo b.t).startImage b).startConfig.capFail = none →
      ((s.dev.advanceTo b.t).startImage b).startConfig.badPool = none →
      Completes (.deviceReady b) s fun t => t.host.ready = true ∧ t.bootState = 3 ∧
        ∀ f < 64, t.flag (Reg.FN_STATUS f) 0 = true)

/-! ### Contexts, groups and source pictures (spec/05_coding_contexts.md, spec/06_source_analysis.md) -/

/-- CREATE_CONTEXT (R108, R118, R126, R127): the context stands on the tile it is placed on, READY for rate control if
it encodes, else ACTIVE, with its reference buffers. -/
def Claims.ContextCreation : Prop :=
  ∀ (s : State) (o : RingOp) (op : Op) (tile : Nat), s.live → s.dev.takes o ctxKey op →
    (s.dev.start o ctxKey).1.contextStatus op = 0 →
    (s.dev.start o ctxKey).1.place (newCtx op.desc) = .inl tile →
    ((s.dev.start o ctxKey).1.takeRefs (0x2000 + (newCtx op.desc).ctx) (newCtx op.desc).buffers []).2.isSome = true →
    Completes (.createContext o) s fun t => ∃ x, t.ctx (ctxNum op.desc) = some x ∧
      x.state = (if Desc.byte op.desc 10 = 1 then 1 else 2) ∧ x.kind = Desc.byte op.desc 10 ∧
      x.cls = Desc.byte op.desc 11 ∧ x.codec = Desc.byte op.desc 12 ∧ x.width = Desc.le op.desc 16 2 ∧
      x.height = Desc.le op.desc 18 2 ∧ x.tile = tile ∧ x.cost = (newCtx op.desc).cost ∧
      x.buffers.length = (newCtx op.desc).buffers ∧ x.rc = none ∧ x.out = []

/-- DESTROY_CONTEXT and CONTEXT_DRAINED (R108, R129): DRAINING drops what was not written; drained, the number is FREE. -/
def Claims.ContextEnd : Prop :=
  ∀ (s : State) (o : RingOp) (op : Op) (x : Ctx) (c : Nat), s.live →
    (s.dev.takes o ctxKey op → (s.dev.start o ctxKey).1.destroyContextStatus op = 0 → ctxNum op.desc = c →
      (s.dev.start o ctxKey).1.ctx c = some x →
      Completes (.destroyContext o) s fun t => t.ctx c = some { x with
        state := 4, out := [], sides := [], getAus := [], gop := [], ahead := [], hidden := [] }) ∧
    (s.dev.ctx c = some x → x.state = 4 → (s.dev.tile x.tile).active c = false →
      (∀ p ∈ s.dev.host.ops, p.key = keyCtx c → opcodeOf p.desc = 0x21) →
      Completes (.contextDrained c) s fun t => t.ctx c = none)

/-- CREATE_GROUP, DESTROY_GROUP, KEY_NOW (R121, R124, R128, R129). -/
def Claims.GroupCommands : Prop :=
  ∀ (s : State) (o : RingOp) (op : Op) (g : Nat) (x : Group), s.live → s.dev.takes o freeKey op →
    Desc.field op.desc 8 8 0 = g →
    (((s.dev.start o freeKey).1.groupRun op).2.status = stOk →
      Completes (.createGroup o) s fun t => ∃ y, t.group g = some y ∧ y.fn = op.fn ∧ y.members = [] ∧
        y.lookahead = Desc.byte op.desc 11 ∧ y.failed = false ∧ y.cls = Desc.byte op.desc 30 ∧
        (Desc.byte op.desc 14 < 4 → y.tile = Desc.byte op.desc 14)) ∧
    ((s.dev.start o freeKey).1.destroyGroupStatus op = 0 → (s.dev.start o freeKey).1.group g = some x →
      Completes (.destroyGroup o) s fun t => t.group g = none) ∧
    ((s.dev.start o freeKey).1.keyNowStatus op = 0 → (s.dev.start o freeKey).1.group g = some x →
      Completes (.keyNow o) s fun t => op ∈ t.host.ops ∧
        t.group g = some { x with src := { x.src with keyNow := x.src.keyNow ++ [⟨op.id, op.at_,
          (x.src.pics.find? fun p => p.force && p.analysis.isNone).map SrcPic.n⟩] } })

/-- SET_RATE_CONTROL (R108, R224-R226): the first one activates the context, a later one takes effect at the next
picture. -/
def Claims.RateControl : Prop :=
  ∀ (s : State) (o : RingOp) (op : Op) (x : Ctx), s.live → s.dev.takes o ctxKey op →
    (s.dev.start o ctxKey).1.rateStatus op = 0 → (s.dev.start o ctxKey).1.ctx (ctxNum op.desc) = some x →
    Completes (.setRateControl o) s fun t => t.ctx (ctxNum op.desc) = some { x with
      state := 2
      rc := some (match x.rc with
        | none => rcFirst x.codec (rcParams op.desc)
        | some r => { r with next := some (rcParams op.desc) }) }

/-- PICTURE (R130, R155): a group and an analyse context queue the picture, a standalone encode takes it at once; with
LENGTH 0 nothing is queued. -/
def Claims.SourcePictures : Prop :=
  ∀ (s : State) (o : RingOp) (op : Op) (x : Source), s.live → s.dev.takes o pictureKey op →
    (s.dev.start o pictureKey).1.source (pictureRef op.desc) = some x →
    (lengthOf op.desc = 1 → (s.dev.start o pictureKey).1.pictureRefusal op = 0 →
      Completes (.picture o) s fun t => op ∈ t.host.ops ∧
        (pictureRef op.desc = .group (ctxNum op.desc) ∨
            (∀ y, (s.dev.start o pictureKey).1.ctx (ctxNum op.desc) = some y → y.kind = 2) →
          t.source (pictureRef op.desc) = some (x.take (newPic x.count (ofDt96 (Desc.dt op.desc 24))
            (Desc.le op.desc 16 8) [] (formatOf ((s.dev.start o pictureKey).1.dataRead (Desc.le op.desc 16 8) 256))
            (flagForceKey op.desc) (some op.id) 0))) ∧
        (∃ y, t.source (pictureRef op.desc) = some y ∧ y.count = x.count + 1 ∧
          y.lastDt = some (ofDt96 (Desc.dt op.desc 24)))) ∧
    (lengthOf op.desc = 0 → (s.dev.start o pictureKey).1.pictureGate op = 0 → flagForceKey op.desc = false →
      Completes (.picture o) s fun t => t.source (pictureRef op.desc) = some x)

/-- BITSTREAM (R131, R247, R256): the data joins the context's stream; END_OF_STREAM alone marks the last part. -/
def Claims.BitstreamInput : Prop :=
  ∀ (s : State) (o : RingOp) (op : Op) (x : Ctx), s.live → s.dev.takes o ctxKey op →
    (s.dev.start o ctxKey).1.bitstreamStatus op = 0 → (s.dev.start o ctxKey).1.ctx (ctxNum op.desc) = some x →
    (Desc.le op.desc 12 4 ≠ 0 → Completes (.bitstream o) s fun t => op ∈ t.host.ops ∧
      t.ctx (ctxNum op.desc) = some { x with dec := { x.dec with
        parts := x.dec.parts ++ [⟨op.id, Desc.le op.desc 16 8, Desc.le op.desc 12 4, 0, ofDt96 (Desc.dt op.desc 24), 0, 0,
          Desc.field op.desc 10 0 0 == 1⟩]
        arrival := ofDt96 (Desc.dt op.desc 24)
        openAt := some s.dev.tb.dt } }) ∧
    (Desc.le op.desc 12 4 = 0 → Desc.field op.desc 10 0 0 = 0 →
      Completes (.bitstream o) s fun t => t.ctx (ctxNum op.desc) = some x) ∧
    (Desc.le op.desc 12 4 = 0 → Desc.field op.desc 10 0 0 = 1 → x.dec.parts ≠ [] →
      Completes (.bitstream o) s fun t => ∃ y, t.ctx (ctxNum op.desc) = some y ∧
        y.dec.parts.getLast?.map StreamPart.eos = some true ∧ y.dec.parts.length = x.dec.parts.length)

/-- GET_AU (R132, R252): it waits while nothing is finished; else the oldest access unit that fits is taken, and one
that does not fit stays. -/
def Claims.AccessUnitOutput : Prop :=
  ∀ (s : State) (o : RingOp) (op : Op) (x : Ctx) (au : AccUnit) (r : List AccUnit), s.live → s.dev.takes o ctxKey op →
    (s.dev.start o ctxKey).1.getAuStatus op = 0 → (s.dev.start o ctxKey).1.ctx (ctxNum op.desc) = some x →
    (s.dev.start o ctxKey).1.auSidecars (ctxNum op.desc) x = some false →
    (x.out = [] → Completes (.getAu o) s fun t => op ∈ t.host.ops ∧
      t.ctx (ctxNum op.desc) = some { x with getAus := x.getAus ++ [op.id] }) ∧
    (x.out = au :: r → x.getAus = [] → au.data.length ≤ Desc.le op.desc 12 4 →
      Completes (.getAu o) s fun t => t.ctx (ctxNum op.desc) =
        some { x with out := r, dec := { x.dec with
          paused := x.dec.paused && Ctx.outputFull { x with out := r } } }) ∧
    (x.out = au :: r → x.getAus = [] → Desc.le op.desc 12 4 < au.data.length →
      Completes (.getAu o) s fun t => t.ctx (ctxNum op.desc) = some x)

/-- PRODUCE (R133): with nothing else in production on its context, it waits for its segment to be decoded. -/
def Claims.ProduceCommand : Prop :=
  ∀ (s : State) (o : RingOp) (op : Op) (x : Ctx) (z : Group) (n : Nat) (l : List (Nat × Analysis)), s.live →
    s.dev.takes o ctxKey op → (s.dev.start o ctxKey).1.produceStatus op = 0 →
    (s.dev.start o ctxKey).1.ctx (ctxNum op.desc) = some x → x.group = some n →
    (s.dev.start o ctxKey).1.group n = some z → z.produces = [] → z.decodes = [] →
    (lengthOf op.desc ≠ 0 → Desc.le op.desc 12 4 ≠ 0 → (s.dev.start o ctxKey).1.produceSide op.desc z = .inl l →
      Completes (.produce o) s fun t => op ∈ t.host.ops ∧ t.group n = some { z with
        produces := [newProduce op l]
        decodes := [⟨Desc.le op.desc 16 8, Desc.le op.desc 12 4, Desc.le op.desc 44 4, 0, []⟩] }) ∧
    (lengthOf op.desc = 0 → Completes (.produce o) s fun t => t.group n = some z)

/-! ### Tiles, pictures and the pairs (spec/05_coding_contexts.md R119, R120, spec/07_pixel_engines.md) -/

/-- PICTURE_ANALYSIS (R142, R147): the one picture that waits is analysed; without lookahead it is final at once, with
lookahead it waits for the pictures after it. -/
def Claims.PictureAnalysis : Prop :=
  ∀ (s : State) (c g : Nat) (x : Ctx) (y : Group) (p : SrcPic), s.live → p.analysis = none → p.given = false →
    p.final = false →
    (s.dev.ctx c = some x → x.kind = 2 → x.state = 2 → x.src.pics = [p] → (s.dev.tile x.tile).stopped = false →
      Completes (.pictureAnalysis (.ctx c)) s fun t => ∃ z, t.ctx c = some z ∧ z.src.pics = []) ∧
    (s.dev.group g = some y → y.failed = false → y.useSide = false → y.src.pics = [p] → y.src.ended = false →
      p.last = false →
      1 ≤ y.lookahead → (s.dev.tile y.tile).stopped = false →
      Completes (.pictureAnalysis (.group g)) s fun t => ∃ z q, t.group g = some z ∧ z.src.pics = [q] ∧ q.n = p.n ∧
        q.analysis.isSome = true ∧ q.final = false)

/-- RUNG_SCALE (R150, R151): the rung source of the member's next picture is built. -/
def Claims.RungScale : Prop :=
  ∀ (s : State) (c g n : Nat) (x : Ctx) (y : Group) (p : SrcPic), s.live → s.dev.ctx c = some x → x.group = some g →
    s.dev.group g = some y → y.produces = [] → (s.dev.tile y.tile).stopped = false →
    (s.dev.toneCurve y.tile c x).2.2 = false →
    (y.src.pics.filter fun q => q.given && q.waiting.contains c &&
      (SMap.find s.dev.media.rungs (4096 * q.n + c)).isNone).head? = some p → p.n = n →
    Completes (.rungScale c n) s fun t =>
      SMap.find t.media.rungs (4096 * n + c) = some (s.dev.buildRung p x (s.dev.toneCurve y.tile c x).1)

/-- PICTURE_DISPATCH (R119): the chosen picture runs, and a decoded one's first region takes the first idle pair; a
disabled or stopped tile dispatches nothing. -/
def Claims.PictureDispatch : Prop :=
  ∀ (s : State) (tile k : Nat) (idle : List Nat) (j : Job) (x : Ctx), s.live →
    (s.dev.flag (Reg.TILE_CTRL tile) 0 = false ∨ (s.dev.tile tile).stopped = true →
      Completes (.pictureDispatch tile) s fun t => t = s.dev.under s.dev) ∧
    (s.dev.flag (Reg.TILE_CTRL tile) 0 = true → (s.dev.tile tile).stopped = false →
      (∀ i ∈ (s.dev.tile tile).jobs, ∀ y, s.dev.ctx i.ctx = some y → y.outputFull = false) →
      s.dev.idlePairs tile = k :: idle → s.dev.pick tile = some j → j ∈ (s.dev.tile tile).jobs → j.running = false →
      s.dev.ctx j.ctx = some x → ((s.dev.tile tile).cache.contains j.ctx = true ∨ s.dev.stateLost tile = false) →
      s.dev.ctxLost x = false →
      (∀ y, s.dev.segmentOf j.ctx = some y → s.dev.rangeLost y.2.2.srcAddr y.2.2.srcLen = false) →
      (x.kind = 1 → x.rc.isSome = true) →
      Completes (.pictureDispatch tile) s fun t =>
        (∃ i ∈ (t.tile tile).jobs, i.ctx = j.ctx ∧ i.n = j.n ∧ i.running = true) ∧
        (x.kind ≠ 1 → (t.pair k).ctx = some j.ctx ∧ (t.pair k).region = 0))

/-- ROW_COMPLETE (R109, R120, R181, R183, R237): a row that the Pixel Engine has done adds its estimate to the region and
its reference reads to the Window Store's counts; a fault makes the context FAILED, but in decode a poisoned reference is
replaced; a draining context's picture stops. -/
def Claims.RowCompletion : Prop :=
  ∀ (s : State) (r : RowDone) (x : Ctx) (j : Job) (g : Region) (k : Nat), s.live → s.dev.ctx r.ctx = some x →
    ((s.dev.tile x.tile).jobs.find? fun y => y.ctx == r.ctx && y.running) = some j →
    (j.regions.find? fun y => y.idx == r.region) = some g → g.pair = some k → g.ended = false →
    (x.state ≠ 4 → r.fault = 0 → g.ests.length < (s.dev.pair k).pxe.row →
      Completes (.rowComplete r) s fun t =>
        (∃ i z, i ∈ (t.tile x.tile).jobs ∧ i.ctx = r.ctx ∧ i.running = true ∧
          (i.regions.find? fun y => y.idx == r.region) = some z ∧ z.ests = g.ests ++ [r.est]) ∧
        t.reg (Reg.WS_REF_HITS x.tile) = (s.dev.count (Reg.WS_REF_HITS x.tile)
          (cacheReads (cacheRsus x.chroma) (s.dev.pair k).cache r.reads).2.1).reg (Reg.WS_REF_HITS x.tile) ∧
        t.reg (Reg.WS_REF_MISSES x.tile) = (s.dev.count (Reg.WS_REF_MISSES x.tile)
          (cacheReads (cacheRsus x.chroma) (s.dev.pair k).cache r.reads).2.2).reg (Reg.WS_REF_MISSES x.tile)) ∧
    (x.state = 2 → r.fault ∈ [1, 2, 5, 8] ∨ (r.fault = 4 ∧ x.kind = 1) → Completes (.rowComplete r) s fun t =>
      ∃ y, t.ctx r.ctx = some y ∧ y.state = 3 ∧ y.cause = r.fault) ∧
    (r.fault = 4 → x.kind ≠ 1 → Completes (.rowComplete r) s fun t =>
      ∃ i ∈ (t.tile x.tile).jobs, i.ctx = r.ctx ∧ i.running = true ∧ i.poisonRef = true) ∧
    (x.state = 4 → r.fault = 0 → g.ests.length < (s.dev.pair k).pxe.row → Completes (.rowComplete r) s fun t =>
      ∀ i ∈ (t.tile x.tile).jobs, i.ctx ≠ r.ctx)

/-- PAIR_HANDOVER (R120, R184, R208): the parked pair gives up its region, which keeps its state, and the tile dispatches
again. -/
def Claims.PairHandover : Prop :=
  ∀ (s : State) (tile pair c : Nat), s.live → tile < 4 → pair < 16 → (s.dev.pair (16 * tile + pair)).ctx = some c →
    (s.dev.pair (16 * tile + pair)).preempt = true → (s.dev.pair (16 * tile + pair)).cb.recs = [] →
    (s.dev.pair (16 * tile + pair)).sxe.parked = true →
    s.dev.stateLost tile = false → Completes (.pairHandover tile pair) s fun t => t.flag (Reg.PXE_EVENTS tile) 1 = true ∧
      (t.pair (16 * tile + pair)).preempt = false

/-- SEAM_FILTER and PICTURE_COMPLETE (R120, R168, R204, R252): the rows of a seam that both its regions have reconstructed are
filtered, and the seam leaves its picture once both are done; with every region and seam done, a standalone encode's access
unit holds its heading units and its regions' coded data, and no picture of the context runs. -/
def Claims.PictureCompletion : Prop :=
  ∀ (s : State) (c seam : Nat) (x : Ctx) (j : Job) (p : PicDone) (rc : RcState), s.live → s.dev.ctx c = some x →
    ((s.dev.tile x.tile).jobs.find? fun y => y.ctx == c && y.running) = some j →
    ((∀ i ∈ [seam, seam + 1], (j.regions.find? fun g => g.idx == i).map Region.ended = some true) →
      Completes (.seamFilter c seam) s fun t => ∃ i ∈ (t.tile x.tile).jobs, i.ctx = c ∧ i.running = true ∧
        i.seams = j.seams.filter (·.1 ≠ seam)) ∧
    (∀ a b, x.codec ≠ 0 → (j.regions.find? fun g => g.idx == seam) = some a →
      (j.regions.find? fun g => g.idx == seam + 1) = some b → a.ended = false → b.ended = false →
      Completes (.seamFilter c seam) s fun t => ∃ i ∈ (t.tile x.tile).jobs, i.ctx = c ∧ i.running = true ∧
        i.seams = j.seams.map fun y => if y.1 = seam then (seam, max y.2 (min a.ests.length b.ests.length)) else y) ∧
    (p.ctx = c → j.seams = [] → (∀ g ∈ j.regions, g.ended = true) → x.state ≠ 2 →
      Completes (.pictureComplete p) s fun t => t.ctx c = some x ∧
        ∀ i ∈ (t.tile x.tile).jobs, i.ctx = c → i.running = false) ∧
    (p.ctx = c → j.seams = [] → (∀ g ∈ j.regions, g.ended = true) → x.state = 2 → x.kind = 1 → x.rc = some rc →
      ((8 * (x.unitBytes rc j).length : Nat) : Int) ≤ j.hrd →
      x.group = none → x.codec ≠ 2 → x.output = 0 → x.getAus = [] →
      Completes (.pictureComplete p) s fun t => ∃ y au, t.ctx c = some y ∧ y.out = x.out ++ [au] ∧ y.bits = 0 ∧
        y.coded = [] ∧ au.pts = j.pts ∧ au.key = j.key ∧ au.order = j.n ∧ x.unitBytes rc j <+: au.data)

/-- DVFS_CHANGE (R24, R116, R117): the tile's clock, its capacity and its event. -/
def Claims.ClockPoint : Prop :=
  ∀ (s : State) (tile point n : Nat), s.live → tile < 4 → point < 3 → (s.dev.tile tile).point ≠ point →
    Completes (.dvfsChange tile point n) s fun t => (t.tile tile).point = point ∧
      t.reg (Reg.TILE_CAPACITY tile) = 4 * (tileHz point / 1000000) * 65536 + 16 * (tileHz point / 1000000) ∧
      t.flag (Reg.TILE_EVENTS tile) 0 = true

/-- The record commands, their OPCODEs, and the banks that list them (R186, R220). -/
def Claims.records (r : RecIn) : List (Instr × Nat × List Nat) :=
  [(.pad r, 0x00, [0, 1, 2, 3]), (.picStart r, 0x01, [0, 1, 2, 3]), (.rowStart r, 0x02, [0, 1, 2, 3]),
    (.ctb r, 0x03, [0, 1, 2, 3]), (.cu r, 0x04, [0, 1, 2, 3]), (.intra r, 0x05, [0, 1, 2, 3]),
    (.inter r, 0x06, [0, 1, 2, 3]), (.residual r, 0x07, [0, 1, 2, 3]), (.rowEnd r, 0x09, [0, 1, 2, 3]),
    (.picEnd r, 0x0A, [0, 1, 2, 3])] ++
  [(.avcMb r, 0x40, [0]), (.avcSubmb r, 0x41, [0]), (.predWeight r, 0x42, [0, 1]), (.predWeight r, 0x45, [3]),
    (.sao r, 0x40, [1, 3]), (.hevcCuExt r, 0x41, [1]), (.av1Cdef r, 0x40, [2]), (.av1Lr r, 0x41, [2]),
    (.av1Compound r, 0x42, [2]), (.av1Motion r, 0x43, [2]), (.av1Palette r, 0x44, [2]), (.av1Delta r, 0x45, [2]),
    (.vvcAlf r, 0x41, [3]), (.vvcAffine r, 0x42, [3]), (.vvcGpm r, 0x43, [3]), (.vvcInterExt r, 0x44, [3])]

/-- Coupling Buffer records in encode (R185-R187, R192, R219, R220): the Pixel Engine publishes the record that its picture
gives it next, if it fits; one out of order, which only a hardware fault causes, goes out as it is. -/
def Claims.RecordsPublished : Prop :=
  ∀ (s : State) (r : RecIn) (i : Instr) (n : Nat) (banks : List Nat) (c : Nat) (x : Ctx) (y : Pair) (w : List Nat),
    s.live → (i, n, banks) ∈ Claims.records r → r.tile < 4 → r.pair < 16 → (s.dev.tile r.tile).stopped = false →
    s.dev.pair (16 * r.tile + r.pair) = y → y.ctx = some c → s.dev.ctx c = some x → x.kind = 1 → x.codec ∈ banks →
    w = r.words.map BitVec.toNat → recOp w = n → recWords w = w.length → w ≠ [] →
    (y.preempt && y.cb.prodStarts == y.cb.prodEnds) = false → y.cb.fits [w] = true →
    (∀ q rc j g, recOrder x.codec y.cb.pos y.cb.recs = some q → (recOrder x.codec q [w]).isSome = true → x.rc = some rc →
      ((s.dev.tile x.tile).jobs.find? fun z => z.ctx == c && z.running) = some j →
      (j.regions.find? fun z => z.idx == y.region) = some g → s.dev.pxeMay x rc j g y.pxe q.stage w = true →
      Completes i s fun t => (t.pair (16 * r.tile + r.pair)).cb = y.cb.publish [w] ∧
        (t.pair (16 * r.tile + r.pair)).pxe = y.pxe.next w) ∧
    (recOrder x.codec y.cb.pos (y.cb.recs ++ [w]) = none → Completes i s fun t =>
      (t.pair (16 * r.tile + r.pair)).cb = y.cb.publish [w])

/-- Coupling Buffer records in decode (R184, R186, R192, R219, R220): the Pixel Engine takes the oldest record in its
order, ends its region with PIC_END, and rejects a record out of order, which makes the context FAILED. -/
def Claims.RecordsConsumed : Prop :=
  ∀ (s : State) (r : RecIn) (i : Instr) (n : Nat) (banks : List Nat) (c : Nat) (x : Ctx) (y : Pair) (w : List Nat)
    (rest : List (List Nat)), s.live →
    (i, n, banks) ∈ Claims.records r → r.tile < 4 → r.pair < 16 → (s.dev.tile r.tile).stopped = false →
    s.dev.pair (16 * r.tile + r.pair) = y → y.ctx = some c → s.dev.ctx c = some x → x.kind = 0 → x.codec ∈ banks →
    y.cb.recs = w :: rest → recOp w = n →
    (∀ p, recOrder x.codec y.cb.pos [w] = some p → n ≠ 0x0A → y.sxe.com.budgetOut = false →
      Completes i s fun t => (t.pair (16 * r.tile + r.pair)).cb.recs = rest ∧
        (t.pair (16 * r.tile + r.pair)).cb.pos = p) ∧
    (∀ j, (recOrder x.codec y.cb.pos [w]).isSome = true → n = 0x0A →
      ((s.dev.tile r.tile).jobs.find? fun z => z.ctx == c && z.running) = some j →
      Completes i s fun t => (t.pair (16 * r.tile + r.pair)).ctx = none ∧
        ∃ k ∈ (t.tile r.tile).jobs, k.ctx = c ∧ k.running = true ∧ ∀ g ∈ k.regions, g.idx = y.region → g.ended = true) ∧
    (recOrder x.codec y.cb.pos [w] = none → x.state = 2 →
      Completes i s fun t => ∃ z, t.ctx c = some z ∧ z.state = 3 ∧ z.cause = 6 ∧ z.detail = 0x12)

/-! ### Syntax Engines (spec/08_syntax_engines.md, spec/10_decoding.md) -/

/-- MICROWORD (R195, R204-R207): a word of a running routine acts on the shadow state; COMMIT makes it the committed
state, publishes or consumes its records, and in decode records the errors found; an uncorrectable store error restarts the
routine. -/
def Claims.Microwords : Prop :=
  ∀ (s : State) (tile pair c err k : Nat) (x : Ctx) (y : Sxe) (m : MicroDone) (a : Nat), s.live → tile < 4 → pair < 16 →
    k = 16 * tile + pair → (s.dev.tile tile).stopped = false → (s.dev.pair k).ctx = some c → s.dev.ctx c = some x →
    (s.dev.pair k).sxe = y → y.parked = false → y.running = true → y.committed = false →
    s.dev.budgetSpent k c x = false → y.issued < s.dev.watchdogLimit tile →
    (err ≤ 1 → { y with used := y.used + 1 }.micro (s.dev.microEnv k c x) (s.dev.patchOf k)
        (fetchWord (s.dev.patchOf k) y.pc) = .ok m → m.next = some a →
      (mCommit (fetchWord (s.dev.patchOf k) y.pc) = false →
        Completes (.microword tile pair err) s fun t => (t.pair k).cb = m.cb ∧
          (t.pair k).sxe = { m.sxe with issued := m.sxe.issued + 1, pc := a }) ∧
      (mCommit (fetchWord (s.dev.patchOf k) y.pc) = true → x.kind = 1 →
        Completes (.microword tile pair err) s fun t => (t.pair k).cb = m.cb ∧ (t.pair k).sxe = { m.sxe with pc := a } ∧
          m.sxe.committed = true) ∧
      (mCommit (fetchWord (s.dev.patchOf k) y.pc) = true → x.kind ≠ 1 → m.sxe.com.budgetOut = false →
        Completes (.microword tile pair err) s fun t => (t.pair k).cb = m.cb ∧ (t.pair k).sxe.committed = true ∧
          (t.pair k).sxe.com = { m.sxe.com with errs := [] } ∧ (t.pair k).sxe.pc = a)) ∧
    (2 ≤ err → y.faults < 3 →
      Completes (.microword tile pair err) s fun t => (t.pair k).sxe =
        { y with used := y.used + 1, faults := y.faults + 1 }.enter (s.dev.pair k).cb (s.dev.encodes c))

/-- PREEMPTION_REQUEST and ROUTINE_WATCHDOG (R205-R208): before COMMIT the routine starts again from its entry. -/
def Claims.RoutineRestarts : Prop :=
  ∀ (s : State) (tile pair c k : Nat) (y : Sxe), s.live → tile < 4 → pair < 16 → k = 16 * tile + pair →
    (s.dev.pair k).ctx = some c → (s.dev.pair k).sxe = y →
    (y.running = true → y.committed = false →
      Completes (.preemptionRequest tile pair) s fun t =>
        (t.pair k).sxe = { y with stop := true }.enter (s.dev.pair k).cb (s.dev.encodes c) ∧
        t.flag (Reg.SXE_EVENTS tile) 0 = true) ∧
    (y.running = false ∨ y.committed = true →
      Completes (.preemptionRequest tile pair) s fun t => (t.pair k).sxe.stop = true ∧ (t.pair k).sxe.com = y.com) ∧
    (y.running = true → y.committed = false → s.dev.watchdogLimit tile ≤ y.issued → y.faults < 3 →
      Completes (.routineWatchdog tile pair) s fun t =>
        (t.pair k).sxe = { y with faults := y.faults + 1 }.enter (s.dev.pair k).cb (s.dev.encodes c) ∧
        t.flag (Reg.SXE_EVENTS tile) 1 = true ∧ t.flag (Reg.SXE_EVENTS tile) 2 = true)

/-- BUDGET_OUT and STALL_TIMEOUT (R246, R259, R263): a region that has spent its work budget ends at its commit point, at once
where nothing runs or waits; STALL_MS after the last data the open picture is closed. -/
def Claims.DecodeLimits : Prop :=
  ∀ (s : State) (c region k n : Nat) (x : Ctx) (j : Job) (g : Region) (y : Sxe), s.live → s.dev.ctx c = some x →
    (((s.dev.tile x.tile).jobs.find? fun z => z.ctx == c && z.running) = some j →
      (j.regions.find? fun z => z.idx == region) = some g → g.pair = some k → (s.dev.pair k).sxe = y →
      s.dev.budgetSpent k c x = true → y.com.budgetOut = false →
      (y.running = true ∨ (s.dev.pair k).cb.recs ≠ [] → Completes (.budgetOut c region) s fun t =>
        (t.pair k).sxe = { y with com := { y.com with budgetOut := true }, sh := { y.sh with budgetOut := true } } ∧
        ((t.ctx c).map fun z => z.dec.errors) = some (x.dec.errors ++ [(y.com.streamPos - 1, 8)])) ∧
      (y.running = false → (s.dev.pair k).cb.recs = [] → Completes (.budgetOut c region) s fun t =>
        (t.pair k).ctx = none ∧
        ((t.ctx c).map fun z => z.dec.errors) = some (x.dec.errors ++ [(y.com.streamPos - 1, 8)]))) ∧
    (x.kind = 0 → x.state = 2 → x.dec.openAt = some n →
      Completes (.stallTimeout c) s fun t =>
        t.ctx c = some { x with dec := { x.dec with openAt := none, closed := some x.dec.waiting } } ∧
        t.tb.dt = (s.dev.advanceTo (n + s.dev.fld (Reg.DEC_CTRL x.tile) 15 8 * 1000 * unitsPerUs)).tb.dt)

/-- LOAD_PATCH and PATCH_TAKE (R216-R218): a good image waits for the Syntax Engines that run a region, and stands once
each has taken it. -/
def Claims.Patches : Prop :=
  ∀ (s : State) (o : RingOp) (op : Op) (b : List Byte), s.live →
    (s.dev.takesAdmin o (fun x => noLength x && zeroAt x 20 44) (fun p => p.fn == 0 && levelOne p) op →
      b = (s.dev.start o adminKey).1.dataRead (Desc.le op.desc 8 8) (min (Desc.le op.desc 16 4) (64 + 26752 + 512)) →
      s.dev.media.newPatch = none → Desc.le op.desc 8 8 + Desc.le op.desc 16 4 ≤ dataSpace →
      (s.dev.start o adminKey).1.readStatus (Desc.le op.desc 8 8) (Desc.le op.desc 16 4) = 0 →
      recNum b 4 2 = 1 ∨ recNum b 4 2 = 2 → patchHeader b (Desc.le op.desc 16 4) (s.dev.fld (Reg.BLK_ID 36) 7 0) = true →
      Config.verify (Config.fusedKey 1) (b.take (Desc.le op.desc 16 4 - 512)) (b.drop (Desc.le op.desc 16 4 - 512)) =
        true →
      ((s.dev.start o adminKey).1.patchVerdict b).1 = 0 →
      (s.dev.busyPairs = [] → Completes (.loadPatch o) s fun t => t.media.patch = some (patchOfImage b) ∧
        t.media.newPatch = none) ∧
      (s.dev.busyPairs ≠ [] → Completes (.loadPatch o) s fun t => t.media.newPatch = some (op.id, patchOfImage b) ∧
        t.media.oldPatch = s.dev.busyPairs ∧ t.media.patch = s.dev.media.patch)) ∧
    (∀ tile pair id p, 16 * tile + pair ∈ s.dev.media.oldPatch → (s.dev.pair (16 * tile + pair)).ctx = none →
      s.dev.media.newPatch = some (id, p) →
      Completes (.patchTake tile pair) s fun t =>
        t.media.oldPatch = s.dev.media.oldPatch.filter (· != 16 * tile + pair) ∧
        ((∀ k ∈ s.dev.media.oldPatch, k = 16 * tile + pair) → t.media.patch = some p ∧ t.media.newPatch = none))

/-! ### Packaging and delivery (spec/11_packaging_delivery.md) -/

/-- STREAM_CREATE, STREAM_KEY, STREAM_DESTROY (R267-R269, R282). -/
def Claims.StreamCommands : Prop :=
  ∀ (s : State) (o : RingOp) (op : Op) (x : Stream), s.live → s.dev.takes o freeKey op →
    ((s.dev.start o freeKey).1.streamStatus op ((s.dev.start o freeKey).1.dataRead (Desc.le op.desc 52 8)
        (Desc.le op.desc 60 2)) ((s.dev.start o freeKey).1.initStatus op) = 0 →
      Completes (.streamCreate o) s fun t => ∃ y, t.stream (streamNum op.desc) = some y ∧ y.issuer = op.fn ∧
        y.kind = Desc.byte op.desc 10 ∧ y.seg = (s.dev.segPick (Desc.byte op.desc 11)) ∧
        y.scheme = Desc.byte op.desc 12 ∧ y.bufSize = Desc.byte op.desc 14 ∧ y.keySlot = Desc.le op.desc 16 2 ∧
        y.ctx = none ∧ y.ready = [] ∧ y.waits = [] ∧ y.open_ = none) ∧
    ((s.dev.start o freeKey).1.streamKeyStatus op = 0 →
      (s.dev.start o freeKey).1.stream (streamNum op.desc) = some x →
      Completes (.streamKey o) s fun t => t.stream (streamNum op.desc) = some { x with
        newKey := some (Desc.le op.desc 16 4, Desc.le op.desc 12 2, beNum (leBytes 16 (Desc.le op.desc 20 16))) }) ∧
    ((s.dev.start o freeKey).1.streamDestroyStatus op = 0 →
      Completes (.streamDestroy o) s fun t => t.stream (streamNum op.desc) = none)

/-- AUDIO (R279): the track's order advances; a sample is discarded where SEG_CTRL.ENABLE is 0 or the stream has had no
segment for it (the model's choice, log entry 96), one before every segment still open is AUDIO_LATE, one beyond the newest
picture waits. -/
def Claims.AudioSamples : Prop :=
  ∀ (s : State) (o : RingOp) (op : Op) (x : Stream) (g : Segment), s.live → s.dev.takes o freeKey op →
    (s.dev.start o freeKey).1.audioStatus op = 0 → Desc.le op.desc 12 4 ≠ 0 →
    (s.dev.start o freeKey).1.stream (streamNum op.desc) = some x → x.lastPts.getD (Desc.byte op.desc 10) none = none →
    ((s.dev.flag (Reg.SEG_CTRL x.seg) 0 = false ∨
        (x.kind ≠ 1 ∧ x.open_ = none ∧ x.closing = [] ∧ x.count = 0)) →
      Completes (.audio o) s fun t => t.stream (streamNum op.desc) = some { x with
          lastPts := x.lastPts.set (Desc.byte op.desc 10) (some (Desc.le op.desc 24 8)) } ∧
        t.reg (Reg.SEG_DISCARDED x.seg) = (s.dev.count (Reg.SEG_DISCARDED x.seg) 1).reg (Reg.SEG_DISCARDED x.seg)) ∧
    (s.dev.flag (Reg.SEG_CTRL x.seg) 0 = true → x.kind ≠ 1 → x.open_ = none → x.closing = [] → x.count ≠ 0 →
      Completes (.audio o) s fun t => t.flag (Reg.SEG_EVENTS x.seg) 3 = true ∧
        t.reg (Reg.SEG_DISCARDED x.seg) = (s.dev.count (Reg.SEG_DISCARDED x.seg) 1).reg (Reg.SEG_DISCARDED x.seg)) ∧
    (s.dev.flag (Reg.SEG_CTRL x.seg) 0 = true → x.kind = 2 → x.open_ = some g → x.audio = [] → x.closing = [] →
      0 ≤ ptsDelta (Desc.le op.desc 24 8) g.firstPts → 0 < ptsDelta (Desc.le op.desc 24 8) g.topPts →
      Completes (.audio o) s fun t => ∃ y, t.stream (streamNum op.desc) = some y ∧ y.open_ = some g ∧
        y.audio.map AudioSample.pts = [Desc.le op.desc 24 8] ∧ y.audio.map AudioSample.track = [Desc.byte op.desc 10])

/-- SEG_NEXT and SEG_DROP (R273, R276, R417): the oldest ready segment goes to the oldest SEG_NEXT, which waits while
there is none; SEG_DROP frees a segment that nothing holds. -/
def Claims.SegmentCommands : Prop :=
  ∀ (s : State) (o : RingOp) (op : Op) (x : Stream) (y : ReadySeg) (r : List ReadySeg), s.live →
    s.dev.takes o freeKey op →
    ((s.dev.start o freeKey).1.segNextStatus op = 0 → (s.dev.start o freeKey).1.stream (streamNum op.desc) = some x →
      (x.ready = [] → Completes (.segNext o) s fun t => op ∈ t.host.ops ∧
        t.stream (streamNum op.desc) = some { x with waits := x.waits ++ [op.id] }) ∧
      (x.ready = y :: r → x.waits = [] → Completes (.segNext o) s fun t =>
        t.stream (streamNum op.desc) = some { x with ready := r })) ∧
    ((s.dev.start o freeKey).1.segDropStatus op = 0 → (s.dev.buf (Desc.le op.desc 12 4)).state = 1 →
      (s.dev.buf (Desc.le op.desc 12 4)).owner = ownerFn op.fn → 0 < (s.dev.buf (Desc.le op.desc 12 4)).holds →
      Completes (.segDrop o) s fun t =>
        t.buf (Desc.le op.desc 12 4) = { s.dev.buf (Desc.le op.desc 12 4) with state := 2 })

/-- ACCESS_UNIT_PACKAGE and AUDIO_WAIT_TIMEOUT (R270, R279): the Segmenter takes the oldest access unit; a cut that has
waited long enough seals its segment. -/
def Claims.Packaging : Prop :=
  ∀ (s : State) (n c : Nat) (x : Stream) (z : Ctx) (au : AccUnit) (r : List AccUnit) (g : Segment) (cut : Int) (due : Nat),
    s.live → s.dev.stream n = some x →
    (x.ctx = some c → s.dev.ctx c = some z → z.out = au :: r →
      Completes (.accessUnitPackage n) s fun t => t.ctx c = some { z with out := r }) ∧
    (x.ctx = some c → s.dev.ctx c = some z → z.out = au :: r → au.mark = false →
      s.dev.flag (Reg.SEG_CTRL x.seg) 0 = false →
      Completes (.accessUnitPackage n) s fun t => t.stream n = some x ∧
        t.reg (Reg.SEG_DISCARDED x.seg) = (s.dev.count (Reg.SEG_DISCARDED x.seg) 1).reg (Reg.SEG_DISCARDED x.seg)) ∧
    (x.closing = [(g, cut, due)] → due ≤ s.dev.tb.dt →
      Completes (.audioWaitTimeout n) s fun t => (t.stream n).map Stream.closing = some [] ∧
        t.reg (Reg.SEG_SEALED x.seg) = (s.dev.count (Reg.SEG_SEALED x.seg) 1).reg (Reg.SEG_SEALED x.seg))

/-! ### Flows -/

/-- Operation `op` of opcode `code` meets flow `fl` in the flow cache, or finds an entry for it (R283-R286). -/
abbrev Claims.meets (d : Dev) (o : RingOp) (ok : Bool) (code : Nat) (op : Op) (fl : Flow) : Prop :=
  d.takes o flowKey op ∧ opcodeOf op.desc = code ∧ (d.start o flowKey).1.flowGate op = 0 ∧
  d.flow (flowNum op.desc) = some fl ∧ d.dlv.cacheWait = [] ∧
  (d.dlv.cache.contains (flowNum op.desc) = true ∨ (ok = true ∧ d.dlv.cache.length < flowEntries))

/-- OPEN (R284, R287): the flow is OPEN as its 256-byte context says. -/
def Claims.FlowOpening : Prop :=
  ∀ (s : State) (o : RingOp) (op : Op), s.live → s.dev.takes o flowKey op →
    (s.dev.start o flowKey).1.openStatus op = 0 →
    Completes (.openFlow o) s fun t => t.flow (flowNum op.desc) =
        some (flowOfCtx ((s.dev.start o flowKey).1.createdFor FnState.flows op (flowNum op.desc)) s.dev.tb.dt
          ((s.dev.start o flowKey).1.hostRead (Desc.le op.desc 16 8) 256)) ∧
      t.reg Reg.FLOWS_OPEN = (s.dev.count Reg.FLOWS_OPEN 1).reg Reg.FLOWS_OPEN

/-- SEND, RESEND, SET_RATE (R288-R293): with nothing before it, a SEND or RESEND of payload becomes the flow's front
operation; SET_RATE changes what its flags name at once. -/
def Claims.FlowOperations : Prop :=
  ∀ (s : State) (o : RingOp) (ok : Bool) (op : Op) (fl : Flow), s.live →
    (∀ i code, (i, code) ∈ [(Instr.send o ok, opSend), (Instr.resend o ok, opResend)] →
      Claims.meets s.dev o ok code op fl → (s.dev.start o flowKey).1.sendGate op fl = 0 → fl.ops = [] →
      sendBytes op.desc ≠ 0 → (fl.tcpResend op.desc = true → Desc.le op.desc 48 4 ≠ 0) →
      Desc.le op.desc 12 4 = noHandle → (s.dev.start o flowKey).1.nextLen fl op.desc ≠ 0 →
      Completes i s fun t => op ∈ t.host.ops ∧ ∃ y, t.flow (flowNum op.desc) = some y ∧ y.ops = [op.id] ∧
        y.state = fl.state ∧ y.next = fl.next ∧ y.readyAt = s.dev.tb.dt) ∧
    (Claims.meets s.dev o ok 0x42 op fl →
      Completes (.setRate o ok) s fun t => ∃ y, t.flow (flowNum op.desc) = some y ∧ y.ops = fl.ops ∧
        y.rate = (if bit (Desc.byte op.desc 16) 0 then Desc.le op.desc 12 4 else fl.rate) ∧
        y.ackNum = (if bit (Desc.byte op.desc 16) 1 then Desc.le op.desc 20 4 else fl.ackNum) ∧
        y.window = (if bit (Desc.byte op.desc 16) 1 then Desc.le op.desc 24 2 else fl.window))

/-- REKEY, CLOSE, FLOW_CLOSE_DONE, FLOW_CACHE_ENTRY_FREE (R285, R294, R295). -/
def Claims.FlowEnds : Prop :=
  ∀ (s : State) (o : RingOp) (ok : Bool) (op : Op) (fl : Flow) (f : Nat), s.live →
    (Claims.meets s.dev o ok opRekey op fl → fl.ops = [] → fl.keyUpdate op.desc = false →
      Completes (.rekey o ok) s fun t => ∃ y, t.flow (flowNum op.desc) = some y ∧ y.ops = [] ∧
        y.key = beNum ((leBytes 64 op.desc.toNat).drop 16 |>.take 32) ∧
        (fl.mode = 0 → y.prevKey = fl.key ∧ y.prevIv = fl.iv ∧ y.prevValid = true ∧ y.tlsSeq = 0) ∧
        (fl.mode ≠ 0 → y.keyPhase = !fl.keyPhase)) ∧
    (Claims.meets s.dev o ok opClose op fl → fl.ops = [] →
      Completes (.closeFlow o ok) s fun t => (∃ y, t.flow (flowNum op.desc) = some y ∧ y.state = 2 ∧ y.ops = [op.id]) ∧
        t.reg Reg.FLOWS_OPEN = s.dev.reg Reg.FLOWS_OPEN - 1) ∧
    (s.dev.flow f = some fl → s.dev.frontOf fl = some op → opcodeOf op.desc = opClose →
      (fl.notifies op.desc = true → (s.dev.hoistFlow f).isSome = true) →
      Completes (.flowCloseDone f) s fun t => t.flow f = none) ∧
    (s.dev.dlv.cache.contains f = true → s.dev.flow f = some fl → fl.ops = [] → s.dev.dlv.cacheWait = [] →
      Completes (.flowCacheEntryFree f ok) s fun t => t.dlv.cache.contains f = false ∧
        t.flow f = some { fl with seals := wrapAdd 32 fl.seals 1 })

/-! ### Ports (spec/12_ethernet_ports.md) -/

/-- The counter `k` of port `p` (R304). -/
def Claims.ethCounter (d : Dev) (p k : Nat) : Nat := SMap.get (fun _ => 0) d.eth.counters (14 * p + k)

/-- What the parser decides of a received frame without its FCS (R323). -/
def Claims.verdict (d : Dev) (f : RxFrame) : Decision :=
  d.decide_ (f.data.take (f.data.length - 4)) (parseFrame (f.data.take (f.data.length - 4))) f.port false 0 d.par.activeB
    (d.ruleGen d.par.activeB)

/-- The frame that a queue holds of a received one (R321, R326), with its number and without its FCS. -/
def Claims.asQueued (d : Dev) (f : RxFrame) : QFrame :=
  frameOf (Claims.verdict d f) (parseFrame (f.data.take (f.data.length - 4))) f.port
    ((f.t : Int) - d.tsDelay (Reg.TS_RX_DELAY (f.port / 16) (f.port % 16))).toNat (f.data.take (f.data.length - 4)) none

/-- The queue that an action's destination names, with its port: that of a Host Receive ring that takes frames, or one of a
port that exists (R322, R323). -/
def Claims.destQueue (d : Dev) (c : Decision) : Option (Nat × Option Nat) :=
  let r := actTarget c.action + c.hash % 2 ^ actRingLog c.action
  if actDest c.action = 0 then (if d.hostRing r then some (ringQueue r, none) else none)
  else if actDest c.action = 3 then
    (if d.portNamed (actTarget c.action) then some (actQueue c.action, some (actTarget c.action)) else none)
  else none

/-- RX_FRAME (R304, R310, R323, R339): a frame with a bad FCS, that is too short or that is longer than MAX_FRAME is counted
and goes no further; every good frame is counted with its bytes. It enters no queue where the Parser is disabled or the
action is drop; where the action delivers it to a ring or port whose queue takes it, the queue's last frame is this one. -/
def Claims.FrameReception : Prop :=
  ∀ (s : State) (f : RxFrame) (q : Nat) (port : Option Nat), s.live → f.port < 128 → s.dev.portOn f.port = true →
    (s.dev.port f.port).up = true → s.dev.flag (Reg.PORT_CTRL (f.port / 16) (f.port % 16)) 1 = false →
    (f.fcsOk = false → Completes (.rxFrame f) s fun t =>
      Claims.ethCounter t f.port 2 = Claims.ethCounter s.dev f.port 2 + 1 ∧
      Claims.ethCounter t f.port 0 = Claims.ethCounter s.dev f.port 0) ∧
    (f.fcsOk = true → f.data.length < 64 → Completes (.rxFrame f) s fun t =>
      Claims.ethCounter t f.port 3 = Claims.ethCounter s.dev f.port 3 + 1) ∧
    (f.fcsOk = true → 64 ≤ f.data.length → s.dev.maxFrame f.port < f.data.length → Completes (.rxFrame f) s fun t =>
      Claims.ethCounter t f.port 4 = Claims.ethCounter s.dev f.port 4 + 1) ∧
    (f.fcsOk = true → 64 ≤ f.data.length → f.data.length ≤ s.dev.maxFrame f.port → macControl f.data = none →
      (Completes (.rxFrame f) s fun t => Claims.ethCounter t f.port 0 = Claims.ethCounter s.dev f.port 0 + 1 ∧
        Claims.ethCounter t f.port 1 = Claims.ethCounter s.dev f.port 1 + f.data.length) ∧
      (s.dev.enabled 9 = false ∨
          ((Claims.verdict s.dev f).decap = false ∧ actKind (Claims.verdict s.dev f).action = 0) →
        Completes (.rxFrame f) s fun t => t.qm.queues = s.dev.qm.queues) ∧
      (s.dev.enabled 9 = true → (Claims.verdict s.dev f).decap = false → actKind (Claims.verdict s.dev f).action = 1 →
        actPolice (Claims.verdict s.dev f).action = 0 → Claims.destQueue s.dev (Claims.verdict s.dev f) = some (q, port) →
        s.dev.rxRefused q port (Claims.asQueued s.dev f) = none →
        Completes (.rxFrame f) s fun t => (t.queue q).frames = (s.dev.queue q).frames ++
          [{ Claims.asQueued s.dev f with id := s.dev.qm.nextFrame, spilled := s.dev.spillsNow q }]))

/-- PAUSE_RX, PFC_RX, PAUSE_EXPIRE, PAUSE_REFRESH (R308, R309). -/
def Claims.FlowControl : Prop :=
  ∀ (s : State) (f : RxFrame) (p c : Nat), s.live →
    (s.dev.portOn f.port = true → (s.dev.port f.port).up = true →
      s.dev.flag (Reg.PORT_CTRL (f.port / 16) (f.port % 16)) 1 = false → f.fcsOk = true → 64 ≤ f.data.length →
      f.data.length ≤ s.dev.maxFrame f.port →
      (macControl f.data = some 0x0001 → s.dev.flowCtl f.port = 1 → Completes (.pauseRx f) s fun t =>
        Claims.ethCounter t f.port 5 = Claims.ethCounter s.dev f.port 5 + 1 ∧
        (t.port f.port).stopped = (s.dev.port f.port).stopped.set 8
          (s.dev.pauseEnd f.port t.tb.dt (beNum ((f.data.drop 16).take 2)))) ∧
      (macControl f.data = some 0x0101 → s.dev.flowCtl f.port = 2 → c < 8 → (s.dev.port f.port).stopped.length = 9 →
        Completes (.pfcRx f) s fun t =>
          Claims.ethCounter t f.port 5 = Claims.ethCounter s.dev f.port 5 + 1 ∧
          (t.port f.port).stopped.getD c none =
            (if bit (beNum ((f.data.drop 16).take 2) &&& s.dev.fld (Reg.PORT_CTRL (f.port / 16) (f.port % 16)) 15 8) c then
              s.dev.pauseEnd f.port t.tb.dt (beNum ((f.data.drop (18 + 2 * c)).take 2))
            else (s.dev.port f.port).stopped.getD c none))) ∧
    (∀ n, (s.dev.port p).stopped.getD c none = some n → Completes (.pauseExpire p c) s fun t =>
      (t.port p).stopped = (s.dev.port p).stopped.set c none ∧ (1 ≤ s.dev.tb.inc → n ≤ t.tb.dt)) ∧
    (∀ n, (s.dev.port p).refresh = some n → Completes (.pauseRefresh p) s fun t =>
      (t.port p).due = (s.dev.port p).due ++ [s.dev.pauseFrame p (s.dev.port p).asked (s.dev.port p).asked] ∧
      (t.port p).refresh = some (t.refreshAfter p))

/-- LINK_UP, LINK_DOWN, AN_RESOLVE, LT_COMPLETE, LT_FAIL, LG_CNT_SNAP (R302-R304, R307). -/
def Claims.LinkCommands : Prop :=
  ∀ (s : State) (p lane : Nat) (w : Writer) (v : W32), s.up → p < 128 → lane < 128 →
    (s.dev.portOn p = true → (s.dev.port p).up = false → Completes (.linkUp p) s fun t => (t.port p).up = true ∧
      t.fld (s.dev.portReg p) 3 0 = 3 ∧ t.flag (Reg.LG_EVENTS (p / 16)) (p % 16) = true) ∧
    ((s.dev.port p).up = true → s.dev.onWire p = none → Completes (.linkDown p) s fun t => (t.port p).up = false ∧
      t.flag (s.dev.portReg p) 0 = false ∧ Claims.ethCounter t p 13 = Claims.ethCounter s.dev p 13 + 1) ∧
    (s.dev.portOn p = true → s.dev.flag (Reg.LG_CTRL (p / 16)) 3 = true → ∀ tech fec,
      (techFits (s.dev.portMode p) tech = true → Completes (.anResolve p true tech fec) s fun t =>
        t.flag (s.dev.portReg p) 7 = true) ∧
      Completes (.anResolve p false tech fec) s fun t => t.flag (s.dev.portReg p) 7 = false ∧
        t.flag (Reg.LG_EVENTS (p / 16)) 16 = true) ∧
    (s.dev.portOn (s.dev.portOfLane lane) = true → s.dev.flag (Reg.LG_CTRL (lane / 16)) 2 = true →
      (Completes (.ltComplete lane) s fun t => SMap.get (fun _ => false) t.eth.trained lane = true) ∧
      ∀ n, Completes (.ltFail lane n) s fun t => t.flag (s.dev.portReg (s.dev.portOfLane lane)) 6 = false ∧
        t.flag (Reg.LG_EVENTS (s.dev.portOfLane lane / 16)) 17 = true) ∧
    (s.live → s.dev.mayWrite w → ∀ g < 8, ∀ l < 16, ∀ k < 14, Completes (.lgCntSnap w g v) s fun t =>
      t.reg (Reg.COUNTER_LO g l k) = Claims.ethCounter s.dev (16 * g + l) k % 2 ^ 32 ∧
      t.reg (Reg.COUNTER_HI g l k) = Claims.ethCounter s.dev (16 * g + l) k / 2 ^ 32 % 2 ^ 32)

/-! ### Parser, queues and scheduling (spec/13_parser_classifier.md, spec/14_queues_scheduling.md) -/

/-- RULES_WRITE, RULES_SWAP, RULE_SET_DRAINED (R319-R322): rules go into the inactive set; a swap makes it the active one
with the next generation, and the old one drains. -/
def Claims.RuleSets : Prop :=
  ∀ (s : State) (o : RingOp) (op : Op), s.live →
    (s.dev.takesAdmin o rulesFormat levelOne op → lengthOf op.desc ≠ 0 → s.dev.par.drained = true → s.dev.par.waits = [] →
      ((s.dev.start o adminKey).1.ruleImages op.desc).all ruleOk = true →
      Completes (.rulesWrite o) s fun t => t.ruleSet s.dev.par.activeB = s.dev.ruleSet s.dev.par.activeB ∧
        ∀ i < lengthOf op.desc,
          some (SMap.get (fun _ => ruleReset) (t.ruleSet (!s.dev.par.activeB)) (Desc.field op.desc 8 11 0 + i)) =
            ((s.dev.start o adminKey).1.ruleImages op.desc)[i]?) ∧
    (s.dev.takesAdmin o (fun x => lengthOf x == 0 && zeroAt x 8 56) levelOne op → s.dev.par.waits = [] →
      Completes (.rulesSwap o) s fun t => t.par.activeB = (!s.dev.par.activeB) ∧ t.par.drained = false ∧
        t.ruleGen t.par.activeB = wrapAdd 16 (s.dev.ruleGen s.dev.par.activeB) 1) ∧
    (s.dev.par.drained = false → s.dev.inFlight = false → s.dev.par.waits = [] →
      Completes .ruleSetDrained s fun t => t.par.drained = true ∧ t.flag Reg.PAR_EVENTS 0 = true)

/-- DECAP_RECIRCULATE, FRAGMENT_AGE_OUT, SKEW_TIMEOUT (R324, R328, R335): the oldest inner frame has its second pass; an
entry of the fragment table goes; the merge goes on without what is missing. -/
def Claims.ParserTimers : Prop :=
  ∀ (s : State) (n vni port rxDt gen : Nat) (f : List Byte) (b : Bool)
    (r : List (Nat × List Byte × Nat × Nat × Bool × Nat)) (p : HeldPkt), s.live →
    (s.dev.par.recirc = (port, f, vni, rxDt, b, gen) :: r → Completes .decapRecirculate s fun t => t.par.recirc = r) ∧
    (n < s.dev.par.frags.length → Completes (.fragmentAgeOut n) s fun t =>
      t.par.frags = s.dev.par.frags.eraseIdx n) ∧
    ((s.dev.ingest n).held = [p] → s.dev.ingCtx n = none → s.dev.ingCarriage n ≠ 2 →
      Completes (.skewTimeout n) s fun t => (t.ingest n).held = [] ∧ (t.ingest n).next = some (p.seq + 1))

/-- Frames without the mark of the spill area (R346). -/
def Claims.frames (l : List QFrame) : List QFrame := l.map fun f => { f with spilled := false }

/-- RX_BUFFER, HOST_RX_DELIVERY, TX_FRAME (R326, R346, R358-R361). A spilled frame is delivered once the pool has cells for
it. -/
def Claims.HostFrames : Prop :=
  ∀ (s : State) (o : RingOp) (op : Op) (ring id addr len q : Nat) (f : QFrame) (r : List QFrame)
    (l : List (Nat × Nat × Nat × Nat)), s.live →
    (s.dev.takes o (fun p => keyRing p.ring) op → (s.dev.start o fun p => keyRing p.ring).1.rxBufferStatus op = 0 →
      lengthOf op.desc ≠ 0 → Completes (.rxBuffer o) s fun t => op ∈ t.host.ops ∧
        t.qm.rxBufs = s.dev.qm.rxBufs ++ [(op.ring, op.id, Desc.le op.desc 16 8, lengthOf op.desc)]) ∧
    (s.dev.hostRing ring = true → (s.dev.queue (ringQueue ring)).frames = f :: r →
      (f.spilled = true → cellsOf f ≤ s.dev.freeCells) →
      s.dev.rxBufsOf ring = (q, id, addr, len) :: l → ((s.dev.ring ring).bind fun x => s.dev.cq x.cq).any Cq.full = false →
      Completes (.hostRxDelivery ring) s fun t => Claims.frames (t.queue (ringQueue ring)).frames = Claims.frames r ∧
        t.qm.rxBufs = s.dev.qm.rxBufs.filter (fun b => b.2.1 != id)) ∧
    (s.dev.takes o (fun p => keyRing p.ring) op → (s.dev.start o fun p => keyRing p.ring).1.txStatus op = 0 →
      lengthOf op.desc ≠ 0 → Completes (.txFrame o) s fun t => op ∈ t.host.ops ∧
        t.qm.tx = s.dev.qm.tx ++ [(s.dev.start o fun p => keyRing p.ring).1.txWait op])

/-- HOIST_RELEASE (R351, R359): the ring's next frame, where R44 puts none before it, or the flow's next packet enters its
queue. -/
def Claims.HoistReleases : Prop :=
  ∀ (s : State) (ring f n : Nat) (w : TxWait) (fl : Flow) (op : Op), s.live →
    (s.dev.txFront ring = some w → s.dev.hoistBefore ring = [] → s.dev.enabled 11 = true → s.dev.enabled 10 = true →
      s.dev.egressBound w.queue w.port = true → s.dev.egressRoom w.queue w.data.length = true →
      w.data.length + 4 ≤ s.dev.frameLimit w.queue →
      Completes (.hoistRelease (.frame ring)) s fun t => ∃ g,
        (t.queue w.queue).frames = (s.dev.queue w.queue).frames ++ [g] ∧ g.data = w.data ∧ g.op = some w.op ∧
        (∀ y ∈ t.qm.tx, y.op = w.op → y.released = true)) ∧
    (s.dev.flow f = some fl → s.dev.frontOf fl = some op → opcodeOf op.desc ≠ opClose →
      s.dev.releasableAt fl = some n → s.dev.releasedBefore f fl n = false →
      ((s.dev.advanceTo n).frontPacket fl op.desc).length + 4 ≤ s.dev.frameLimit fl.queue →
      Completes (.hoistRelease (.flow f)) s fun t => ∃ g,
        (t.queue fl.queue).frames = (s.dev.queue fl.queue).frames ++ [g] ∧ g.flow = some f ∧
        g.data = (s.dev.advanceTo n).frontPacket fl op.desc)

/-- EGRESS_SELECT and FRAME_TX_END (R309, R352, R353, R359): a pause frame that is due goes first; else the chosen
queue's head goes to the wire, and leaves the port with its counters. -/
def Claims.PortEgress : Prop :=
  ∀ (s : State) (p q : Nat) (x : Nat × List Nat) (r : List (Nat × List Nat)) (f : QFrame) (l : List QFrame) (w : OnWire),
    s.live → p < 128 →
    (s.dev.portOn p = true → (s.dev.port p).up = true → s.dev.onWire p = none →
      ((s.dev.port p).due = x :: r → Completes (.egressSelect p) s fun t => (t.port p).due = r ∧
        t.out = s.dev.out ++ [.pause p x.1 x.2]) ∧
      ((s.dev.port p).due = [] → (s.dev.advanceTo (s.dev.port p).freeAt).groupQueues p = [] →
        (s.dev.advanceTo (s.dev.port p).freeAt).chooseQueue p = some q → (s.dev.queue q).frames = f :: l →
        txBytes f.data.length ≤ s.dev.maxFrame p →
        Completes (.egressSelect p) s fun t => Claims.frames (t.queue q).frames = Claims.frames l ∧
          t.onWire p = some ⟨p, q, f, t.tb.dt, s.dev.classOf q, 0⟩)) ∧
    (s.dev.onWire p = some w → s.dev.flag (Reg.PORT_CTRL (p / 16) (p % 16)) 1 = false →
      Completes (.frameTxEnd p) s fun t => t.onWire p = none ∧
        Claims.ethCounter t p 6 = Claims.ethCounter s.dev p 6 + 1 ∧
        Claims.ethCounter t p 7 = Claims.ethCounter s.dev p 7 + txBytes w.frame.data.length ∧
        .frame p (padded w.frame.data) (s.dev.txStamp p w.first) ∈ t.out)

/-- GATE_ENTRY_ADVANCE, GATE_CYCLE_BOUNDARY, GATE_LIST_START (R354-R357): the entry follows DT, and a pending list
starts at its time. -/
def Claims.GateLists : Prop :=
  ∀ (s : State) (p : Nat) (g : GateList), s.live → s.dev.flag Reg.GATE_CTRL 0 = true →
    ((s.dev.gate_ p).running = some g → (g.at_ s.dev.tb.dt).2.2 ≠ g.boundary s.dev.tb.dt →
      Completes (.gateEntryAdvance p) s fun t => (t.gate_ p).running = some g ∧
        (t.gate_ p).entry = (g.at_ t.tb.dt).1) ∧
    ((s.dev.gate_ p).running = some g → s.dev.flag (Reg.BLK_STATE 12) 0 = false →
      Completes (.gateCycleBoundary p) s fun t => (t.gate_ p).running = some g ∧
        (t.gate_ p).entry = (g.at_ t.tb.dt).1) ∧
    ((s.dev.gate_ p).pending = some g → Completes (.gateListStart p) s fun t => (t.gate_ p).pending = none ∧
      (t.gate_ p).running = (if g.entries.isEmpty then none else some g) ∧ (t.gate_ p).entry = 0)

/-! ### Memory stacks (spec/15_memory_stacks.md) -/

/-- MEM_REQUEST (R362, R369, R376): a read answers with the data space's bytes, a write stores them; both wait while the
stack is in self-refresh for a frequency change or in training, and a stack that has stopped answers with an error (R20); an
address outside the data space stops. That a write to a stopped stack is lost is the model's reading (log entry 73). -/
def Claims.MemoryRequests : Prop :=
  ∀ (s : State) (q : MemIn),
    (dataSpace < q.addr + q.len → exec (.memRequest q) s = .fault (.outsideDataSpace q.addr)) ∧
    (s.live → q.addr + q.len ≤ dataSpace →
      (s.dev.stackLost q.stack = true → Completes (.memRequest q) s fun t =>
        .memRead q.client [] true ∈ t.out ∧ t.dataMem = s.dev.dataMem) ∧
      (s.dev.stackLost q.stack = false → s.dev.mcState q.stack < 3 → (s.dev.ctl q.stack).srFreq = false → q.err.symbols = 0 →
        s.dev.correctable (s.dev.pageFrame (q.addr / 4096)).1 q.err = true →
        (q.write = false → s.dev.rangePoison q.addr q.len = false → Completes (.memRequest q) s fun t =>
          t.out = s.dev.out ++ [.memRead q.client (s.dev.dataRead q.addr q.len) false] ∧ t.dataMem = s.dev.dataMem) ∧
        (q.write = true → s.dev.rangePoison q.addr q.data.length = false → Completes (.memRequest q) s fun t =>
          t.dataRead q.addr q.data.length = q.data ∧ t.out = s.dev.out) ∧
        (q.write = false → s.dev.rangePoison q.addr q.len = true → Completes (.memRequest q) s fun t =>
          t.out = s.dev.out ++ [.memRead q.client [] true]) ∧
        (q.write = true → (pagesOf q.addr q.data.length).all s.dev.pagePoison = true →
          Completes (.memRequest q) s fun t => t.dataMem = s.dev.dataMem)) ∧
      (s.dev.stackLost q.stack = false → (s.dev.mcState q.stack = 3 ∨ s.dev.mcState q.stack = 4) → Completes (.memRequest q) s fun t =>
        (t.ctl q.stack).held = (s.dev.ctl q.stack).held ++ [⟨q.client, q.write, q.addr, q.len, q.data, t.tb.dt⟩]))

/-- REFRESH_DUE, STACK_TEMP_READ (R371, R372): the next bank refreshes, or its refresh is postponed in panic; the
temperature sets the refresh rate. -/
def Claims.Refreshes : Prop :=
  ∀ (s : State) (k sid : Nat) (c : Int), s.up → k < 8 →
    (s.dev.mcState k < 2 → s.dev.flag (Reg.BLK_STATE (40 + k)) 0 = false → sid < (s.dev.ctl k).refBank.length →
      (Completes (.refreshDue k sid) s fun t =>
        (t.ctl k).refBank.getD sid 0 = ((s.dev.ctl k).refBank.getD sid 0 + 1) % 16) ∧
      (s.dev.panics k ≠ 0 → SMap.get (fun _ => 0) (s.dev.ctl k).postponed (16 * sid + (s.dev.ctl k).refBank.getD sid 0) <
          s.dev.fld (Reg.MC_REFRESH k) 15 12 →
        Completes (.refreshDue k sid) s fun t =>
          SMap.get (fun _ => 0) (t.ctl k).postponed (16 * sid + (s.dev.ctl k).refBank.getD sid 0) =
            SMap.get (fun _ => 0) (s.dev.ctl k).postponed (16 * sid + (s.dev.ctl k).refBank.getD sid 0) + 1)) ∧
    (85 < c → Completes (.stackTempRead k c) s fun t => t.flag (Reg.MC_STATE k) 28 = true ∧
      t.flag (Reg.MC_EVENTS k) 0 = true) ∧
    (c < 80 → Completes (.stackTempRead k c) s fun t => t.flag (Reg.MC_STATE k) 28 = false) ∧
    (80 ≤ c → c ≤ 85 → Completes (.stackTempRead k c) s fun t => t.reg (Reg.MC_STATE k) = s.dev.reg (Reg.MC_STATE k))

/-- URGENCY_REPORT, PANIC_LONG (R374, R375). -/
def Claims.Urgency : Prop :=
  ∀ (s : State) (k p u n : Nat), s.live → k < 8 → p < 8 →
    (s.dev.flag (Reg.MC_STATE k) p = false → s.dev.mcState k = 0 → s.dev.fld (Reg.RT_PORT_SEL p) 3 0 ≠ 0 →
      s.dev.fld (Reg.RT_THRESH k p) 13 8 ≤ u → Completes (.urgencyReport k p u n) s fun t =>
        t.flag (Reg.MC_STATE k) p = true ∧ (t.ctl k).urgency = (s.dev.ctl k).urgency.set p u ∧
        (t.ctl k).panicAt = (s.dev.ctl k).panicAt.set p (some t.tb.dt)) ∧
    (s.dev.flag (Reg.MC_STATE k) p = false → u < s.dev.fld (Reg.RT_THRESH k p) 13 8 →
      Completes (.urgencyReport k p u n) s fun t => t.flag (Reg.MC_STATE k) p = false ∧
        (t.ctl k).urgency = (s.dev.ctl k).urgency.set p u) ∧
    (s.dev.flag (Reg.MC_STATE k) p = true → u ≤ s.dev.fld (Reg.RT_THRESH k p) 5 0 →
      Completes (.urgencyReport k p u n) s fun t => t.flag (Reg.MC_STATE k) p = false) ∧
    ((s.dev.ctl k).panicAt.getD p none = some n → (s.dev.ctl k).panicSaid.getD p false = false →
      Completes (.panicLong k p) s fun t => (t.ctl k).panicSaid = (s.dev.ctl k).panicSaid.set p true ∧
        t.flag (Reg.MC_EVENTS k) 4 = true)

/-- POWER_DOWN_ENTRY, SELF_REFRESH_ENTRY, SELF_REFRESH_EXIT (R376-R378): the states of an idle stack. -/
def Claims.LowPower : Prop :=
  ∀ (s : State) (k n : Nat), s.live → k < 8 → n ≤ s.dev.tb.dt → (s.dev.ctl k).held = [] →
    (s.dev.mcState k = 0 → s.dev.panics k = 0 → s.dev.fld (Reg.MC_CTRL k) 15 8 ≠ 0 →
      (s.dev.ctl k).lastReq + s.dev.hbmTime k (64 * s.dev.fld (Reg.MC_CTRL k) 15 8) ≤ s.dev.tb.dt →
      Completes (.powerDownEntry k n) s fun t => t.mcState k = 1 ∧ (t.ctl k).rows = []) ∧
    (s.dev.mcState k = 0 ∨ s.dev.mcState k = 1 → s.dev.panics k = 0 → s.dev.fld (Reg.MC_CTRL k) 31 16 ≠ 0 →
      (s.dev.ctl k).lastReq + s.dev.fld (Reg.MC_CTRL k) 31 16 * unitsPerUs ≤ s.dev.tb.dt →
      Completes (.selfRefreshEntry k false n) s fun t => t.mcState k = 2) ∧
    (s.dev.mcState k = 2 → s.dev.panics k = 0 → Completes (.selfRefreshEntry k true n) s fun t =>
      t.mcState k = 3 ∧ (t.ctl k).srAt = s.dev.tb.dt) ∧
    (s.dev.mcState k = 3 → (s.dev.ctl k).srFreq = false → Completes (.selfRefreshExit k) s fun t => t.mcState k = 0) ∧
    (s.dev.mcState k = 3 → (s.dev.ctl k).srFreq = true → (s.dev.ctl k).locked = true →
      Completes (.selfRefreshExit k) s fun t => t.mcState k = 4)

/-- ARM, CANCEL, FREQ_CHANGE_START, PLL_RELOCK, PHY_TRAINING_DONE (R379-R382): a frequency change from its arming to
normal operation at the new point. -/
def Claims.FrequencyChanges : Prop :=
  ∀ (s : State) (w : Writer) (v : W32) (k n : Nat) (a : FreqArm), s.live → k < 8 →
    (s.dev.mayWrite w → bit v.toNat 1 = false → (s.dev.ctl k).arm.any FreqArm.begun = false →
      Completes (.arm w k v) s fun t =>
        (t.ctl k).arm = some ⟨s.dev.fld (Reg.MC_FREQ_POINT k) 1 0, s.dev.freqDt k, false⟩ ∧
        t.flag (Reg.MC_STATE k) 29 = true) ∧
    (s.dev.mayWrite w → bit v.toNat 0 = false → (s.dev.ctl k).arm.any FreqArm.begun = false →
      Completes (.cancel w k v) s fun t => (t.ctl k).arm = none ∧ t.flag (Reg.MC_STATE k) 29 = false) ∧
    ((s.dev.ctl k).arm = some a → a.begun = false → a.target ≠ s.dev.fld (Reg.MC_STATE k) 31 30 →
      s.dev.panics k = 0 → s.dev.mcState k < 3 → Completes (.freqChangeStart k) s fun t => t.mcState k = 2 ∧
        (t.ctl k).arm = some ⟨a.target, a.at_, true⟩ ∧ (t.ctl k).srFreq = true) ∧
    ((s.dev.ctl k).arm = some a → a.target < 4 → (s.dev.ctl k).srFreq = true → s.dev.mcState k = 3 →
      Completes (.pllRelock k n) s fun t => t.fld (Reg.MC_STATE k) 31 30 = a.target ∧ (t.ctl k).locked = true ∧
        ∀ i < 6, t.reg (Reg.MC_TIMING_ACTIVE k i) = s.dev.reg (Reg.MC_TIMING_SHADOW k i)) ∧
    ((s.dev.ctl k).srFreq = true → s.dev.mcState k = 4 → (s.dev.ctl k).held = [] →
      Completes (.phyTrainingDone k n) s fun t => t.mcState k = 0 ∧ (t.ctl k).arm = none ∧
        (t.ctl k).srFreq = false ∧ t.flag (Reg.MC_EVENTS k) 2 = true)

/-! ### Data protection (spec/16_data_protection.md) and Bunting (spec/17_bunting_pools.md) -/

/-- MAP_ENABLE, SELF_TEST, PATROL_SCRUB, MIGRATION_COPY (R368, R388-R398). -/
def Claims.MapAndScrub : Prop :=
  ∀ (s : State) (w : Writer) (v : W32) (k bad : Nat) (q : TestReq) (r : List TestReq) (e : FrameErr), s.live →
    (s.dev.mayWrite w → s.dev.flag Reg.MAP_CTRL 0 = false → s.dev.rwlOpen 48 = true → bits v.toNat 3 1 ≤ 4 →
      (s.dev.setFld Reg.MAP_CTRL 3 1 (bits v.toNat 3 1)).mapFollow.capFail = none →
      Completes (.mapEnable w v) s fun t => t.flag Reg.MAP_CTRL 0 = true ∧ t.flag Reg.MAP_STATUS 1 = false) ∧
    (k < 8 → (s.dev.ctl k).tests = q :: r → s.dev.panics k = 0 → Nat.land bad q.pchs = 0 →
      Completes (.selfTest k bad) s fun t => (t.ctl k).tests = r ∧ t.prot.badChans = s.dev.prot.badChans) ∧
    (k < 8 → s.dev.fld (Reg.MC_SCRUB k) 7 0 ≠ 0 → e.symbols = 0 →
      (∀ i < 4, s.dev.correctable (4 * k + i) e = true) →
      Completes (.patrolScrub k e) s fun t => (t.ctl k).patrol.isSome = true) ∧
    (s.dev.flag Reg.MEM_MIG 31 = true → e.symbols = 0 → s.dev.correctable (s.dev.fld Reg.MEM_MIG 25 21) e = true →
      s.dev.fld Reg.MEM_MIG 20 0 + 1 < s.dev.codeF → s.dev.fld Reg.MEM_MIG 20 0 + 1 < 2 ^ 21 →
      Completes (.migrationCopy e false) s fun t => t.fld Reg.MEM_MIG 20 0 = s.dev.fld Reg.MEM_MIG 20 0 + 1 ∧
        t.flag Reg.MEM_MIG 31 = true)

/-- RETIRE_PAGE, RETIRE_BANK, DECLARE_ERASURE, POISON_CLEAR (R399-R406). -/
def Claims.Retirement : Prop :=
  ∀ (s : State) (o : RingOp) (op : Op) (p a : Nat), s.live →
    (s.dev.takesAdmin o pageFormat levelOne op → a = Desc.le op.desc 16 8 → p = a / 4096 → a < dataSpace →
      SMap.find s.dev.prot.retired p = none →
      SMap.get (fun _ => 0) s.dev.prot.reserve (8 * (s.dev.pageLogical p).1 + (s.dev.pageLogical p).2.1) < 16384 →
      s.dev.rankUsable (s.dev.pageFrame p).1 = true →
      Completes (.retirePage o) s fun t => SMap.find t.prot.retired p = some (s.dev.codeF - 16384 +
        SMap.get (fun _ => 0) s.dev.prot.reserve (8 * (s.dev.pageLogical p).1 + (s.dev.pageLogical p).2.1))) ∧
    (s.dev.takesAdmin o (fun x => noLength x && Desc.field x 8 7 5 == 0 && Desc.field x 9 7 5 == 0 &&
        Desc.field x 10 7 4 == 0 && zeroAt x 11 53) levelOne op →
      64 ≤ s.dev.codeT → (Desc.field op.desc 8 4 0, Desc.field op.desc 9 4 0, Desc.field op.desc 10 3 0) ∉ s.dev.prot.banks →
      s.dev.erasedChans (Desc.field op.desc 8 4 0) = 0 →
      s.dev.retiredBanks (Desc.field op.desc 8 4 0) < (if s.dev.codeT = 128 then 2 else 1) →
      s.dev.rankUsable (Desc.field op.desc 8 4 0) = true →
      Completes (.retireBank o) s fun t => t.prot.banks = s.dev.prot.banks ++
          [(Desc.field op.desc 8 4 0, Desc.field op.desc 9 4 0, Desc.field op.desc 10 3 0)] ∧
        t.retiredBanks (Desc.field op.desc 8 4 0) = s.dev.retiredBanks (Desc.field op.desc 8 4 0) + 1) ∧
    (s.dev.takesAdmin o (fun x => noLength x && Desc.field x 8 7 5 == 0 && Desc.field x 9 7 4 == 0 && zeroAt x 10 54)
        levelOne op →
      128 ≤ s.dev.codeT → s.dev.erasedChans (Desc.field op.desc 8 4 0) = 0 →
      s.dev.retiredBanks (Desc.field op.desc 8 4 0) = 0 → s.dev.rankUsable (Desc.field op.desc 8 4 0) = true →
      Completes (.declareErasure o) s fun t =>
        t.erasedChans (Desc.field op.desc 8 4 0) = 2 ^ Desc.field op.desc 9 3 0) ∧
    (s.dev.takesAdmin o pageFormat levelOne op → Desc.le op.desc 16 8 < dataSpace →
      s.dev.flag Reg.MEM_MIG 31 = false → Completes (.poisonClear o) s fun t =>
        t.pagePoison (Desc.le op.desc 16 8 / 4096) = false ∧
        t.dataRead (Desc.le op.desc 16 8) 4096 = List.replicate 4096 0)

/-- ALLOCATION, HOLD, RELEASE, FREE, BUF_QUERY, BUNTING_ENABLE (R408-R420). -/
def Claims.Buffers : Prop :=
  ∀ (s : State) (o : RingOp) (op : Op) (w : Writer) (v : W32) (size owner h level : Nat) (e : Dev) (b : Buffer), s.live →
    (0 < size → size ≤ 33554432 → s.dev.takeFrom (6 - fitPool size) (fitPool size) = some (e, h) →
      Completes (.allocation size owner) s fun t => t.buf h = ⟨1, owner, 0, []⟩) ∧
    (0 < size → size ≤ 33554432 → s.dev.takeFrom (6 - fitPool size) (fitPool size) = none →
      Completes (.allocation size owner) s fun t => t.bun = s.dev.bun ∧ t.flag Reg.BUN_EVENTS 1 = true) ∧
    (s.dev.handleOk h = true → s.dev.buf h = b → b.state = 1 → b.holds < 65535 →
      Completes (.hold h owner) s fun t => t.buf h = { b with holds := b.holds + 1 }) ∧
    (s.dev.handleOk h = true → s.dev.buf h = b → (b.state = 1 ∨ (b.state = 2 ∧ 1 < b.holds)) → 0 < b.holds →
      Completes (.release h owner) s fun t => t.buf h = { b with holds := b.holds - 1 }) ∧
    (s.dev.handleOk h = true → s.dev.buf h = b → b.state = 1 → (b.owner = owner ∨ (level ≤ 1 ∧ b.owner / 4096 = 1)) →
      (0 < b.holds → Completes (.free h owner level) s fun t => t.buf h = { b with state := 2 }) ∧
      (b.holds = 0 → b.more = [] → s.dev.rangePoison (s.dev.bufAddr h) (bufSize h) = false →
        Completes (.free h owner level) s fun t => t.buf h = bufFree)) ∧
    (s.dev.takesAdmin o (fun x => noLength x && zeroAt x 12 52) levelOne op → h = Desc.le op.desc 8 4 → s.dev.buf h = b →
      Completes (.bufQuery o) s fun t => t = s.dev.under ((s.dev.start o adminKey).1.finish op.id
        (if s.dev.handleOk h then ⟨stOk, bufSize h, b.state, b.owner * 65536 + b.holds⟩ else resOf stBufHandle))) ∧
    (s.dev.mayWrite w → s.dev.flag Reg.BUN_CTRL 0 = false → s.dev.badPool = none →
      Completes (.buntingEnable w v) s fun t => t.reg Reg.BUN_CTRL = 1 ∧ t.bun.bufs = [])

/-! ### DMA engine (spec/18_dma_engine.md) -/

/-- No completion of channel `c` is due: the descriptor at its front is not over, and its queue is not waited for. -/
abbrev Claims.dmaQuiet (d : Dev) (c : Nat) : Prop :=
  (d.dmaChan c).descs.head?.all (fun y => !y.spent) = true ∧ (d.dmaChan c).cqWait = false

/-- DMA_RING_POLL, COPY, FILL (R426, R428-R430): an enabled channel of a running engine takes the descriptor at CI; one
that its check refuses completes without running; an index too far ahead stops the ring. -/
def Claims.DmaFetching : Prop :=
  ∀ (s : State) (ch pi : Nat) (st : Stores) (x y : Desc) (d : Dev), s.live → d = s.dev.hostStores st →
    (s.dev.dmaFetches ch = true → (s.dev.dmaChan ch).descs.length < 8 → Claims.dmaQuiet s.dev ch →
      dmaCheck x = 0 → 0 < dmaBytes x →
      (opcodeOf x = 0x90 → Completes (.copy ch x) s fun t =>
        (t.dmaChan ch).descs = (s.dev.dmaChan ch).descs ++ [⟨x, 0, 0, [], 0, false, false, none, false⟩] ∧
        (t.dmaChan ch).ci = ((s.dev.dmaChan ch).ci + 1) % 2 ^ 32) ∧
      (opcodeOf x = 0x91 → Completes (.fill ch x) s fun t =>
        (t.dmaChan ch).descs = (s.dev.dmaChan ch).descs ++ [⟨x, 0, 0, [], 0, false, false, none, false⟩] ∧
        (t.dmaChan ch).ci = ((s.dev.dmaChan ch).ci + 1) % 2 ^ 32)) ∧
    (s.dev.dmaFetches ch = true → (s.dev.dmaChan ch).descs = [] → (s.dev.dmaChan ch).cqWait = false →
      dmaCheck x ≠ 0 → (s.dev.dmaChan ch).written - (s.dev.dmaChan ch).consumed < s.dev.dmaCqSize ch →
      Completes (.copy ch x) s fun t => (t.dmaChan ch).descs = [] ∧
        (t.dmaChan ch).written = (s.dev.dmaChan ch).written + 1) ∧
    (d.dmaFetches ch = false → (d.dmaChan ch).cqWait = false → Completes (.dmaRingPoll ch st) s fun t => t.dma = s.dev.dma) ∧
    (d.dmaFetches ch = true → (d.dmaChan ch).cqWait = false → (d.dmaChan ch).ci < 2 ^ 32 →
      d.dmaGone ch (d.dmaRec ch) 64 = false → (d.spaceRead (d.dmaSpace ch) (d.dmaRec ch) 6) = leBytes 4 pi ++ leBytes 2 (d.dmaChan ch).epoch →
      (d.dmaChan ch).epoch < 65536 → pi < 2 ^ 32 →
      (2 ^ d.fld (Reg.DMA_CH_CFG ch) 12 8 < (pi + 2 ^ 32 - (d.dmaChan ch).ci) % 2 ^ 32 →
        Completes (.dmaRingPoll ch st) s fun t => (t.dmaChan ch).stopped = true ∧ (t.dmaChan ch).indexError = true ∧
          t.flag Reg.DMA_EVENTS 1 = true) ∧
      (pi = ((d.dmaChan ch).ci + 1) % 2 ^ 32 → (d.dmaChan ch).descs = [] →
        d.dmaGone ch (d.dmaRing ch + (d.dmaChan ch).ci % 2 ^ d.fld (Reg.DMA_CH_CFG ch) 12 8 * 64) 64 = false →
        y = BitVec.ofNat 512 (leNum (d.spaceRead (d.dmaSpace ch)
          (d.dmaRing ch + (d.dmaChan ch).ci % 2 ^ d.fld (Reg.DMA_CH_CFG ch) 12 8 * 64) 64)) →
        dmaCheck y = 0 → 0 < dmaBytes y → Completes (.dmaRingPoll ch st) s fun t =>
          (t.dmaChan ch).descs = [⟨y, 0, 0, [], 0, false, false, none, false⟩] ∧ (t.dmaChan ch).ci = pi))

/-- DMA_BURST_GRANT, DMA_BURST_RESPONSE, DMA_ENGINE_STOPPED, DMA_RESTART (R20, R429, R431, R435-R442). What a burst to a
stopped stack does is the model's reading (log entry 73). -/
def Claims.DmaBursts : Prop :=
  ∀ (s : State) (c n : Nat) (y : DmaDesc) (r : BurstResp) (w : Writer) (v : W32), s.live →
    (s.dev.dmaEngine = 0 → (s.dev.dma.chans.map fun e => e.2.bursts).sum < 32 → s.dev.dmaNext = some c →
      (s.dev.dmaChan c).front = some y → Claims.dmaQuiet s.dev c →
      n = min (2 ^ s.dev.fld (Reg.DMA_CH_CFG c) 19 16) y.left →
      (opcodeOf y.desc = 0x90 → dmaSrcSpace y.desc = 0 → Completes .dmaBurstGrant s fun t =>
        (t.dmaChan c).descs = replaceFront (fun _ =>
          { y with issued := y.issued + n, flight := y.flight ++ [(y.issued, n, 0)] }) (s.dev.dmaChan c).descs ∧
        t.dmaReqs c = if s.dev.dmaPaced c y then s.dev.dmaReqs c - 1 else s.dev.dmaReqs c) ∧
      (opcodeOf y.desc = 0x91 → dmaDstSpace y.desc = 1 → s.dev.rangePoison (dmaDst y.desc + y.issued) n = false →
        s.dev.rangeLost (dmaDst y.desc + y.issued) n = false → Completes .dmaBurstGrant s fun t =>
          (t.dmaChan c).descs = replaceFront (fun _ =>
            { y with issued := y.issued + n, done := y.done + n, flight := y.flight ++ [(y.issued, n, 1)] })
            (s.dev.dmaChan c).descs ∧
          t.dataRead (dmaDst y.desc + y.issued) n =
            (List.range n).map fun i => BitVec.ofNat 8 (Desc.byte y.desc (16 + (y.issued + i) % 8)))) ∧
    (s.dev.dmaEngine = 0 → s.dev.flag (Reg.BLK_STATE 5) 0 = false → r.st = [] → r.t ≤ s.dev.tb.dt →
      (s.dev.dmaChan r.ch).descs = [y] → y.flight = [(c, n, 1)] → y.left = 0 → r.phase = 1 →
      (r.kind = 0 → s.dev.dmaLost y 1 c n = false →
        s.dev.dmaGone r.ch (s.dev.dmaCq r.ch + (s.dev.dmaChan r.ch).written % s.dev.dmaCqSize r.ch * 32) 32 = false →
        (s.dev.dmaChan r.ch).written - (s.dev.dmaChan r.ch).consumed < s.dev.dmaCqSize r.ch →
        Completes (.dmaBurstResponse r) s fun t => (t.dmaChan r.ch).descs = [] ∧
          (t.dmaChan r.ch).written = (s.dev.dmaChan r.ch).written + 1 ∧ t.dmaEngine = 0) ∧
      (r.kind ≠ 0 ∨ s.dev.dmaLost y 1 c n = true → Completes (.dmaBurstResponse r) s fun t => t.dmaEngine = 1 ∧
        (t.dmaChan r.ch).descs.length = 1)) ∧
    (s.dev.dmaEngine = 1 → s.dev.dmaOutstanding = false → Completes .dmaEngineStopped s fun t =>
      t.dmaEngine = 2 ∧ t.flag Reg.DMA_EVENTS 0 = true) ∧
    (s.dev.mayWrite w → s.dev.dmaEngine = 2 → s.dev.flag Reg.DMA_EVENTS 0 = true →
      bits v.toNat 31 24 = s.dev.fld Reg.DMA_EVENTS 31 24 → Completes (.dmaRestart w v) s fun t =>
        t.dmaEngine = 0 ∧ t.flag Reg.DMA_EVENTS 0 = false ∧ t.flag Reg.DMA_ERR_INFO 31 = false)

/-- DREQ_EDGE, DMA_TIMER_FIRE, DMA_TIMER_WRITE, DMA_SWREQ, DMA_CHANNEL_ENABLE, DMA_CHANNEL_DISABLE (R424, R425,
R427, R432-R434). -/
def Claims.DmaRequests : Prop :=
  ∀ (s : State) (c k i : Nat) (hi : Bool) (x : Series) (w : Writer) (v : W32), s.live → c < 64 →
    (s.dev.dmaEn c = true → s.dev.dmaReqs c < 65535 →
      (Completes (.dreqEdge k) s fun t =>
        t.dmaReqs c = if s.dev.dmaSel c = 1 + k then s.dev.dmaReqs c + 1 else s.dev.dmaReqs c) ∧
      (SMap.find s.dev.dma.timers k = some x → x.next ≤ s.dev.tb.dt → Completes (.dmaTimerFire k) s fun t =>
        (t.dmaReqs c = if s.dev.dmaSel c = 16 + k then s.dev.dmaReqs c + 1 else s.dev.dmaReqs c) ∧
        SMap.find t.dma.timers k = some x.fire) ∧
      (s.dev.mayWrite w → c = (if hi then 32 else 0) + i → i < 32 → c < 56 ∨ w = .firmware →
        Completes (.dmaSwreq w hi v) s fun t =>
          t.dmaReqs c = if bit v.toNat i then s.dev.dmaReqs c + 1 else s.dev.dmaReqs c)) ∧
    (s.dev.mayWrite w → k < 16 →
      (v.toNat = 0 ∨ 1000 ≤ v.toNat → Completes (.dmaTimerWrite w k v) s fun t => t.reg (Reg.DMA_TIMER k) = v.toNat ∧
        SMap.find t.dma.timers k = if v.toNat = 0 then none
          else some (Series.start (v.toNat * 65536) s.dev.tb.dt)) ∧
      (0 < v.toNat → v.toNat < 1000 → Completes (.dmaTimerWrite w k v) s fun t =>
        t.dma.timers = s.dev.dma.timers ∧ t.flag (Reg.BLK_STATUS 5) 0 = true)) ∧
    (s.dev.mayWrite w → c < 56 ∨ w = .firmware →
      (s.dev.dmaEn c = false → 6 ≤ bits v.toNat 19 16 → bits v.toNat 19 16 ≤ 12 → 6 ≤ bits v.toNat 12 8 →
        bits v.toNat 12 8 ≤ 16 → 6 ≤ bits v.toNat 4 0 → bits v.toNat 4 0 ≤ 16 → dmaSelOk (bits v.toNat 28 24) = true →
        s.dev.reg (Reg.DMA_CH_RING_LO c) % 4096 = 0 → s.dev.reg (Reg.DMA_CH_CQ_LO c) % 4096 = 0 →
        s.dev.reg (Reg.DMA_CH_REC_LO c) % 64 = 0 → Completes (.dmaChannelEnable w c v) s fun t => t.dmaEn c = true ∧
          t.dmaSel c = bits v.toNat 28 24 ∧
          t.dmaChan c = { dmaChanReset with descs := (s.dev.dmaChan c).descs }) ∧
      (Completes (.dmaChannelDisable w c v) s fun t => t.dmaEn c = false ∧
        (s.dev.dmaEn c = true → t.dmaReqs c = 0)))

/-! ### Interrupt Hub (spec/19_interrupt_hub.md) -/

/-- The writer may write the page of target `k` (R453): the PF's driver and firmware through BAR0, a VF its own. -/
abbrev Claims.pageMay (d : Dev) (w : Writer) (k : Nat) : Prop :=
  k < 66 ∧ ((d.mayWrite w ∧ (k < 64 ∨ w = .firmware)) ∨ (w = .vf k ∧ 0 < k ∧ k ≤ d.host.numVfs))

/-- Nothing holds the messages of function `f` on vector `v` (R452). -/
abbrev Claims.msgOpen (d : Dev) (f v : Nat) : Prop :=
  (d.fn f).fnMask = false ∧ bit (d.fn f).vecMask v = false ∧ (d.fn f).bme = true ∧ (d.fn f).d3 = false

/-- INT_SOURCE_EVENT, INT_LEVEL_CHANGE (R445, R447, R449). -/
def Claims.IntSources : Prop :=
  ∀ (s : State) (src : Nat), s.live → s.dev.flag (Reg.BLK_STATE 3) 0 = false →
    (src < 1024 → intIsLevel src = false →
      (Completes (.intSourceEvent src) s fun t => t.intPending src = true) ∧
      (s.dev.intPending src = true → Completes (.intSourceEvent src) s fun t => t.out = s.dev.out) ∧
      (s.dev.intPending src = false → s.dev.flag (Reg.INTC_MASK (src / 32)) (src % 32) = false →
        s.dev.flag Reg.INTC_CTRL 0 = true → s.dev.intLevel (s.dev.intTarget src) < s.dev.intPrio src →
        s.dev.intTarget src < 64 → Claims.msgOpen s.dev (s.dev.intTarget src) (s.dev.intVec src) →
        SMap.get (fun _ => none) s.dev.intc.lastMsg (32 * s.dev.intTarget src + s.dev.intVec src) = none →
        Completes (.intSourceEvent src) s fun t =>
          .msix (s.dev.intTarget src) (s.dev.intVec src) ∈ t.out)) ∧
    (intIsLevel src = true → s.dev.inService src = false → Completes (.intLevelChange src) s fun t =>
      t.intPending src = s.dev.intLine src) ∧
    (intIsLevel src = true → s.dev.inService src = true → Completes (.intLevelChange src) s fun t =>
      t.intPending src = s.dev.intPending src)

/-- COMPLETE (R454): the top entry is popped when its source is the one written, and the effective level falls with it;
any other write leaves the stack, sets STACK_ERR and raises INTC_STACK; QUIET counts a successful completion. -/
def Claims.CompleteWrites : Prop :=
  ∀ (s : State) (w : Writer) (k src p : Nat) (r : List (Nat × Nat)) (v : W32), s.live →
    s.dev.flag (Reg.BLK_STATE 3) 0 = false → Claims.pageMay s.dev w k → src = bits v.toNat 9 0 →
    (s.dev.intStack k = (src, p) :: r → Completes (.complete w k v) s fun t => t.intStack k = r ∧
      t.intLevel k = r.foldl (fun m e => max m e.2) (s.dev.fld (Reg.INTC_THRESHOLD k) 3 0) ∧
      (intIsLevel src = true → t.intPending src = s.dev.intLine src) ∧
      t.reg (Reg.INTC_VANISHED k) = if bit v.toNat 16 then (s.dev.reg (Reg.INTC_VANISHED k) + 1) % 2 ^ 32
        else s.dev.reg (Reg.INTC_VANISHED k)) ∧
    ((∀ e ∈ (s.dev.intStack k).head?, e.1 ≠ src) → Completes (.complete w k v) s fun t =>
      t.intStack k = s.dev.intStack k ∧ t.flag Reg.INTC_EVENTS 0 = true ∧ t.flag (Reg.FC_STICKY 15) 4 = true ∧
      (s.dev.fc.queue.length < 64 → t.fc.queue = s.dev.fc.queue ++ [⟨364, 0, s.dev.tb.dt, src * 2 ^ 16 + k⟩]) ∧
      t.reg (Reg.INTC_VANISHED k) = s.dev.reg (Reg.INTC_VANISHED k))

/-- CLAIM, THRESHOLD_WRITE, MASK_SET, MASK_CLR, PEND_SET, PEND_CLR (R448, R453, R457). -/
def Claims.IntPages : Prop :=
  ∀ (s : State) (w : Writer) (k src : Nat) (v : W32), s.live →
    s.dev.flag (Reg.BLK_STATE 3) 0 = false → Claims.pageMay s.dev w k →
    src = bits v.toNat 9 0 →
    (s.dev.intTarget src ≠ k → Completes (.claim w k v) s fun t => t.reg (Reg.INTC_CLAIM_RESULT k) = 2 ∧
      t.intStack k = s.dev.intStack k) ∧
    (s.dev.intTarget src = k →
      (s.dev.intPending src = false → Completes (.claim w k v) s fun t => t.reg (Reg.INTC_CLAIM_RESULT k) = 1 ∧
        t.intStack k = s.dev.intStack k) ∧
      (s.dev.intPending src = true → 16 ≤ (s.dev.intStack k).length → Completes (.claim w k v) s fun t =>
        t.reg (Reg.INTC_CLAIM_RESULT k) = 3 ∧ t.intStack k = s.dev.intStack k) ∧
      (s.dev.intPending src = true → (s.dev.intStack k).length < 16 → Completes (.claim w k v) s fun t =>
        t.reg (Reg.INTC_CLAIM_RESULT k) = 0 ∧ t.intStack k = (src, s.dev.intPrio src) :: s.dev.intStack k ∧
        t.intPending src = false)) ∧
    (Completes (.thresholdWrite w k v) s fun t => t.reg (Reg.INTC_THRESHOLD k) = v.toNat % 16) ∧
    (Completes (.maskSet w k v) s fun t => t.flag (Reg.INTC_MASK (src / 32)) (src % 32) =
      (decide (s.dev.intTarget src = k) || s.dev.flag (Reg.INTC_MASK (src / 32)) (src % 32))) ∧
    (Completes (.maskClr w k v) s fun t => t.flag (Reg.INTC_MASK (src / 32)) (src % 32) =
      (!decide (s.dev.intTarget src = k) && s.dev.flag (Reg.INTC_MASK (src / 32)) (src % 32))) ∧
    (s.dev.intTarget src = k → intIsLevel src = false →
      (Completes (.pendSet w k v) s fun t => t.intPending src = true) ∧
      (Completes (.pendClr w k v) s fun t => t.intPending src = false)) ∧
    (s.dev.intTarget src ≠ k ∨ intIsLevel src = true →
      (Completes (.pendSet w k v) s fun t => t.intPending src = s.dev.intPending src) ∧
      (Completes (.pendClr w k v) s fun t => t.intPending src = s.dev.intPending src))

/-- MOD_MAX_EXPIRE, INT_HOLD_RELEASE (R451, R452). -/
def Claims.IntMessages : Prop :=
  ∀ (s : State) (f v n : Nat), s.live → Claims.msgOpen s.dev f v → v < 32 →
    (SMap.get (fun _ => none) s.dev.intc.modHeld (32 * f + v) = some n → n ≤ s.dev.tb.dt →
      Completes (.modMaxExpire f v) s fun t => t.out = s.dev.out ++ [.msix f v] ∧
        SMap.get (fun _ => none) t.intc.modHeld (32 * f + v) = none ∧
        SMap.get (fun _ => none) t.intc.lastMsg (32 * f + v) = some s.dev.tb.dt) ∧
    (f < 64 → SMap.get (fun _ => false) s.dev.intc.msgHeld (32 * f + v) = true →
      Completes (.intHoldRelease f) s fun t => .msix f v ∈ t.out ∧
        SMap.get (fun _ => false) t.intc.msgHeld (32 * f + v) = false)

/-! ### Fault collection (spec/20_fault_collection.md) -/

/-- CLOCK_MONITOR_TRIP, HALYARD_TIMEOUT, CONDITION_RERAISE, RAIL_FAULT (R23, R24, R460-R464, R535): the
source's sticky bit is set, and what has stopped is marked. -/
def Claims.FaultSources : Prop :=
  ∀ (s : State) (n i info sev : Nat) (tile stopped : Bool), s.up →
    (n < 24 → Completes (.clockMonitorTrip n stopped) s fun t => t.flag (Reg.FC_STICKY 0) n = true ∧
      t.pins.fatalStop = true ∧
      (stopped = true → t.flag Reg.GLB_CLOCKS (if n = 0 then 0 else n + 1) = false ∧
        (12 ≤ n → n < 16 → (t.tile (n - 12)).stopped = true) ∧ (16 ≤ n → t.mcState (n - 16) = 5))) ∧
    (i < (if tile then 4 else 8) → (∀ k < 4, (s.dev.tile k).jobs = []) → s.dev.dma.chans = [] →
      SMap.find s.dev.fc.conds (if tile then 32 + i else 36 + i) = none →
      Completes (.halyardTimeout tile i) s fun t => t.flag (Reg.FC_STICKY 1) 21 = true ∧
        t.flag (Reg.FC_STICKY 1) ((if tile then 8 else 12) + i) = true ∧
        (if tile then (t.tile i).stopped = true else t.mcState i = 5)) ∧
    (SMap.find s.dev.fc.conds n = some info → fcSeverity n = some sev → s.dev.fc.queue.length < 64 →
      Completes (.conditionReraise n) s fun t => t.flag (Reg.FC_STICKY (n / 24)) (n % 24) = true ∧
        t.fc.queue = s.dev.fc.queue ++ [⟨n, sev, s.dev.tb.dt, info⟩]) ∧
    (i < 6 → Completes (.railFault i) s fun t => t.flag (Reg.FC_STICKY 1) 3 = true ∧ t.pins.fatalStop = true)

/-- FC_FORCE (R472): SOURCE is raised as its block would raise it, with FORCED and the source information of
FC_FORCE_INFO, and nothing outside the Fault Collector changes; a reserved source, or one of 512 to 639, is refused. -/
def Claims.ForcedFaults : Prop :=
  ∀ (s : State) (w : Writer) (v : W32) (n sev info : Nat), s.live → s.dev.mayWrite w → n = bits v.toNat 9 0 →
    info = 2 ^ 63 + bits (s.dev.reg Reg.FC_FORCE_INFO_HI) 23 0 * 2 ^ 32 + s.dev.reg Reg.FC_FORCE_INFO_LO →
    (n < 512 → fcSeverity n = some sev → Completes (.fcForce w v) s fun t => t = s.dev.under (s.dev.raise n info) ∧
      t.flag (Reg.FC_STICKY (n / 24)) (n % 24) = true ∧
      (s.dev.fc.queue.length < 64 → t.fc.queue = s.dev.fc.queue ++ [⟨n, sev, s.dev.tb.dt, info⟩]) ∧
      (sev = 4 → t.pins.fatalStop = true ∧ t.flag Reg.FC_STATE 0 = true) ∧
      t.media = s.dev.media ∧ t.dlv = s.dev.dlv ∧ t.prot = s.dev.prot ∧ t.host = s.dev.host) ∧
    (fcSeverity n = none ∨ 512 ≤ n → Completes (.fcForce w v) s fun t => t = s.dev.under (s.dev.reject 4) ∧
      t.flag (Reg.BLK_STATUS 4) 0 = true)

/-- FC_MH_REARM (R466): the current count clears VALID, OVERFLOW and COUNT; anything else changes nothing and sets
STALE_CLEAR. -/
def Claims.MastheadRearm : Prop :=
  ∀ (s : State) (w : Writer) (v : W32), s.live → s.dev.mayWrite w →
    (v.toNat = s.dev.reg Reg.FC_MH_COUNT → s.dev.flag Reg.FC_MH_SRC 31 = true → Completes (.fcMhRearm w v) s fun t =>
      t.flag Reg.FC_MH_SRC 31 = false ∧ t.flag Reg.FC_MH_SRC 30 = false ∧ t.reg Reg.FC_MH_COUNT = 0 ∧
      ∀ src sev info, src < 640 → fcSeverity src = some sev →
        (t.raise src info).reg Reg.FC_MH_SRC = 2 ^ 31 + sev * 2 ^ 16 + src) ∧
    (v.toNat ≠ s.dev.reg Reg.FC_MH_COUNT ∨ s.dev.flag Reg.FC_MH_SRC 31 = false →
      Completes (.fcMhRearm w v) s fun t => t = s.dev.under (s.dev.setEvent (Reg.BLK_STATUS 4) 1) ∧
        t.flag (Reg.BLK_STATUS 4) 1 = true)

/-- RESET and RESET_DELAY_EXPIRE (R507): RESET completes with OK; 10 ms later a warm reset is performed. -/
def Claims.ResetCommand : Prop :=
  ∀ (s : State) (o : RingOp) (op : Op) (x : Ring) (q : Cq) (n : Nat), s.live →
    (s.dev.takesAdmin o noFields levelOne op → s.dev.host.ops = [] →
      (s.dev.start o adminKey).1.ring op.ring = some x → (s.dev.start o adminKey).1.cq x.cq = some q →
      q.full = false → q.src = 0xFFFF → Completes (.reset o) s fun t => t.host.ops = [] ∧
        t.hostRead (q.base + q.written % 2 ^ q.sizeLog2 * 32) 32 = recordBytes op (resOf stOk) s.dev.tb.dt q.phase ∧
        t.mgmt.resetDue = some (s.dev.tb.dt + 10000 * unitsPerUs)) ∧
    (s.dev.mgmt.resetDue = some n → Completes .resetDelayExpire s fun t => Claims.held s.dev t ∧
      t.fld Reg.GLB_RESET 3 0 = 6 ∧ t.pins.internal = true)

/-- FAULT_EVENT_TAKE, FLASH_LOG_WRITE, LOG_READ (R474-R477). -/
def Claims.Logs : Prop :=
  ∀ (s : State) (o : RingOp) (op : Op) (f : FaultEvent) (r : List FaultEvent) (x : LogRec)
    (l : List LogRec) (e : Dev) (y : List LogRec × Nat), s.live →
    (s.dev.mgmt.restarting = false → s.dev.fc.queue = f :: r → Completes .faultEventTake s fun t =>
      t.fc.queue = r ∧ t.fc.ramSeq = s.dev.fc.ramSeq + 1 ∧
      (s.dev.fld Reg.FC_CTRL 10 8 ≤ f.sev → t.fc.flashWait.length = s.dev.fc.flashWait.length + 1) ∧
      (f.sev < s.dev.fld Reg.FC_CTRL 10 8 → t.fc.flashWait = s.dev.fc.flashWait)) ∧
    (s.dev.mgmt.restarting = false → s.dev.fc.flashWait = x :: l → 0 < s.dev.fc.flashUsed →
      s.dev.tb.dt < s.dev.fc.flashFrom + unitsPerSec →
      (s.dev.fc.flashUsed < 100 → s.dev.fc.flashLog.length < 2048 → Completes .flashLogWrite s fun t =>
        t.fc.flashWait = l ∧ t.fc.flashUsed = s.dev.fc.flashUsed + 1 ∧ t.fc.flashSeq = s.dev.fc.flashSeq + 1 ∧
        t.fc.flashLog = s.dev.fc.flashLog ++ [x.renumber s.dev.fc.flashSeq]) ∧
      (100 ≤ s.dev.fc.flashUsed → Completes .flashLogWrite s fun t => t.fc.flashWait = l ∧
        t.fc.flashLog = s.dev.fc.flashLog ∧
        t.reg Reg.FC_FLASH_DROPS = (s.dev.reg Reg.FC_FLASH_DROPS + 1) % 2 ^ 32)) ∧
    (s.dev.takesAdmin o
        (fun x => decide (Desc.byte x 8 ≤ 1) && zeroAt x 9 3 && Desc.le x 16 8 % 32 == 0 && zeroAt x 24 40) levelOne op →
      lengthOf op.desc ≠ 0 → e = (s.dev.start o adminKey).1 →
      y = logSelect (if Desc.byte op.desc 8 = 0 then s.dev.fc.ramLog else s.dev.fc.flashLog)
        (if Desc.byte op.desc 8 = 0 then s.dev.fc.ramSeq else s.dev.fc.flashSeq) (Desc.le op.desc 12 4) (lengthOf op.desc) →
      Completes (.logRead o) s fun t => t = s.dev.under
        ((e.opWrite op (Desc.le op.desc 16 8) (y.1.flatMap LogRec.data)).finish op.id ⟨stOk, y.1.length, 0, y.2⟩))

/-! ### Management (spec/21_management_security.md) -/

/-- HEARTBEAT, HEARTBEAT_MISSED, MGMT_CORE_RESTART, CORE_RESTART_DONE, RESET, SENSOR_REFRESH (R480, R498, R507, R538). -/
def Claims.CoresAndSensors : Prop :=
  ∀ (s : State) (n k : Nat) (c : Int) (o : RingOp) (op : Op) (x : Sensors), s.live →
    (n ≤ s.dev.tb.dt → s.dev.mgmt.restarting = false → Completes (.heartbeat n) s fun t =>
      t.mgmt.beatAt = s.dev.tb.dt ∧ t.mgmt.beatLost = false ∧ SMap.find t.fc.conds 28 = none) ∧
    (s.dev.mgmt.beatLost = false → s.dev.mgmt.restarting = false → s.dev.mgmt.beatAt + 100000 * unitsPerUs ≤ s.dev.tb.dt →
      SMap.find s.dev.fc.conds 28 = none → Completes .heartbeatMissed s fun t => t.mgmt.beatLost = true ∧
        t.flag (Reg.FC_STICKY 1) 4 = true ∧ SMap.find t.fc.conds 28 = some 0) ∧
    (s.dev.mgmt.beatLost = true → s.dev.mgmt.restarting = false → s.dev.mgmt.beatAt + 5 * unitsPerSec ≤ s.dev.tb.dt →
      Completes .mgmtCoreRestart s fun t => t.mgmt.restarting = true ∧ t.flag Reg.MGMT_EVENTS 0 = true) ∧
    (s.dev.mgmt.restarting = true → Completes .coreRestartDone s fun t => t.mgmt.restarting = false ∧
      t.mgmt.beatLost = false ∧ ∀ p ∈ t.host.ops, (s.dev.ring p.ring).any (fun y => y.type == 3) = true →
        p.result.isSome = true) ∧
    (s.dev.takesAdmin o noFields levelOne op → Completes (.reset o) s fun t =>
      t.mgmt.resetDue = some (s.dev.tb.dt + 10000 * unitsPerUs)) ∧
    (x.t ≤ s.dev.tb.dt → k < 24 → -32768 ≤ c → c < 32768 →
      (x.temps.getD k none = some c → Completes (.sensorRefresh x) s fun t =>
        t.flag (Reg.TEMP k) 31 = true ∧ t.temp k = c ∧ (16 * 105 ≤ c → (SMap.find t.fc.conds 24).isSome = true ∧
          t.pins.smbAlert = true)) ∧
      (x.temps.getD k none = none → Completes (.sensorRefresh x) s fun t => t.flag (Reg.TEMP k) 31 = false ∧
        (SMap.find t.fc.conds 515).isSome = true))

/-- GET_CHALLENGE, CLAIM_ADMIN, RELEASE_ADMIN, CHALLENGE_LAPSE, OWNER_SET, KEY_LOAD, KEY_CLEAR (R491-R493). -/
def Claims.CredentialAndKeys : Prop :=
  ∀ (s : State) (o : RingOp) (op : Op) (e : Dev) (n : Nat) (slot : Desc → Nat), s.live →
    e = (s.dev.start o adminKey).1 → slot = (fun x => Desc.le x 8 2) →
    (s.dev.takesAdmin o addrOnly levelPf op → Completes (.getChallenge o) s fun t =>
      t.mgmt.challenge = some (s.dev.tb.dt + 60 * unitsPerSec) ∧
      t.mgmt.challengeData = leBytes 64 (Config.freeValue s.dev.freeCtr) ++ s.dev.serial) ∧
    (s.dev.takesAdmin o addrOnly levelPf op → s.dev.mgmt.challenge = some n →
      (n ≤ s.dev.tb.dt → Completes (.claimAdmin o) s fun t => t.mgmt.challenge = none ∧
        t.reg (Reg.FN_STATUS 0) = s.dev.reg (Reg.FN_STATUS 0)) ∧
      (s.dev.tb.dt < n → s.dev.flag (Reg.FN_STATUS 0) 1 = false →
        s.dev.ownerSigned s.dev.mgmt.challengeData (e.hostRead (addrOf op.desc) 512) = true →
        Completes (.claimAdmin o) s fun t => t.mgmt.challenge = none ∧ t.flag (Reg.FN_STATUS 0) 1 = true)) ∧
    (s.dev.takesAdmin o noFields levelOne op → Completes (.releaseAdmin o) s fun t =>
      t.flag (Reg.FN_STATUS 0) 1 = false) ∧
    (s.dev.mgmt.challenge = some n → n ≤ s.dev.tb.dt → Completes .challengeLapse s fun t =>
      t.mgmt.challenge = none ∧ t.host = s.dev.host) ∧
    (s.dev.takesAdmin o addrOnly levelOne op →
      (((e.hostRead (addrOf op.desc) 1036).drop 1024).all (· == 0) = true → s.dev.mgmt.ownerKey = none →
        (((e.hostRead (addrOf op.desc) 1036).drop 512).take 512).all (· == 0) = true →
        Completes (.ownerSet o) s fun t => t.mgmt.ownerKey = some ((e.hostRead (addrOf op.desc) 1036).take 512)) ∧
      (∀ key, s.dev.mgmt.ownerKey = some key → Config.verify key ((e.hostRead (addrOf op.desc) 1036).take 512)
          (((e.hostRead (addrOf op.desc) 1036).drop 512).take 512) = false →
        Completes (.ownerSet o) s fun t => t.mgmt = s.dev.mgmt)) ∧
    (s.dev.takesAdmin o (fun x => noLength x && decide (slot x < 4096) && zeroAt x 10 6 && zeroAt x 32 32) levelTwo op →
      e.owns FnState.keySlots op.fn op.level (slot op.desc % 4096) = true →
      Completes (.keyLoad o) s fun t => SMap.find t.mgmt.keys (slot op.desc) = some (Desc.le op.desc 16 16)) ∧
    (s.dev.takesAdmin o (fun x => noLength x && decide (slot x < 4096) && zeroAt x 10 54) levelTwo op →
      e.owns FnState.keySlots op.fn op.level (slot op.desc % 4096) = true →
      Completes (.keyClear o) s fun t => SMap.find t.mgmt.keys (slot op.desc) = none)

/-- FW_WRITE, FW_ACTIVATE, FW_COMMIT, CONFIG_STORE, ATTEST, GET_CERT and the SMBus commands (R485-R489, R497,
R504-R506, R527). -/
def Claims.FirmwareAndAttestation : Prop :=
  ∀ (s : State) (o : RingOp) (op : Op) (e : Dev) (off port : Nat) (first : Bool) (data : List Byte), s.live →
    e = (s.dev.start o adminKey).1 →
    (s.dev.takesAdmin o (fun x => noLength x && decide (Desc.le x 12 4 ≤ 65536) && decide (Desc.byte x 24 < 2) &&
        zeroAt x 25 39) levelOne op → off = Desc.le op.desc 8 4 → first = bit (Desc.byte op.desc 24) 0 →
      Desc.le op.desc 12 4 ≠ 0 → data = e.hostRead (addrOf op.desc) (Desc.le op.desc 12 4) →
      off + data.length ≤ slotBytes →
      (s.dev.inactive.state ≠ 2 → first = true ∨ s.dev.mgmt.writer = 1 → Completes (.fwWrite o) s fun t =>
        t.inactive = ⟨0, 0, flashPut (if first then [] else s.dev.inactive.image) off data⟩ ∧ t.mgmt.writer = 1) ∧
      (s.dev.inactive.state = 2 ∨ (first = false ∧ s.dev.mgmt.writer ≠ 1) → Completes (.fwWrite o) s fun t =>
        t.mgmt = s.dev.mgmt)) ∧
    (s.dev.takesAdmin o noFields levelOne op →
      (s.dev.fwCheck s.dev.inactive = 0 → Completes (.fwActivate o) s fun t => t.inactive.state = 2 ∧
        t.inactive.tries = 3 ∧ t.inactive.image = s.dev.inactive.image) ∧
      (s.dev.fwCheck s.dev.inactive ≠ 0 → Completes (.fwActivate o) s fun t => t.mgmt = s.dev.mgmt) ∧
      (s.dev.mgmt.slotA.state ≠ 2 → s.dev.mgmt.slotB.state ≠ 2 → leNum ((s.dev.activeSlot.read 0 13).take 4) = 0x57465844 →
        Completes (.fwCommit o) s fun t => t.mgmt.fuses =
          max s.dev.mgmt.fuses (min ((s.dev.activeSlot.read 0 13).getD 12 0).toNat 64)) ∧
      (s.dev.mgmt.slotA.state = 2 ∨ s.dev.mgmt.slotB.state = 2 → Completes (.fwCommit o) s fun t =>
        t.mgmt = s.dev.mgmt)) ∧
    (s.dev.takesAdmin o addrOnly levelOne op → data = e.hostRead (addrOf op.desc) 1024 →
      (e.configBad data = none → Completes (.configStore o) s fun t => t.mgmt.config = some data) ∧
      (e.configBad data ≠ none → Completes (.configStore o) s fun t => t.mgmt = s.dev.mgmt)) ∧
    (s.dev.takesAdmin o (fun x => addrOnly x && addrOf x % 64 == 0) levelTwo op →
      data = e.quote (e.hostRead (addrOf op.desc) 64) → Completes (.attest o) s fun t => t = s.dev.under
        (((e.opRead op 64).opWrite op (addrOf op.desc) (data ++ beBytes 512 (Config.sign data).toNat)).finish op.id
          (resOf stOk))) ∧
    (s.dev.takesAdmin o (fun x => noLength x && zeroAt x 8 4 && zeroAt x 24 40) levelTwo op →
      (Config.certChain.length ≤ Desc.le op.desc 12 4 → Completes (.getCert o) s fun t => t = s.dev.under
        ((e.opWrite op (addrOf op.desc) Config.certChain).finish op.id ⟨stOk, Config.certChain.length, 0, 0⟩)) ∧
      (Desc.le op.desc 12 4 < Config.certChain.length → Completes (.getCert o) s fun t => t = s.dev.under
        (e.finish op.id ⟨stBufferSmall, 0, 0, Config.certChain.length⟩))) ∧
    (port < 2 → Completes (.smbStatusRead port) s fun t => t.out = s.dev.out ++ [.smbus s.dev.smbStatus]) ∧
    (data.length ≤ 128 → data ≠ [] → off + data.length ≤ slotBytes → s.dev.inactive.state ≠ 2 →
      first = true ∨ s.dev.mgmt.writer = 2 → Completes (.smbFwWrite 0 off first data) s fun t =>
        t.inactive = ⟨0, 0, flashPut (if first then [] else s.dev.inactive.image) off data⟩ ∧ t.mgmt.writer = 2) ∧
    (s.dev.fwCheck s.dev.inactive = 0 → Completes (.smbFwActivate 0 0) s fun t => t.inactive.state = 2 ∧
      t.inactive.tries = 3 ∧ t.mgmt.fwResult = stOk) ∧
    (s.dev.fwCheck s.dev.inactive ≠ 0 → Completes (.smbFwActivate 0 0) s fun t => t.inactive = s.dev.inactive ∧
      t.mgmt.fwResult = s.dev.fwCheck s.dev.inactive)

/-- WATCHDOG, HOST_WATCHDOG, HOST_WAIT_EXPIRY (R478, R501, R502). -/
def Claims.Watchdogs : Prop :=
  ∀ (s : State) (o : RingOp) (op : Op) (n : Nat) (r : Order), s.live →
    (s.dev.takesAdmin o (fun x => noLength x && zeroAt x 12 52 &&
        (Desc.le x 8 4 == 0 || decide (100 ≤ Desc.le x 8 4) && decide (Desc.le x 8 4 ≤ 600000))) levelOne op →
      Completes (.watchdog o) s fun t => t.mgmt.wdog = if Desc.le op.desc 8 4 = 0 then none
        else some (s.dev.tb.dt + Desc.le op.desc 8 4 * 1000 * unitsPerUs)) ∧
    (s.dev.mgmt.restarting = false →
      (s.dev.mgmt.wdog = some n → n ≤ s.dev.tb.dt →
        (s.dev.mgmt.order = none → Completes .hostWatchdog s fun t => t.mgmt.wdog = none ∧
          t.flag Reg.MGMT_EVENTS 2 = true ∧ t.flag (Reg.FC_STICKY 21) 8 = true) ∧
        (s.dev.mgmt.order = some r → s.dev.soState ≠ 2 → bit r.triggers 1 = true → soEntries r.image = [] →
          Completes .hostWatchdog s fun t => t.mgmt.wdog = none ∧ t.soState = 2 ∧ t.flag Reg.MGMT_EVENTS 3 = true)) ∧
      (s.dev.mgmt.readyAt = some n → s.dev.mgmt.hostSeen = false →
        n + s.dev.mgmt.waitS * unitsPerSec ≤ s.dev.tb.dt →
        (s.dev.mgmt.order = none → Completes .hostWaitExpiry s fun t => t.mgmt.readyAt = none) ∧
        (s.dev.mgmt.order = some r → s.dev.soState ≠ 2 → bit r.triggers 0 = true → soEntries r.image = [] →
          Completes .hostWaitExpiry s fun t => t.mgmt.readyAt = none ∧ t.soState = 2 ∧
            t.flag Reg.MGMT_EVENTS 3 = true)))

/-- SO_STORE, SO_STOP, SO_ADOPT, SO_CLEAR, SO_EGRESS_DATAGRAM (R499-R503). -/
def Claims.StandingOrders : Prop :=
  ∀ (s : State) (o : RingOp) (op : Op) (n i h : Nat) (img f : List Byte) (r : Order) (x : Egress), s.live →
    (s.dev.takesAdmin o (fun x => noLength x && zeroAt x 8 4 && zeroAt x 24 40) levelOne op → n = Desc.le op.desc 12 4 →
      n ≠ 0 → img = (s.dev.start o adminKey).1.hostRead (addrOf op.desc) (min n 1048577) →
      (s.dev.soState ≠ 2 → s.dev.mgmt.ownerKey.isSome = true → (s.dev.start o adminKey).1.soBad img n = none →
        Completes (.soStore o) s fun t => t.mgmt.order = some (orderOf img) ∧ t.soState = 1) ∧
      (s.dev.soState = 2 ∨ s.dev.mgmt.ownerKey = none → Completes (.soStore o) s fun t => t.mgmt = s.dev.mgmt ∧
        t.soState = s.dev.soState)) ∧
    (s.dev.takesAdmin o soControlFormat levelOne op →
      (Desc.byte op.desc 8 = 0 → s.dev.soState = 2 → Completes (.soStop o) s fun t => t.soState = 1 ∧
        t.reg Reg.SO_CHANNELS = 0) ∧
      (Desc.byte op.desc 8 = 1 → s.dev.soState = 2 → Completes (.soAdopt o) s fun t => t.mgmt.order = none ∧
        t.soState = 0 ∧ t.reg Reg.SO_CHANNELS = 0 ∧ t.media = s.dev.media ∧ t.dlv = s.dev.dlv) ∧
      (Desc.byte op.desc 8 = 2 → s.dev.soState = 1 → Completes (.soClear o) s fun t => t.mgmt.order = none ∧
        t.soState = 0) ∧
      (Desc.byte op.desc 8 = 2 → s.dev.soState ≠ 1 → Completes (.soClear o) s fun t => t.mgmt = s.dev.mgmt)) ∧
    (s.dev.mgmt.order = some r → r.egress[i]? = some x → s.dev.soState = 2 → s.dev.mgmt.restarting = false →
      x.rate ≠ 0 → x.seg = some h → x.nextAt ≤ s.dev.tb.dt → n = min 1316 (s.dev.segBytes h - x.sent) →
      f = datagram x.template ((s.dev.chainSpans (segUnit (s.dev.segBytes h) (s.dev.segBufs h).length) (s.dev.segBufs h)
        (256 + x.sent) n).flatMap fun a => s.dev.dataRead a.1 a.2) →
      s.dev.egressBound x.queue x.port = true → s.dev.egressRoom x.queue f.length = true →
      x.sent + n < s.dev.segBytes h → Completes (.soEgressDatagram i) s fun t =>
        (∃ g, (t.queue x.queue).frames = (s.dev.queue x.queue).frames ++ [g] ∧ g.data = f) ∧
        t.mgmt.order = some { r with egress := r.egress.set i { x with
          sent := x.sent + n, nextAt := s.dev.tb.dt + n * 8 * unitsPerSec / (x.rate * 1000) } })

/-! ### Performance monitors, JTAG, lost completions (spec/22, spec/23, spec/18) -/

/-- PM_CLEAR, PM_COUNTER_LO_READ, PM_OVERFLOW, BW_WINDOW_END (R513-R519). -/
def Claims.Monitors : Prop :=
  ∀ (s : State) (w : Writer) (v : W32) (u k n path : Nat) (x : Series), s.live →
    (s.dev.mayWrite w → u < 40 → k < 8 → Completes (.pmClear w u v) s fun t =>
      SMap.get (fun _ => 0) t.pm.counters (8 * u + k) =
        if bit v.toNat k then 0 else SMap.get (fun _ => 0) s.dev.pm.counters (8 * u + k)) ∧
    (s.dev.pmShown path u = true → k < 8 → Completes (.pmCounterLoRead path u k) s fun t =>
      t.out = s.dev.out ++ [.regData (SMap.get (fun _ => 0) s.dev.pm.counters (8 * u + k) % 2 ^ 48 % 2 ^ 32)] ∧
      SMap.find t.pm.latch (path * 1024 + u * 16 + k) =
        some (SMap.get (fun _ => 0) s.dev.pm.counters (8 * u + k) % 2 ^ 48 / 2 ^ 32)) ∧
    (s.dev.pmShown path u = false → Completes (.pmCounterLoRead path u k) s fun t =>
      t.out = s.dev.out ++ [.regData 0] ∧ t.pm = s.dev.pm) ∧
    (s.dev.flag Reg.PM_CTRL 0 = true → s.dev.flag (Reg.PM_EVT u k) 31 = true → k < 8 →
      (SMap.get (fun _ => 0) s.dev.pm.counters (8 * u + k) + n < 2 ^ 48 → Completes (.pmOverflow u k n) s fun t =>
        SMap.get (fun _ => 0) t.pm.counters (8 * u + k) = SMap.get (fun _ => 0) s.dev.pm.counters (8 * u + k) + n) ∧
      (2 ^ 48 ≤ SMap.get (fun _ => 0) s.dev.pm.counters (8 * u + k) + n → u < 40 → Completes (.pmOverflow u k n) s fun t =>
        t.flag (Reg.PM_OVF u) k = true)) ∧
    (s.dev.pm.window = some x → x.next ≤ s.dev.tb.dt → s.dev.flag (Reg.BLK_STATE 7) 0 = false →
      Completes .bwWindowEnd s fun t => t.pm.acc = [] ∧ t.pm.window = some x.fire ∧
        t.reg Reg.PM_BW_PCIE_RX_LO = SMap.get (fun _ => 0) s.dev.pm.acc Reg.PM_BW_PCIE_RX_LO % 2 ^ 32)

/-- BYPASS, IDCODE, SAMPLE_PRELOAD, EXTEST, HIGHZ, CLAMP (R528), and COMPLETION_TIMEOUT (R439, R440): an operation that
waits on a lost completion ends in BUS_ERROR by the model's reading (log entry 25). -/
def Claims.ScanAndTimeouts : Prop :=
  ∀ (s : State) (tdi n pins cells ch a : Nat) (op : Op),
    (Completes (.bypass tdi n) s fun t => t = (s.dev.jtag 0).emit (.jtag (tdi * 2 % 2 ^ n))) ∧
    (Completes .idcode s fun t => t.pins.jtagIr = 1 ∧ t.out = s.dev.out ++ [.jtag 0x196403C3]) ∧
    (Completes (.samplePreload pins cells) s fun t => t.pins.jtagIr = 2 ∧ t.pins.bsr = cells ∧
      t.out = s.dev.out ++ [.jtag pins]) ∧
    (Completes (.extest pins cells) s fun t => t.pins.jtagIr = 3 ∧ t.pins.bsr = cells ∧
      t.out = s.dev.out ++ [.jtag pins]) ∧
    (Completes .highz s fun t => t = s.dev.jtag 4) ∧ (Completes .clamp s fun t => t = s.dev.jtag 5) ∧
    (s.live → s.dev.dmaEngine = 0 →
      (∀ y, (s.dev.dmaChan ch).descs = [y] → y.flight = [(tdi, n, 2)] →
        Completes (.completionTimeout (.dmaBurst ch a)) s fun t => t.dmaEngine = 1) ∧
      (s.dev.dmaFetches ch = true → s.dev.dmaSpace ch = 0 →
        Completes (.completionTimeout (.dmaFetch ch a)) s fun t => t.dmaEngine = 1 ∧
          t.dma.first = some (ch, false, 3, a))) ∧
    (s.live → (s.dev.host.ops.find? fun p => p.ring == ch && p.result.isNone) = some op →
      Completes (.completionTimeout (.op ch)) s fun t => t = s.dev.under (s.dev.finish op.id (resOf stBus)))

/-! ### The queue, resets and FATAL_STOP, for every command -/

/-- The commands that act while the device is held in reset: pins, resets and the scan chain. -/
def Claims.outsideReset : Instr → Bool
  | .powerOnReset .. | .warmReset .. | .resetDelayExpire | .smbReset .. | .thermalHold | .thermalHoldExit ..
  | .resetRelease .. | .bypass .. | .idcode | .samplePreload .. | .extest .. | .highz | .clamp => true
  | _ => false

/-- The commands that FATAL_STOP ends (R471): those of rings, DMA, media, streams, flows, ports, queues and memory. -/
def Claims.halts : Instr → Bool
  | .dtStep .. | .setTod .. | .bar2Write .. | .bar2Read .. | .adminQuiesceDone .. | .ringPoll ..
  | .ringIdleTimeout .. | .sleepRecheck .. | .wakeWrite .. | .cqHeadRead .. | .nop .. | .negotiate ..
  | .createCq .. | .createRing .. | .destroyRing .. | .destroyRingDone .. | .destroyCq .. | .setProtection ..
  | .epochDrain .. | .epochDrainDone .. | .flush .. | .flushDone .. | .safePointApply .. | .createContext ..
  | .destroyContext .. | .contextDrained .. | .createGroup .. | .destroyGroup .. | .keyNow ..
  | .setRateControl .. | .picture .. | .bitstream .. | .getAu .. | .produce .. | .pictureDispatch ..
  | .rowComplete .. | .seamFilter .. | .pictureComplete .. | .dvfsChange .. | .pictureAnalysis ..
  | .rungScale .. | .pairHandover .. | .pad .. | .picStart .. | .rowStart .. | .ctb .. | .cu .. | .intra ..
  | .inter .. | .residual .. | .rowEnd .. | .picEnd .. | .avcMb .. | .avcSubmb .. | .predWeight .. | .sao ..
  | .hevcCuExt .. | .av1Cdef .. | .av1Lr .. | .av1Compound .. | .av1Motion .. | .av1Palette .. | .av1Delta ..
  | .vvcAlf .. | .vvcAffine .. | .vvcGpm .. | .vvcInterExt .. | .microword .. | .preemptionRequest ..
  | .routineWatchdog .. | .budgetOut .. | .stallTimeout .. | .loadPatch .. | .patchTake .. | .streamCreate ..
  | .streamDestroy .. | .streamKey .. | .audio .. | .segNext .. | .segDrop .. | .accessUnitPackage ..
  | .audioWaitTimeout .. | .openFlow .. | .send .. | .resend .. | .setRate .. | .rekey .. | .closeFlow ..
  | .flowCloseDone .. | .flowCacheEntryFree .. | .rxFrame .. | .pauseRx .. | .pfcRx .. | .pauseExpire ..
  | .pauseRefresh .. | .skewTimeout .. | .decapRecirculate | .fragmentAgeOut .. | .rxBuffer ..
  | .hostRxDelivery .. | .rulesWrite .. | .rulesSwap .. | .ruleSetDrained | .hoistRelease .. | .egressSelect ..
  | .frameTxEnd .. | .txFrame .. | .gateEntryAdvance .. | .gateCycleBoundary .. | .gateListStart ..
  | .memRequest .. | .urgencyReport .. | .panicLong .. | .powerDownEntry .. | .selfRefreshEntry ..
  | .selfRefreshExit .. | .freqChangeStart .. | .pllRelock .. | .phyTrainingDone .. | .selfTest ..
  | .patrolScrub .. | .migrationCopy .. | .retirePage .. | .retireBank .. | .declareErasure .. | .poisonClear ..
  | .allocation .. | .hold .. | .release .. | .free .. | .bufQuery .. | .dmaRingPoll .. | .copy .. | .fill ..
  | .dmaBurstGrant | .dmaBurstResponse .. | .dmaEngineStopped | .logRead .. | .getChallenge .. | .claimAdmin ..
  | .releaseAdmin .. | .ownerSet .. | .watchdog .. | .hostWaitExpiry | .soEgressDatagram .. | .fwWrite ..
  | .fwActivate .. | .fwCommit .. | .configStore .. | .soStore .. | .soStop .. | .soAdopt .. | .soClear ..
  | .keyLoad .. | .keyClear .. | .attest .. | .getCert .. | .reset .. | .completionTimeout .. | .delayReq .. => true
  | _ => false

/-- A request outside the data space, which alone faults. -/
def Claims.outside : Instr → Bool
  | .memRequest q => decide (dataSpace < q.addr + q.len)
  | _ => false

/-- What every step keeps: a device out of reset has its three reset inputs high and nothing else holding it (R534,
R535, R537); one in reset is not in FATAL_STOP, holds no ring, queue, operation, context, flow or data byte, and its
pins have their reset state (R471, R531, R535). -/
structure Claims.Inv (s : State) : Prop where
  up : s.dev.pins.inReset = false → s.dev.pins.porN = true ∧ s.dev.pins.perstN = true ∧
    s.dev.pins.sysResetN = true ∧ s.dev.pins.thermalHold = false ∧ s.dev.pins.internal = false
  held : s.dev.pins.inReset = true → s.dev.pins.fatalStop = false ∧ s.dev.host.rings = [] ∧ s.dev.host.cqs = [] ∧
    s.dev.host.ops = [] ∧ s.dev.media.ctxs = [] ∧ s.dev.dlv.flows = [] ∧ s.dev.dataMem = [] ∧ s.dev.staged = [] ∧
    s.dev.pins.faultN = false ∧ s.dev.pins.smbAlert = false ∧ s.dev.pins.wakeN = false ∧ s.dev.pins.ppsOut = false

/-- A step takes the command at the front of the queue and runs it on the state with the queue's rest. -/
def Obligations.StepRunsFrontCommand : Prop :=
  ∀ (c : Instr) (r : List Instr) (s : State), step { s with pending := c :: r } = exec c { s with pending := r }

/-- On an empty queue a step passes one TIME cycle, in which the management cores take a frame; this is the model's
choice (log entry 10). In reset nothing changes. -/
def Obligations.IdleStepPassesOneCycle : Prop :=
  ∀ (s : State), s.pending = [] →
    (s.up → ∃ t, step s = .next t ∧ t.pending = [] ∧
      t.dev.tb.dt = s.dev.tb.dt + s.dev.tb.inc ∧ t.dev.host = s.dev.host ∧ t.dev.dataMem = s.dev.dataMem) ∧
    (s.dev.pins.inReset = true → step s = .next s)

/-- What reset leaves (R29, R31, R35, R403, R439, R445, R471, R479): DT 0 in FREERUN, memory with nothing listed, every
queue and table empty, the DMA engine RUNNING, the sources' targets and priorities of R445. -/
def Obligations.ResetStateFollowsTheSpec : Prop :=
  State.reset.pending = [] ∧ State.reset.live ∧ State.reset.dev.tb.dt = 0 ∧ State.reset.dev.dataMem = [] ∧
  State.reset.dev.host.rings = [] ∧ State.reset.dev.host.cqs = [] ∧ State.reset.dev.host.ready = false ∧
  State.reset.dev.media.ctxs = [] ∧ State.reset.dev.dlv.flows = [] ∧ State.reset.dev.dlv.streams = [] ∧
  State.reset.dev.dmaEngine = 0 ∧ State.reset.dev.fld Reg.TB_STATUS 2 0 = 0 ∧
  State.reset.dev.flag Reg.FC_STATE 0 = false ∧ State.reset.dev.flag Reg.INTC_CTRL 0 = false ∧
  (∀ n, n < 1024 → State.reset.dev.intPrio n = 8 ∧ State.reset.dev.intPending n = false ∧
    (n < 64 → State.reset.dev.intTarget n = n) ∧ (64 ≤ n → n < 696 → State.reset.dev.intTarget n = 0) ∧
    (696 ≤ n → n < 704 → State.reset.dev.intTarget n = 64) ∧ (704 ≤ n → n < 773 → State.reset.dev.intTarget n = 0) ∧
    (773 ≤ n → State.reset.dev.intTarget n = 64)) ∧
  (∀ n, n < 8 → State.reset.dev.mcState n = 0) ∧ (∀ n, n < 4096 → State.reset.dev.ctx n = none) ∧
  (∀ a, State.reset.dev.dataRead a 1 = [0])

/-- The state after reset has the invariant. -/
def Obligations.InvariantHoldsAtReset : Prop := Claims.Inv State.reset

/-- Every step keeps the invariant. -/
def Obligations.EveryStepKeepsInvariant : Prop := ∀ s t : State, Claims.Inv s → step s = .next t → Claims.Inv t

/-- In reset a command changes nothing but through a pin, a reset or the scan chain (R531, R535); in FATAL_STOP nothing
that fetches, completes, transmits or works on media has an effect (R471). Which commands those are is the model's
reading of R471 (log entry 49, Claims.halts). -/
def Obligations.HeldAndStoppedDevicesDoNothing : Prop :=
  ∀ (i : Instr) (s : State), Claims.outside i = false →
    (s.dev.pins.inReset = true → Claims.outsideReset i = false → exec i s = .next s) ∧
    (s.dev.pins.fatalStop = true → Claims.halts i = true → exec i s = .next s)

/-- No other command moves the reset inputs, ends a reset or starts one, and FATAL_STOP lasts until a reset (R471,
R534, R535). -/
def Obligations.OnlyResetsEndFatalStop : Prop :=
  ∀ (i : Instr) (s t : State), Claims.outsideReset i = false → exec i s = .next t →
    t.dev.pins.porN = s.dev.pins.porN ∧ t.dev.pins.perstN = s.dev.pins.perstN ∧
    t.dev.pins.sysResetN = s.dev.pins.sysResetN ∧ t.dev.pins.inReset = s.dev.pins.inReset ∧
    t.dev.pins.thermalHold = s.dev.pins.thermalHold ∧ t.dev.pins.internal = s.dev.pins.internal ∧
    (s.dev.pins.fatalStop = true → t.dev.pins.fatalStop = true) ∧ t.pending = s.pending

/-! ### Frames: what commands leave unchanged -/

/-- The commands that write the data space directly keep its canonical form: addresses rise, and no listed byte is 0. -/
def Obligations.DataSpaceStaysCanonical : Prop :=
  ∀ (s t : State) (q : MemIn) (o : RingOp) (ch k f p u n : Nat) (x : Desc) (st : Stores) (r : BurstResp),
    Memory.wf s.dev.dataMem = true →
    ∀ i ∈ [Instr.memRequest q, .copy ch x, .fill ch x, .dmaBurstGrant, .dmaBurstResponse r, .dmaEngineStopped,
        .dmaRingPoll ch st, .poisonClear o, .flushDone f, .selfRefreshExit k, .phyTrainingDone k n,
        .urgencyReport k p u n],
      exec i s = .next t → Memory.wf t.dev.dataMem = true

/-- Frame of the host commands that act on rings, queues, functions, logs and the management subsystem: the time, the
data space, media, delivery, ports, memory, buffers, DMA and fault state are unchanged, and so is every register outside
the windows of the host interface, the Interrupt Hub, the monitors and management, and of the functions' control pages.
SET_PROTECTION changes of contexts, flows and streams nothing but the function they belong to (R541). -/
def Obligations.HostCommandFrame : Prop :=
  ∀ (s t : State) (o : RingOp),
    (∀ i ∈ [Instr.nop o, .createCq o, .createRing o, .destroyCq o, .destroyRing o, .epochDrain o, .flush o,
        .negotiate o, .bufQuery o, .logRead o, .getChallenge o, .claimAdmin o, .releaseAdmin o,
        .ownerSet o, .watchdog o, .keyLoad o, .keyClear o, .reset o, .attest o, .getCert o, .fwWrite o, .fwActivate o,
        .fwCommit o, .configStore o, .soStore o],
      exec i s = .next t → t.dev.tb = s.dev.tb ∧ t.dev.dataMem = s.dev.dataMem ∧ t.dev.media = s.dev.media ∧
        t.dev.dlv = s.dev.dlv ∧ t.dev.eth = s.dev.eth ∧ t.dev.mem = s.dev.mem ∧ t.dev.prot = s.dev.prot ∧
        t.dev.bun = s.dev.bun ∧ t.dev.dma = s.dev.dma ∧ t.dev.fc = s.dev.fc ∧
        ∀ a, a / 0x100000 ≠ 1 → a / 0x100000 ≠ 3 → a / 0x100000 ≠ 7 → a / 0x100000 ≠ 49 →
          a / 0x100000 ≠ 64 → t.dev.reg a = s.dev.reg a) ∧
    (∀ i ∈ [Instr.rxBuffer o, .txFrame o, .rulesWrite o, .rulesSwap o],
      exec i s = .next t → t.dev.tb = s.dev.tb ∧ t.dev.dataMem = s.dev.dataMem ∧ t.dev.media = s.dev.media ∧
        t.dev.dlv = s.dev.dlv ∧ t.dev.eth = s.dev.eth ∧ t.dev.mem = s.dev.mem ∧ t.dev.prot = s.dev.prot ∧
        t.dev.bun = s.dev.bun ∧ t.dev.dma = s.dev.dma ∧ t.dev.fc = s.dev.fc ∧ t.dev.mgmt = s.dev.mgmt) ∧
    (exec (.setProtection o) s = .next t → t.dev.tb = s.dev.tb ∧ t.dev.dataMem = s.dev.dataMem ∧
      t.dev.eth = s.dev.eth ∧ t.dev.par = s.dev.par ∧ t.dev.qm = s.dev.qm ∧ t.dev.mem = s.dev.mem ∧
      t.dev.prot = s.dev.prot ∧ t.dev.bun = s.dev.bun ∧ t.dev.dma = s.dev.dma ∧ t.dev.fc = s.dev.fc ∧
      t.dev.mgmt = s.dev.mgmt ∧ t.dev.media = { s.dev.media with ctxs := t.dev.media.ctxs } ∧
      t.dev.dlv = { s.dev.dlv with streams := t.dev.dlv.streams, flows := t.dev.dlv.flows } ∧
      (∀ c, (t.dev.ctx c).map (fun x => { x with fn := 0 }) = (s.dev.ctx c).map fun x => { x with fn := 0 }) ∧
      (∀ f, (t.dev.flow f).map (fun x => { x with fn := 0 }) = (s.dev.flow f).map fun x => { x with fn := 0 }) ∧
      ∀ n, (t.dev.stream n).map (fun x => { x with fn := 0 }) = (s.dev.stream n).map fun x => { x with fn := 0 })

/-- Frame of the register commands: no byte of the data space, no media context or tile, no protection state and
nothing of the management subsystem changes by a register write. -/
def Obligations.RegisterCommandFrame : Prop :=
  ∀ (s t : State) (w : Writer) (v : W32) (a n k : Nat) (b : Bool),
    ∀ i ∈ [Instr.registerWrite w a v, .aliasWrite w a v, .sqcClear w a v, .commit w n v, .discard w n v,
        .blockEnableSet w n v, .blockEnableClear w n v, .tbEnableSet w v, .tbEnableClear w v, .ppsOutEnable w v,
        .snap w v, .fcMhRearm w v, .fcForce w v, .mapEnable w v, .buntingEnable w v, .arm w n v, .cancel w n v,
        .dmaRestart w v, .dmaTimerWrite w n v, .dmaSwreq w b v, .dmaChannelEnable w n v, .dmaChannelDisable w n v,
        .claim w k v, .complete w k v, .thresholdWrite w k v, .maskSet w k v, .maskClr w k v, .pendSet w k v,
        .pendClr w k v, .pmClear w n v, .lgCntSnap w n v, .fnEnableSet n v, .fnEnableClear n v, .clrRejected n v],
      exec i s = .next t → t.dev.dataMem = s.dev.dataMem ∧ t.dev.media = s.dev.media ∧ t.dev.prot = s.dev.prot ∧
        t.dev.mgmt = s.dev.mgmt

/-- Frame of the events of time, faults, management, links and gates: host rings and memory, the data space, buffers,
protection and DMA are unchanged. A read of a monitor changes of the data space nothing but by the writes that it makes
visible (R53). -/
def Obligations.EventFrame : Prop :=
  ∀ (s t : State) (n k p c u : Nat) (b : Bool) (x : Sensors) (l : List Byte),
    (∀ i ∈ [Instr.heartbeat n, .heartbeatMissed, .mgmtCoreRestart, .challengeLapse, .clockMonitorTrip n b,
        .conditionReraise n, .railFault n, .faultEventTake, .flashLogWrite, .sensorRefresh x, .ppsSourceLoss n,
        .ptpSourceLoss n, .blockQuiesced n, .pmOverflow u k n, .smbStatusRead p,
        .smbFwWrite p n b l, .smbFwActivate p k, .delayReq n, .timePpsOutEdge],
      exec i s = .next t → t.dev.host = s.dev.host ∧ t.dev.hostMem = s.dev.hostMem ∧ t.dev.dataMem = s.dev.dataMem ∧
        t.dev.intc = s.dev.intc ∧ t.dev.dlv = s.dev.dlv ∧ t.dev.eth = s.dev.eth ∧ t.dev.par = s.dev.par ∧
        t.dev.qm = s.dev.qm ∧ t.dev.mem = s.dev.mem ∧ t.dev.prot = s.dev.prot ∧ t.dev.bun = s.dev.bun ∧
        t.dev.dma = s.dev.dma) ∧
    (∀ i ∈ [Instr.seamFilter n k, .budgetOut c n, .preemptionRequest n p, .gateEntryAdvance p, .gateListStart p,
        .pauseRefresh p],
      exec i s = .next t → t.dev.host = s.dev.host ∧ t.dev.hostMem = s.dev.hostMem ∧ t.dev.dataMem = s.dev.dataMem ∧
        t.dev.intc = s.dev.intc ∧ t.dev.fc = s.dev.fc ∧ t.dev.dlv = s.dev.dlv ∧ t.dev.mem = s.dev.mem ∧
        t.dev.prot = s.dev.prot ∧ t.dev.bun = s.dev.bun ∧ t.dev.dma = s.dev.dma ∧ t.dev.mgmt = s.dev.mgmt) ∧
    (exec (.pmCounterLoRead p u k) s = .next t → t.dev.hostMem = s.dev.hostMem ∧ t.dev.intc = s.dev.intc ∧
      t.dev.media = s.dev.media ∧ t.dev.dlv = s.dev.dlv ∧ t.dev.eth = s.dev.eth ∧ t.dev.par = s.dev.par ∧
      t.dev.qm = s.dev.qm ∧ t.dev.mem = s.dev.mem ∧ t.dev.prot = s.dev.prot ∧ t.dev.bun = s.dev.bun ∧
      t.dev.dma = s.dev.dma ∧ t.dev.mgmt = s.dev.mgmt ∧ t.dev.host.rings = s.dev.host.rings ∧
      t.dev.host.cqs = s.dev.host.cqs ∧ t.dev.host.ops = s.dev.host.ops ∧
      (65 ≤ p ∨ (s.dev.fn (p - 1)).posted = [] → t.dev.dataMem = s.dev.dataMem))

/-- Frame of the memory controllers' own events and of Bunting's operations. -/
def Obligations.MemoryEventFrame : Prop :=
  ∀ (s t : State) (k p n size owner h level : Nat) (b : Bool) (c : Int) (e : FrameErr),
    (∀ i ∈ [Instr.powerDownEntry k n, .selfRefreshEntry k b n, .freqChangeStart k, .pllRelock k n, .panicLong k p,
        .stackTempRead k c, .selfTest k n, .patrolScrub k e, .migrationCopy e b],
      exec i s = .next t → t.dev.host = s.dev.host ∧ t.dev.hostMem = s.dev.hostMem ∧ t.dev.dataMem = s.dev.dataMem ∧
        t.dev.intc = s.dev.intc ∧ t.dev.media = s.dev.media ∧ t.dev.dlv = s.dev.dlv ∧ t.dev.eth = s.dev.eth ∧
        t.dev.par = s.dev.par ∧ t.dev.qm = s.dev.qm ∧ t.dev.bun = s.dev.bun ∧ t.dev.dma = s.dev.dma ∧
        t.dev.mgmt = s.dev.mgmt ∧ t.dev.out = s.dev.out) ∧
    (∀ i ∈ [Instr.allocation size owner, .hold h owner, .release h owner, .free h owner level],
      exec i s = .next t → t.dev.tb = s.dev.tb ∧ t.dev.host = s.dev.host ∧ t.dev.hostMem = s.dev.hostMem ∧
        t.dev.dataMem = s.dev.dataMem ∧ t.dev.intc = s.dev.intc ∧ t.dev.media = s.dev.media ∧ t.dev.dlv = s.dev.dlv ∧
        t.dev.qm = s.dev.qm ∧ t.dev.mem = s.dev.mem ∧ t.dev.prot = s.dev.prot ∧ t.dev.dma = s.dev.dma ∧
        t.dev.mgmt = s.dev.mgmt)

/-- Frame of the Interrupt Hub's events and of ring polling. -/
def Obligations.InterruptAndRingFrame : Prop :=
  ∀ (s t : State) (n f r : Nat) (st : Stores),
    (∀ i ∈ [Instr.intSourceEvent n, .intLevelChange n, .intHoldRelease f],
      exec i s = .next t → t.dev.tb = s.dev.tb ∧ t.dev.dataMem = s.dev.dataMem ∧ t.dev.fc = s.dev.fc ∧
        t.dev.media = s.dev.media ∧ t.dev.dlv = s.dev.dlv ∧ t.dev.eth = s.dev.eth ∧ t.dev.mem = s.dev.mem ∧
        t.dev.prot = s.dev.prot ∧ t.dev.bun = s.dev.bun ∧ t.dev.dma = s.dev.dma ∧ t.dev.mgmt = s.dev.mgmt ∧
        t.dev.host.rings = s.dev.host.rings ∧ t.dev.host.ops = s.dev.host.ops) ∧
    (∀ i ∈ [Instr.ringPoll r st, .sleepRecheck r st],
      exec i s = .next t → t.dev.tb = s.dev.tb ∧ t.dev.dataMem = s.dev.dataMem ∧ t.dev.intc = s.dev.intc ∧
        t.dev.media = s.dev.media ∧ t.dev.dlv = s.dev.dlv ∧ t.dev.eth = s.dev.eth ∧ t.dev.par = s.dev.par ∧
        t.dev.qm = s.dev.qm ∧ t.dev.mem = s.dev.mem ∧ t.dev.prot = s.dev.prot ∧ t.dev.bun = s.dev.bun ∧
        t.dev.dma = s.dev.dma ∧ t.dev.mgmt = s.dev.mgmt)

/-- Frame of the media and delivery commands: the time, the data space, ports, memory, protection and DMA are
unchanged. -/
def Obligations.MediaAndDeliveryFrame : Prop :=
  ∀ (s t : State) (o : RingOp) (ok : Bool) (r : RecIn) (tile pair err : Nat),
    (∀ i ∈ [Instr.pad r, .picStart r, .rowStart r, .ctb r, .cu r, .intra r, .inter r, .residual r, .rowEnd r, .picEnd r,
        .avcMb r, .avcSubmb r, .predWeight r, .sao r, .hevcCuExt r, .av1Cdef r, .av1Lr r, .av1Compound r, .av1Motion r,
        .av1Palette r, .av1Delta r, .vvcAlf r, .vvcAffine r, .vvcGpm r, .vvcInterExt r, .microword tile pair err],
      exec i s = .next t → t.dev.tb = s.dev.tb ∧ t.dev.dataMem = s.dev.dataMem ∧ t.dev.eth = s.dev.eth ∧
        t.dev.mem = s.dev.mem ∧ t.dev.prot = s.dev.prot ∧ t.dev.dma = s.dev.dma) ∧
    (∀ i ∈ [Instr.createGroup o, .destroyGroup o, .keyNow o, .getAu o, .setRateControl o, .bitstream o],
      exec i s = .next t → t.dev.tb = s.dev.tb ∧ t.dev.dataMem = s.dev.dataMem ∧ t.dev.fc = s.dev.fc ∧
        t.dev.dlv = s.dev.dlv ∧ t.dev.eth = s.dev.eth ∧ t.dev.mem = s.dev.mem ∧ t.dev.prot = s.dev.prot ∧
        t.dev.bun = s.dev.bun ∧ t.dev.dma = s.dev.dma ∧ t.dev.mgmt = s.dev.mgmt) ∧
    (∀ i ∈ [Instr.send o ok, .resend o ok, .setRate o ok, .rekey o ok],
      exec i s = .next t → t.dev.tb = s.dev.tb ∧ t.dev.dataMem = s.dev.dataMem ∧ t.dev.media = s.dev.media ∧
        t.dev.eth = s.dev.eth ∧ t.dev.mem = s.dev.mem ∧ t.dev.prot = s.dev.prot ∧ t.dev.dma = s.dev.dma ∧
        t.dev.mgmt = s.dev.mgmt) ∧
    (∀ i ∈ [Instr.openFlow o, .streamCreate o, .streamKey o, .segNext o],
      exec i s = .next t → t.dev.tb = s.dev.tb ∧ t.dev.dataMem = s.dev.dataMem ∧ t.dev.fc = s.dev.fc ∧
        t.dev.media = s.dev.media ∧ t.dev.eth = s.dev.eth ∧ t.dev.mem = s.dev.mem ∧ t.dev.prot = s.dev.prot ∧
        t.dev.bun = s.dev.bun ∧ t.dev.dma = s.dev.dma ∧ t.dev.mgmt = s.dev.mgmt)

/-! ### The statements over the parts -/

/-- Time Base: TB_CTRL writes, SNAP, PPS and the loss of sources. -/
def Obligations.TimeBaseCommands : Prop :=
  Claims.TimeBaseRegisterCommands ∧ Claims.TimeBaseEvents

/-- Time Base: PTP messages, DT_STEP and SET_TOD. -/
def Obligations.PtpAndTimeSetting : Prop :=
  Claims.PtpMessages ∧ Claims.TimeBaseAdmin

/-- PCIe configuration requests and link training. -/
def Obligations.ConfigurationAndLink : Prop :=
  Claims.ConfigurationAndLink

/-- Function-level resets. -/
def Obligations.FunctionResets : Prop :=
  Claims.FunctionResets

/-- BAR2 accesses and control page writes. -/
def Obligations.WindowsAndControlPages : Prop :=
  Claims.Bar2Accesses ∧ Claims.ControlPage

/-- Ring polling, sleep and wake. -/
def Obligations.RingRecords : Prop :=
  Claims.RingRecords ∧ Claims.RingPolls

/-- NOP: its completion record stands in the queue's next slot. -/
def Obligations.NopCompletion : Prop :=
  Claims.NopCompletion

/-- NEGOTIATE and the creation and destruction of rings and queues. -/
def Obligations.RingLifetimes : Prop :=
  Claims.NegotiateAndCreate ∧ Claims.DestroyRingsAndQueues

/-- SET_PROTECTION, EPOCH_DRAIN and FLUSH. -/
def Obligations.ProtectionAndDrains : Prop :=
  Claims.ProtectionAndDrains

/-- Register writes, refusals, block enables and commits. -/
def Obligations.RegisterBehaviour : Prop :=
  Claims.RegisterWrites ∧ Claims.BlockEnables ∧ Claims.LiveCommits

/-- Sequence-checked clears and alias writes. -/
def Obligations.ClearsAndAliases : Prop :=
  Claims.SequenceClears ∧ Claims.AliasWrites

/-- What each reset leaves and records. -/
def Obligations.ResetEntry : Prop :=
  Claims.ResetEntry

/-- Leaving reset and becoming ready. -/
def Obligations.StartUp : Prop :=
  Claims.ResetRelease ∧ Claims.DeviceReady

/-- Contexts: creation, rate control, draining. -/
def Obligations.ContextLifetimes : Prop :=
  Claims.ContextCreation ∧ Claims.ContextEnd ∧ Claims.RateControl

/-- Groups, source pictures and production. -/
def Obligations.GroupsAndSources : Prop :=
  Claims.GroupCommands ∧ Claims.SourcePictures ∧ Claims.ProduceCommand

/-- BITSTREAM and GET_AU. -/
def Obligations.StreamsInAndOut : Prop :=
  Claims.BitstreamInput ∧ Claims.AccessUnitOutput

/-- Picture analysis and rung scaling. -/
def Obligations.AnalysisAndScaling : Prop :=
  Claims.PictureAnalysis ∧ Claims.RungScale

/-- Dispatch, rows, handover and clock points. -/
def Obligations.PicturesInProgress : Prop :=
  Claims.PictureDispatch ∧ Claims.RowCompletion ∧ Claims.PairHandover ∧ Claims.ClockPoint

/-- Seam filtering and picture completion. -/
def Obligations.PictureCompletion : Prop :=
  Claims.PictureCompletion

/-- Coupling Buffer records in encode and decode. -/
def Obligations.CouplingRecords : Prop :=
  Claims.RecordsPublished ∧ Claims.RecordsConsumed

/-- Microwords, restarts and limits of routines. -/
def Obligations.SyntaxRoutines : Prop :=
  Claims.Microwords ∧ Claims.RoutineRestarts ∧ Claims.DecodeLimits

/-- Loading and taking a patch. -/
def Obligations.Patches : Prop :=
  Claims.Patches

/-- Streams, keys and audio samples. -/
def Obligations.StreamsAndAudio : Prop :=
  Claims.StreamCommands ∧ Claims.AudioSamples

/-- Segments and packaging. -/
def Obligations.Segments : Prop :=
  Claims.SegmentCommands ∧ Claims.Packaging

/-- Flows: opening, operations, ends. -/
def Obligations.Flows : Prop :=
  Claims.FlowOpening ∧ Claims.FlowOperations ∧ Claims.FlowEnds

/-- Reception of frames. -/
def Obligations.FrameReception : Prop :=
  Claims.FrameReception

/-- PAUSE and PFC. -/
def Obligations.FlowControl : Prop :=
  Claims.FlowControl

/-- Links, auto-negotiation, training and counters. -/
def Obligations.LinkCommands : Prop :=
  Claims.LinkCommands

/-- Rule sets, recirculation, fragments and skew. -/
def Obligations.RulesAndTimers : Prop :=
  Claims.RuleSets ∧ Claims.ParserTimers

/-- Host frames and releases of the Hoist. -/
def Obligations.HostFramesAndReleases : Prop :=
  Claims.HostFrames ∧ Claims.HoistReleases

/-- Egress and gate lists. -/
def Obligations.EgressAndGates : Prop :=
  Claims.PortEgress ∧ Claims.GateLists

/-- Memory requests, refresh, urgency, low power and frequency changes. -/
def Obligations.MemoryControllers : Prop :=
  Claims.MemoryRequests ∧ Claims.Refreshes ∧ Claims.Urgency ∧ Claims.LowPower ∧ Claims.FrequencyChanges

/-- Mapping, tests, scrubbing, migration and retirement. -/
def Obligations.MemoryProtection : Prop :=
  Claims.MapAndScrub ∧ Claims.Retirement

/-- Bunting: allocation, holds, frees and queries. -/
def Obligations.Buffers : Prop :=
  Claims.Buffers

/-- DMA: fetching, requests and channel set-up. -/
def Obligations.DmaChannels : Prop :=
  Claims.DmaFetching ∧ Claims.DmaRequests

/-- DMA: bursts, responses, stop and restart. -/
def Obligations.DmaBursts : Prop :=
  Claims.DmaBursts

/-- Interrupt sources, target pages and messages. -/
def Obligations.Interrupts : Prop :=
  Claims.IntSources ∧ Claims.IntPages ∧ Claims.IntMessages

/-- COMPLETE pops the entry whose source is written; any other write is reported. -/
def Obligations.CompleteWrites : Prop :=
  Claims.CompleteWrites

/-- Fault sources, the event queue and the logs. -/
def Obligations.FaultSourcesAndLogs : Prop :=
  Claims.FaultSources ∧ Claims.Logs

/-- FC_FORCE raises its source with FORCED and reaches nothing else. -/
def Obligations.ForcedFaults : Prop :=
  Claims.ForcedFaults

/-- The Masthead is re-armed by the current count alone. -/
def Obligations.MastheadRearm : Prop :=
  Claims.MastheadRearm

/-- RESET completes with OK and a warm reset follows 10 ms later. -/
def Obligations.ResetCommand : Prop :=
  Claims.ResetCommand

/-- Heartbeat, core restart, sensors and watchdogs. -/
def Obligations.CoresAndWatchdogs : Prop :=
  Claims.CoresAndSensors ∧ Claims.Watchdogs

/-- Credential, keys, firmware, attestation and SMBus. -/
def Obligations.CredentialsAndFirmware : Prop :=
  Claims.CredentialAndKeys ∧ Claims.FirmwareAndAttestation

/-- Standing orders: storing, control and egress. -/
def Obligations.StandingOrders : Prop :=
  Claims.StandingOrders

/-- Performance monitors, the scan chain and lost completions. -/
def Obligations.MonitorsAndScan : Prop :=
  Claims.Monitors ∧ Claims.ScanAndTimeouts

end
end

