-- ==== Sys2Proof/Laws/SMap.lean ====
section
/-! SUPPORT. Laws of the sparse maps: reads after writes, which hold in every map, and that every operation keeps the
canonical form. -/

namespace Sys2Proof.SMap

variable {α : Type}

/-! ### Reads after writes -/

@[simp] theorem get_nil (d : Nat → α) (k : Nat) : get d [] k = d k := rfl

@[simp] theorem find_nil (k : Nat) : find ([] : SMap α) k = none := rfl

@[simp] theorem get_insert_self (d : Nat → α) (k : Nat) (v : α) : ∀ m : SMap α, get d (insert m k v) k = v
  | [] => by simp [insert, get]
  | (j, w) :: r => by
    unfold insert
    split
    · simp [get]
    · split
      · simp [get]
      · rename_i h1 _; simp [get, h1, get_insert_self d k v r]

theorem get_insert_ne (d : Nat → α) {k j : Nat} (v : α) (hne : k ≠ j) :
    ∀ m : SMap α, get d (insert m k v) j = get d m j
  | [] => by simp [insert, get, hne]
  | (i, w) :: r => by
    unfold insert
    split
    · rename_i h; subst h; simp [get, hne]
    · split
      · simp [get, hne]
      · simp [get, get_insert_ne d v hne r]

@[simp] theorem get_erase_self (d : Nat → α) (k : Nat) : ∀ m : SMap α, get d (erase m k) k = d k
  | [] => rfl
  | (j, w) :: r => by
    unfold erase
    split
    · exact get_erase_self d k r
    · rename_i h; simp [get, h, get_erase_self d k r]

theorem get_erase_ne (d : Nat → α) {k j : Nat} (hne : k ≠ j) : ∀ m : SMap α, get d (erase m k) j = get d m j
  | [] => rfl
  | (i, w) :: r => by
    unfold erase
    split
    · rename_i h; subst h; simp [get, hne, get_erase_ne d hne r]
    · simp [get, get_erase_ne d hne r]

/-- A read after a write to the same key gives the value written. -/
@[simp] theorem get_set_self [DecidableEq α] (d : Nat → α) (m : SMap α) (k : Nat) (v : α) :
    get d (set d m k v) k = v := by
  unfold set
  split
  · rename_i h; rw [get_erase_self d k, h]
  · exact get_insert_self d k v m

/-- A write leaves every other key alone. -/
theorem get_set_ne [DecidableEq α] (d : Nat → α) (m : SMap α) {k j : Nat} (hne : k ≠ j) (v : α) :
    get d (set d m k v) j = get d m j := by
  unfold set
  split
  · exact get_erase_ne d hne m
  · exact get_insert_ne d v hne m

/-- A read after a write to any key. -/
theorem get_set [DecidableEq α] (d : Nat → α) (m : SMap α) (k j : Nat) (v : α) :
    get d (set d m k v) j = if k = j then v else get d m j := by
  split
  · rename_i h; subst h; simp
  · rename_i h; exact get_set_ne d m h v

@[simp] theorem get_upd_self [DecidableEq α] (d : Nat → α) (m : SMap α) (k : Nat) (f : α → α) :
    get d (upd d m k f) k = f (get d m k) := get_set_self d m k _

theorem get_upd_ne [DecidableEq α] (d : Nat → α) (m : SMap α) {k j : Nat} (hne : k ≠ j) (f : α → α) :
    get d (upd d m k f) j = get d m j := get_set_ne d m hne _

@[simp] theorem find_insert_self (k : Nat) (v : α) : ∀ m : SMap α, find (insert m k v) k = some v
  | [] => by simp [insert, find]
  | (j, w) :: r => by
    unfold insert
    split
    · simp [find]
    · split
      · simp [find]
      · rename_i h1 _; simp [find, h1, find_insert_self k v r]

theorem find_insert_ne {k j : Nat} (v : α) (hne : k ≠ j) : ∀ m : SMap α, find (insert m k v) j = find m j
  | [] => by simp [insert, find, hne]
  | (i, w) :: r => by
    unfold insert
    split
    · rename_i h; subst h; simp [find, hne]
    · split
      · simp [find, hne]
      · simp [find, find_insert_ne v hne r]

@[simp] theorem find_erase_self (k : Nat) : ∀ m : SMap α, find (erase m k) k = none
  | [] => rfl
  | (j, w) :: r => by
    unfold erase
    split
    · exact find_erase_self k r
    · rename_i h; simp [find, h, find_erase_self k r]

theorem find_erase_ne {k j : Nat} (hne : k ≠ j) : ∀ m : SMap α, find (erase m k) j = find m j
  | [] => rfl
  | (i, w) :: r => by
    unfold erase
    split
    · rename_i h; subst h; simp [find, hne, find_erase_ne hne r]
    · simp [find, find_erase_ne hne r]

theorem find_insert (m : SMap α) (k j : Nat) (v : α) : find (insert m k v) j = if k = j then some v else find m j := by
  split
  · rename_i h; subst h; simp
  · rename_i h; exact find_insert_ne v h m

/-! ### The canonical form -/

theorem rising_le {lo hi : Nat} (h : lo ≤ hi) : ∀ {m : SMap α}, rising hi m = true → rising lo m = true
  | [], _ => rfl
  | (j, v) :: r, hm => by
    simp only [rising, Bool.and_eq_true, decide_eq_true_eq] at hm ⊢
    exact ⟨by omega, hm.2⟩

theorem rising_insert {lo k : Nat} (v : α) (hk : lo ≤ k) :
    ∀ {m : SMap α}, rising lo m = true → rising lo (insert m k v) = true
  | [], _ => by simp [insert, rising, hk]
  | (j, w) :: r, hm => by
    simp only [rising, Bool.and_eq_true, decide_eq_true_eq] at hm
    unfold insert
    split
    · rename_i h; subst h; simp [rising, hm.1, hm.2]
    · split
      · simp only [rising, Bool.and_eq_true, decide_eq_true_eq]
        exact ⟨hk, by omega, hm.2⟩
      · simp only [rising, Bool.and_eq_true, decide_eq_true_eq]
        exact ⟨hm.1, rising_insert v (by omega) hm.2⟩

theorem rising_erase {k : Nat} : ∀ {lo : Nat} {m : SMap α}, rising lo m = true → rising lo (erase m k) = true
  | _, [], _ => rfl
  | lo, (j, w) :: r, hm => by
    simp only [rising, Bool.and_eq_true, decide_eq_true_eq] at hm
    unfold erase
    split
    · exact rising_erase (rising_le (by omega) hm.2)
    · simp only [rising, Bool.and_eq_true, decide_eq_true_eq]
      exact ⟨hm.1, rising_erase hm.2⟩

theorem mem_insert {k : Nat} {v : α} {e : Nat × α} : ∀ {m : SMap α}, e ∈ insert m k v → e = (k, v) ∨ e ∈ m
  | [], h => by simpa [insert] using h
  | (j, w) :: r, h => by
    unfold insert at h
    split at h
    · rcases List.mem_cons.1 h with h | h
      · exact .inl h
      · exact .inr (List.mem_cons_of_mem _ h)
    · split at h
      · rcases List.mem_cons.1 h with h | h
        · exact .inl h
        · exact .inr h
      · rcases List.mem_cons.1 h with h | h
        · exact .inr (by rw [h]; exact List.mem_cons_self ..)
        · rcases mem_insert h with h | h
          · exact .inl h
          · exact .inr (List.mem_cons_of_mem _ h)

theorem mem_erase {k : Nat} {e : Nat × α} : ∀ {m : SMap α}, e ∈ erase m k → e ∈ m
  | [], h => by simp [erase] at h
  | (j, w) :: r, h => by
    unfold erase at h
    split at h
    · exact List.mem_cons_of_mem _ (mem_erase h)
    · rcases List.mem_cons.1 h with h | h
      · rw [h]; exact List.mem_cons_self ..
      · exact List.mem_cons_of_mem _ (mem_erase h)

/-- A write keeps the canonical form. -/
theorem wf_set [DecidableEq α] (d : Nat → α) {m : SMap α} (hm : wf d m = true) (k : Nat) (v : α) :
    wf d (set d m k v) = true := by
  simp only [wf, Bool.and_eq_true, List.all_eq_true, decide_eq_true_eq] at hm ⊢
  unfold set
  split
  · exact ⟨rising_erase hm.1, fun e he => hm.2 e (mem_erase he)⟩
  · rename_i hv
    refine ⟨rising_insert v (Nat.zero_le _) hm.1, fun e he => ?_⟩
    rcases mem_insert he with h | h
    · rw [h]; exact hv
    · exact hm.2 e h

/-- An update keeps the canonical form. -/
theorem wf_upd [DecidableEq α] (d : Nat → α) {m : SMap α} (hm : wf d m = true) (k : Nat) (f : α → α) :
    wf d (upd d m k f) = true := wf_set d hm k _

end Sys2Proof.SMap
end

