-- ==== Sys2Proof/Laws/State.lean ====
section
/-! SUPPORT. What each primitive update of the device leaves alone, one lemma per field, and what a register reads as
after a write. A projection of an updated device is never closed by rfl where the new value is a term: the kernel would
first compare the two devices field by field. -/

namespace Sys2Proof.Machine

/-! ### One field replaced -/

theorem Dev.withRegs_staged (d : Dev) (x : SMap W32) : ({ d with regs := x } : Dev).staged = d.staged := rfl
theorem Dev.withRegs_applied (d : Dev) (x : SMap W32) : ({ d with regs := x } : Dev).applied = d.applied := rfl
theorem Dev.withRegs_tb (d : Dev) (x : SMap W32) : ({ d with regs := x } : Dev).tb = d.tb := rfl
theorem Dev.withRegs_host (d : Dev) (x : SMap W32) : ({ d with regs := x } : Dev).host = d.host := rfl
theorem Dev.withRegs_hostMem (d : Dev) (x : SMap W32) : ({ d with regs := x } : Dev).hostMem = d.hostMem := rfl
theorem Dev.withRegs_dataMem (d : Dev) (x : SMap W32) : ({ d with regs := x } : Dev).dataMem = d.dataMem := rfl
theorem Dev.withRegs_intc (d : Dev) (x : SMap W32) : ({ d with regs := x } : Dev).intc = d.intc := rfl
theorem Dev.withRegs_fc (d : Dev) (x : SMap W32) : ({ d with regs := x } : Dev).fc = d.fc := rfl
theorem Dev.withRegs_media (d : Dev) (x : SMap W32) : ({ d with regs := x } : Dev).media = d.media := rfl
theorem Dev.withRegs_dlv (d : Dev) (x : SMap W32) : ({ d with regs := x } : Dev).dlv = d.dlv := rfl
theorem Dev.withRegs_eth (d : Dev) (x : SMap W32) : ({ d with regs := x } : Dev).eth = d.eth := rfl
theorem Dev.withRegs_par (d : Dev) (x : SMap W32) : ({ d with regs := x } : Dev).par = d.par := rfl
theorem Dev.withRegs_qm (d : Dev) (x : SMap W32) : ({ d with regs := x } : Dev).qm = d.qm := rfl
theorem Dev.withRegs_mem (d : Dev) (x : SMap W32) : ({ d with regs := x } : Dev).mem = d.mem := rfl
theorem Dev.withRegs_prot (d : Dev) (x : SMap W32) : ({ d with regs := x } : Dev).prot = d.prot := rfl
theorem Dev.withRegs_bun (d : Dev) (x : SMap W32) : ({ d with regs := x } : Dev).bun = d.bun := rfl
theorem Dev.withRegs_dma (d : Dev) (x : SMap W32) : ({ d with regs := x } : Dev).dma = d.dma := rfl
theorem Dev.withRegs_mgmt (d : Dev) (x : SMap W32) : ({ d with regs := x } : Dev).mgmt = d.mgmt := rfl
theorem Dev.withRegs_pm (d : Dev) (x : SMap W32) : ({ d with regs := x } : Dev).pm = d.pm := rfl
theorem Dev.withRegs_pins (d : Dev) (x : SMap W32) : ({ d with regs := x } : Dev).pins = d.pins := rfl
theorem Dev.withRegs_freeCtr (d : Dev) (x : SMap W32) : ({ d with regs := x } : Dev).freeCtr = d.freeCtr := rfl
theorem Dev.withRegs_out (d : Dev) (x : SMap W32) : ({ d with regs := x } : Dev).out = d.out := rfl

theorem Dev.withHostMem_regs (d : Dev) (x : SMap Byte) : ({ d with hostMem := x } : Dev).regs = d.regs := rfl
theorem Dev.withHostMem_staged (d : Dev) (x : SMap Byte) : ({ d with hostMem := x } : Dev).staged = d.staged := rfl
theorem Dev.withHostMem_applied (d : Dev) (x : SMap Byte) : ({ d with hostMem := x } : Dev).applied = d.applied := rfl
theorem Dev.withHostMem_tb (d : Dev) (x : SMap Byte) : ({ d with hostMem := x } : Dev).tb = d.tb := rfl
theorem Dev.withHostMem_host (d : Dev) (x : SMap Byte) : ({ d with hostMem := x } : Dev).host = d.host := rfl
theorem Dev.withHostMem_dataMem (d : Dev) (x : SMap Byte) : ({ d with hostMem := x } : Dev).dataMem = d.dataMem := rfl
theorem Dev.withHostMem_intc (d : Dev) (x : SMap Byte) : ({ d with hostMem := x } : Dev).intc = d.intc := rfl
theorem Dev.withHostMem_fc (d : Dev) (x : SMap Byte) : ({ d with hostMem := x } : Dev).fc = d.fc := rfl
theorem Dev.withHostMem_media (d : Dev) (x : SMap Byte) : ({ d with hostMem := x } : Dev).media = d.media := rfl
theorem Dev.withHostMem_dlv (d : Dev) (x : SMap Byte) : ({ d with hostMem := x } : Dev).dlv = d.dlv := rfl
theorem Dev.withHostMem_eth (d : Dev) (x : SMap Byte) : ({ d with hostMem := x } : Dev).eth = d.eth := rfl
theorem Dev.withHostMem_par (d : Dev) (x : SMap Byte) : ({ d with hostMem := x } : Dev).par = d.par := rfl
theorem Dev.withHostMem_qm (d : Dev) (x : SMap Byte) : ({ d with hostMem := x } : Dev).qm = d.qm := rfl
theorem Dev.withHostMem_mem (d : Dev) (x : SMap Byte) : ({ d with hostMem := x } : Dev).mem = d.mem := rfl
theorem Dev.withHostMem_prot (d : Dev) (x : SMap Byte) : ({ d with hostMem := x } : Dev).prot = d.prot := rfl
theorem Dev.withHostMem_bun (d : Dev) (x : SMap Byte) : ({ d with hostMem := x } : Dev).bun = d.bun := rfl
theorem Dev.withHostMem_dma (d : Dev) (x : SMap Byte) : ({ d with hostMem := x } : Dev).dma = d.dma := rfl
theorem Dev.withHostMem_mgmt (d : Dev) (x : SMap Byte) : ({ d with hostMem := x } : Dev).mgmt = d.mgmt := rfl
theorem Dev.withHostMem_pm (d : Dev) (x : SMap Byte) : ({ d with hostMem := x } : Dev).pm = d.pm := rfl
theorem Dev.withHostMem_pins (d : Dev) (x : SMap Byte) : ({ d with hostMem := x } : Dev).pins = d.pins := rfl
theorem Dev.withHostMem_freeCtr (d : Dev) (x : SMap Byte) : ({ d with hostMem := x } : Dev).freeCtr = d.freeCtr := rfl
theorem Dev.withHostMem_out (d : Dev) (x : SMap Byte) : ({ d with hostMem := x } : Dev).out = d.out := rfl

theorem Dev.withDataMem_regs (d : Dev) (x : SMap Byte) : ({ d with dataMem := x } : Dev).regs = d.regs := rfl
theorem Dev.withDataMem_staged (d : Dev) (x : SMap Byte) : ({ d with dataMem := x } : Dev).staged = d.staged := rfl
theorem Dev.withDataMem_applied (d : Dev) (x : SMap Byte) : ({ d with dataMem := x } : Dev).applied = d.applied := rfl
theorem Dev.withDataMem_tb (d : Dev) (x : SMap Byte) : ({ d with dataMem := x } : Dev).tb = d.tb := rfl
theorem Dev.withDataMem_host (d : Dev) (x : SMap Byte) : ({ d with dataMem := x } : Dev).host = d.host := rfl
theorem Dev.withDataMem_hostMem (d : Dev) (x : SMap Byte) : ({ d with dataMem := x } : Dev).hostMem = d.hostMem := rfl
theorem Dev.withDataMem_intc (d : Dev) (x : SMap Byte) : ({ d with dataMem := x } : Dev).intc = d.intc := rfl
theorem Dev.withDataMem_fc (d : Dev) (x : SMap Byte) : ({ d with dataMem := x } : Dev).fc = d.fc := rfl
theorem Dev.withDataMem_media (d : Dev) (x : SMap Byte) : ({ d with dataMem := x } : Dev).media = d.media := rfl
theorem Dev.withDataMem_dlv (d : Dev) (x : SMap Byte) : ({ d with dataMem := x } : Dev).dlv = d.dlv := rfl
theorem Dev.withDataMem_eth (d : Dev) (x : SMap Byte) : ({ d with dataMem := x } : Dev).eth = d.eth := rfl
theorem Dev.withDataMem_par (d : Dev) (x : SMap Byte) : ({ d with dataMem := x } : Dev).par = d.par := rfl
theorem Dev.withDataMem_qm (d : Dev) (x : SMap Byte) : ({ d with dataMem := x } : Dev).qm = d.qm := rfl
theorem Dev.withDataMem_mem (d : Dev) (x : SMap Byte) : ({ d with dataMem := x } : Dev).mem = d.mem := rfl
theorem Dev.withDataMem_prot (d : Dev) (x : SMap Byte) : ({ d with dataMem := x } : Dev).prot = d.prot := rfl
theorem Dev.withDataMem_bun (d : Dev) (x : SMap Byte) : ({ d with dataMem := x } : Dev).bun = d.bun := rfl
theorem Dev.withDataMem_dma (d : Dev) (x : SMap Byte) : ({ d with dataMem := x } : Dev).dma = d.dma := rfl
theorem Dev.withDataMem_mgmt (d : Dev) (x : SMap Byte) : ({ d with dataMem := x } : Dev).mgmt = d.mgmt := rfl
theorem Dev.withDataMem_pm (d : Dev) (x : SMap Byte) : ({ d with dataMem := x } : Dev).pm = d.pm := rfl
theorem Dev.withDataMem_pins (d : Dev) (x : SMap Byte) : ({ d with dataMem := x } : Dev).pins = d.pins := rfl
theorem Dev.withDataMem_freeCtr (d : Dev) (x : SMap Byte) : ({ d with dataMem := x } : Dev).freeCtr = d.freeCtr := rfl
theorem Dev.withDataMem_out (d : Dev) (x : SMap Byte) : ({ d with dataMem := x } : Dev).out = d.out := rfl

theorem Dev.withHost_regs (d : Dev) (x : HostIf) : ({ d with host := x } : Dev).regs = d.regs := rfl
theorem Dev.withHost_staged (d : Dev) (x : HostIf) : ({ d with host := x } : Dev).staged = d.staged := rfl
theorem Dev.withHost_applied (d : Dev) (x : HostIf) : ({ d with host := x } : Dev).applied = d.applied := rfl
theorem Dev.withHost_tb (d : Dev) (x : HostIf) : ({ d with host := x } : Dev).tb = d.tb := rfl
theorem Dev.withHost_hostMem (d : Dev) (x : HostIf) : ({ d with host := x } : Dev).hostMem = d.hostMem := rfl
theorem Dev.withHost_dataMem (d : Dev) (x : HostIf) : ({ d with host := x } : Dev).dataMem = d.dataMem := rfl
theorem Dev.withHost_intc (d : Dev) (x : HostIf) : ({ d with host := x } : Dev).intc = d.intc := rfl
theorem Dev.withHost_fc (d : Dev) (x : HostIf) : ({ d with host := x } : Dev).fc = d.fc := rfl
theorem Dev.withHost_media (d : Dev) (x : HostIf) : ({ d with host := x } : Dev).media = d.media := rfl
theorem Dev.withHost_dlv (d : Dev) (x : HostIf) : ({ d with host := x } : Dev).dlv = d.dlv := rfl
theorem Dev.withHost_eth (d : Dev) (x : HostIf) : ({ d with host := x } : Dev).eth = d.eth := rfl
theorem Dev.withHost_par (d : Dev) (x : HostIf) : ({ d with host := x } : Dev).par = d.par := rfl
theorem Dev.withHost_qm (d : Dev) (x : HostIf) : ({ d with host := x } : Dev).qm = d.qm := rfl
theorem Dev.withHost_mem (d : Dev) (x : HostIf) : ({ d with host := x } : Dev).mem = d.mem := rfl
theorem Dev.withHost_prot (d : Dev) (x : HostIf) : ({ d with host := x } : Dev).prot = d.prot := rfl
theorem Dev.withHost_bun (d : Dev) (x : HostIf) : ({ d with host := x } : Dev).bun = d.bun := rfl
theorem Dev.withHost_dma (d : Dev) (x : HostIf) : ({ d with host := x } : Dev).dma = d.dma := rfl
theorem Dev.withHost_mgmt (d : Dev) (x : HostIf) : ({ d with host := x } : Dev).mgmt = d.mgmt := rfl
theorem Dev.withHost_pm (d : Dev) (x : HostIf) : ({ d with host := x } : Dev).pm = d.pm := rfl
theorem Dev.withHost_pins (d : Dev) (x : HostIf) : ({ d with host := x } : Dev).pins = d.pins := rfl
theorem Dev.withHost_freeCtr (d : Dev) (x : HostIf) : ({ d with host := x } : Dev).freeCtr = d.freeCtr := rfl
theorem Dev.withHost_out (d : Dev) (x : HostIf) : ({ d with host := x } : Dev).out = d.out := rfl

theorem Dev.withIntc_regs (d : Dev) (x : IntcState) : ({ d with intc := x } : Dev).regs = d.regs := rfl
theorem Dev.withIntc_staged (d : Dev) (x : IntcState) : ({ d with intc := x } : Dev).staged = d.staged := rfl
theorem Dev.withIntc_applied (d : Dev) (x : IntcState) : ({ d with intc := x } : Dev).applied = d.applied := rfl
theorem Dev.withIntc_tb (d : Dev) (x : IntcState) : ({ d with intc := x } : Dev).tb = d.tb := rfl
theorem Dev.withIntc_host (d : Dev) (x : IntcState) : ({ d with intc := x } : Dev).host = d.host := rfl
theorem Dev.withIntc_hostMem (d : Dev) (x : IntcState) : ({ d with intc := x } : Dev).hostMem = d.hostMem := rfl
theorem Dev.withIntc_dataMem (d : Dev) (x : IntcState) : ({ d with intc := x } : Dev).dataMem = d.dataMem := rfl
theorem Dev.withIntc_fc (d : Dev) (x : IntcState) : ({ d with intc := x } : Dev).fc = d.fc := rfl
theorem Dev.withIntc_media (d : Dev) (x : IntcState) : ({ d with intc := x } : Dev).media = d.media := rfl
theorem Dev.withIntc_dlv (d : Dev) (x : IntcState) : ({ d with intc := x } : Dev).dlv = d.dlv := rfl
theorem Dev.withIntc_eth (d : Dev) (x : IntcState) : ({ d with intc := x } : Dev).eth = d.eth := rfl
theorem Dev.withIntc_par (d : Dev) (x : IntcState) : ({ d with intc := x } : Dev).par = d.par := rfl
theorem Dev.withIntc_qm (d : Dev) (x : IntcState) : ({ d with intc := x } : Dev).qm = d.qm := rfl
theorem Dev.withIntc_mem (d : Dev) (x : IntcState) : ({ d with intc := x } : Dev).mem = d.mem := rfl
theorem Dev.withIntc_prot (d : Dev) (x : IntcState) : ({ d with intc := x } : Dev).prot = d.prot := rfl
theorem Dev.withIntc_bun (d : Dev) (x : IntcState) : ({ d with intc := x } : Dev).bun = d.bun := rfl
theorem Dev.withIntc_dma (d : Dev) (x : IntcState) : ({ d with intc := x } : Dev).dma = d.dma := rfl
theorem Dev.withIntc_mgmt (d : Dev) (x : IntcState) : ({ d with intc := x } : Dev).mgmt = d.mgmt := rfl
theorem Dev.withIntc_pm (d : Dev) (x : IntcState) : ({ d with intc := x } : Dev).pm = d.pm := rfl
theorem Dev.withIntc_pins (d : Dev) (x : IntcState) : ({ d with intc := x } : Dev).pins = d.pins := rfl
theorem Dev.withIntc_freeCtr (d : Dev) (x : IntcState) : ({ d with intc := x } : Dev).freeCtr = d.freeCtr := rfl
theorem Dev.withIntc_out (d : Dev) (x : IntcState) : ({ d with intc := x } : Dev).out = d.out := rfl

theorem Dev.withFc_regs (d : Dev) (x : FcState) : ({ d with fc := x } : Dev).regs = d.regs := rfl
theorem Dev.withFc_staged (d : Dev) (x : FcState) : ({ d with fc := x } : Dev).staged = d.staged := rfl
theorem Dev.withFc_applied (d : Dev) (x : FcState) : ({ d with fc := x } : Dev).applied = d.applied := rfl
theorem Dev.withFc_tb (d : Dev) (x : FcState) : ({ d with fc := x } : Dev).tb = d.tb := rfl
theorem Dev.withFc_host (d : Dev) (x : FcState) : ({ d with fc := x } : Dev).host = d.host := rfl
theorem Dev.withFc_hostMem (d : Dev) (x : FcState) : ({ d with fc := x } : Dev).hostMem = d.hostMem := rfl
theorem Dev.withFc_dataMem (d : Dev) (x : FcState) : ({ d with fc := x } : Dev).dataMem = d.dataMem := rfl
theorem Dev.withFc_intc (d : Dev) (x : FcState) : ({ d with fc := x } : Dev).intc = d.intc := rfl
theorem Dev.withFc_media (d : Dev) (x : FcState) : ({ d with fc := x } : Dev).media = d.media := rfl
theorem Dev.withFc_dlv (d : Dev) (x : FcState) : ({ d with fc := x } : Dev).dlv = d.dlv := rfl
theorem Dev.withFc_eth (d : Dev) (x : FcState) : ({ d with fc := x } : Dev).eth = d.eth := rfl
theorem Dev.withFc_par (d : Dev) (x : FcState) : ({ d with fc := x } : Dev).par = d.par := rfl
theorem Dev.withFc_qm (d : Dev) (x : FcState) : ({ d with fc := x } : Dev).qm = d.qm := rfl
theorem Dev.withFc_mem (d : Dev) (x : FcState) : ({ d with fc := x } : Dev).mem = d.mem := rfl
theorem Dev.withFc_prot (d : Dev) (x : FcState) : ({ d with fc := x } : Dev).prot = d.prot := rfl
theorem Dev.withFc_bun (d : Dev) (x : FcState) : ({ d with fc := x } : Dev).bun = d.bun := rfl
theorem Dev.withFc_dma (d : Dev) (x : FcState) : ({ d with fc := x } : Dev).dma = d.dma := rfl
theorem Dev.withFc_mgmt (d : Dev) (x : FcState) : ({ d with fc := x } : Dev).mgmt = d.mgmt := rfl
theorem Dev.withFc_pm (d : Dev) (x : FcState) : ({ d with fc := x } : Dev).pm = d.pm := rfl
theorem Dev.withFc_pins (d : Dev) (x : FcState) : ({ d with fc := x } : Dev).pins = d.pins := rfl
theorem Dev.withFc_freeCtr (d : Dev) (x : FcState) : ({ d with fc := x } : Dev).freeCtr = d.freeCtr := rfl
theorem Dev.withFc_out (d : Dev) (x : FcState) : ({ d with fc := x } : Dev).out = d.out := rfl

theorem Dev.withMedia_regs (d : Dev) (x : Media) : ({ d with media := x } : Dev).regs = d.regs := rfl
theorem Dev.withMedia_staged (d : Dev) (x : Media) : ({ d with media := x } : Dev).staged = d.staged := rfl
theorem Dev.withMedia_applied (d : Dev) (x : Media) : ({ d with media := x } : Dev).applied = d.applied := rfl
theorem Dev.withMedia_tb (d : Dev) (x : Media) : ({ d with media := x } : Dev).tb = d.tb := rfl
theorem Dev.withMedia_host (d : Dev) (x : Media) : ({ d with media := x } : Dev).host = d.host := rfl
theorem Dev.withMedia_hostMem (d : Dev) (x : Media) : ({ d with media := x } : Dev).hostMem = d.hostMem := rfl
theorem Dev.withMedia_dataMem (d : Dev) (x : Media) : ({ d with media := x } : Dev).dataMem = d.dataMem := rfl
theorem Dev.withMedia_intc (d : Dev) (x : Media) : ({ d with media := x } : Dev).intc = d.intc := rfl
theorem Dev.withMedia_fc (d : Dev) (x : Media) : ({ d with media := x } : Dev).fc = d.fc := rfl
theorem Dev.withMedia_dlv (d : Dev) (x : Media) : ({ d with media := x } : Dev).dlv = d.dlv := rfl
theorem Dev.withMedia_eth (d : Dev) (x : Media) : ({ d with media := x } : Dev).eth = d.eth := rfl
theorem Dev.withMedia_par (d : Dev) (x : Media) : ({ d with media := x } : Dev).par = d.par := rfl
theorem Dev.withMedia_qm (d : Dev) (x : Media) : ({ d with media := x } : Dev).qm = d.qm := rfl
theorem Dev.withMedia_mem (d : Dev) (x : Media) : ({ d with media := x } : Dev).mem = d.mem := rfl
theorem Dev.withMedia_prot (d : Dev) (x : Media) : ({ d with media := x } : Dev).prot = d.prot := rfl
theorem Dev.withMedia_bun (d : Dev) (x : Media) : ({ d with media := x } : Dev).bun = d.bun := rfl
theorem Dev.withMedia_dma (d : Dev) (x : Media) : ({ d with media := x } : Dev).dma = d.dma := rfl
theorem Dev.withMedia_mgmt (d : Dev) (x : Media) : ({ d with media := x } : Dev).mgmt = d.mgmt := rfl
theorem Dev.withMedia_pm (d : Dev) (x : Media) : ({ d with media := x } : Dev).pm = d.pm := rfl
theorem Dev.withMedia_pins (d : Dev) (x : Media) : ({ d with media := x } : Dev).pins = d.pins := rfl
theorem Dev.withMedia_freeCtr (d : Dev) (x : Media) : ({ d with media := x } : Dev).freeCtr = d.freeCtr := rfl
theorem Dev.withMedia_out (d : Dev) (x : Media) : ({ d with media := x } : Dev).out = d.out := rfl

theorem Dev.withMem_regs (d : Dev) (x : SMap MemCtl) : ({ d with mem := x } : Dev).regs = d.regs := rfl
theorem Dev.withMem_staged (d : Dev) (x : SMap MemCtl) : ({ d with mem := x } : Dev).staged = d.staged := rfl
theorem Dev.withMem_applied (d : Dev) (x : SMap MemCtl) : ({ d with mem := x } : Dev).applied = d.applied := rfl
theorem Dev.withMem_tb (d : Dev) (x : SMap MemCtl) : ({ d with mem := x } : Dev).tb = d.tb := rfl
theorem Dev.withMem_host (d : Dev) (x : SMap MemCtl) : ({ d with mem := x } : Dev).host = d.host := rfl
theorem Dev.withMem_hostMem (d : Dev) (x : SMap MemCtl) : ({ d with mem := x } : Dev).hostMem = d.hostMem := rfl
theorem Dev.withMem_dataMem (d : Dev) (x : SMap MemCtl) : ({ d with mem := x } : Dev).dataMem = d.dataMem := rfl
theorem Dev.withMem_intc (d : Dev) (x : SMap MemCtl) : ({ d with mem := x } : Dev).intc = d.intc := rfl
theorem Dev.withMem_fc (d : Dev) (x : SMap MemCtl) : ({ d with mem := x } : Dev).fc = d.fc := rfl
theorem Dev.withMem_media (d : Dev) (x : SMap MemCtl) : ({ d with mem := x } : Dev).media = d.media := rfl
theorem Dev.withMem_dlv (d : Dev) (x : SMap MemCtl) : ({ d with mem := x } : Dev).dlv = d.dlv := rfl
theorem Dev.withMem_eth (d : Dev) (x : SMap MemCtl) : ({ d with mem := x } : Dev).eth = d.eth := rfl
theorem Dev.withMem_par (d : Dev) (x : SMap MemCtl) : ({ d with mem := x } : Dev).par = d.par := rfl
theorem Dev.withMem_qm (d : Dev) (x : SMap MemCtl) : ({ d with mem := x } : Dev).qm = d.qm := rfl
theorem Dev.withMem_prot (d : Dev) (x : SMap MemCtl) : ({ d with mem := x } : Dev).prot = d.prot := rfl
theorem Dev.withMem_bun (d : Dev) (x : SMap MemCtl) : ({ d with mem := x } : Dev).bun = d.bun := rfl
theorem Dev.withMem_dma (d : Dev) (x : SMap MemCtl) : ({ d with mem := x } : Dev).dma = d.dma := rfl
theorem Dev.withMem_mgmt (d : Dev) (x : SMap MemCtl) : ({ d with mem := x } : Dev).mgmt = d.mgmt := rfl
theorem Dev.withMem_pm (d : Dev) (x : SMap MemCtl) : ({ d with mem := x } : Dev).pm = d.pm := rfl
theorem Dev.withMem_pins (d : Dev) (x : SMap MemCtl) : ({ d with mem := x } : Dev).pins = d.pins := rfl
theorem Dev.withMem_freeCtr (d : Dev) (x : SMap MemCtl) : ({ d with mem := x } : Dev).freeCtr = d.freeCtr := rfl
theorem Dev.withMem_out (d : Dev) (x : SMap MemCtl) : ({ d with mem := x } : Dev).out = d.out := rfl

theorem Dev.withPm_regs (d : Dev) (x : Pm) : ({ d with pm := x } : Dev).regs = d.regs := rfl
theorem Dev.withPm_staged (d : Dev) (x : Pm) : ({ d with pm := x } : Dev).staged = d.staged := rfl
theorem Dev.withPm_applied (d : Dev) (x : Pm) : ({ d with pm := x } : Dev).applied = d.applied := rfl
theorem Dev.withPm_tb (d : Dev) (x : Pm) : ({ d with pm := x } : Dev).tb = d.tb := rfl
theorem Dev.withPm_host (d : Dev) (x : Pm) : ({ d with pm := x } : Dev).host = d.host := rfl
theorem Dev.withPm_hostMem (d : Dev) (x : Pm) : ({ d with pm := x } : Dev).hostMem = d.hostMem := rfl
theorem Dev.withPm_dataMem (d : Dev) (x : Pm) : ({ d with pm := x } : Dev).dataMem = d.dataMem := rfl
theorem Dev.withPm_intc (d : Dev) (x : Pm) : ({ d with pm := x } : Dev).intc = d.intc := rfl
theorem Dev.withPm_fc (d : Dev) (x : Pm) : ({ d with pm := x } : Dev).fc = d.fc := rfl
theorem Dev.withPm_media (d : Dev) (x : Pm) : ({ d with pm := x } : Dev).media = d.media := rfl
theorem Dev.withPm_dlv (d : Dev) (x : Pm) : ({ d with pm := x } : Dev).dlv = d.dlv := rfl
theorem Dev.withPm_eth (d : Dev) (x : Pm) : ({ d with pm := x } : Dev).eth = d.eth := rfl
theorem Dev.withPm_par (d : Dev) (x : Pm) : ({ d with pm := x } : Dev).par = d.par := rfl
theorem Dev.withPm_qm (d : Dev) (x : Pm) : ({ d with pm := x } : Dev).qm = d.qm := rfl
theorem Dev.withPm_mem (d : Dev) (x : Pm) : ({ d with pm := x } : Dev).mem = d.mem := rfl
theorem Dev.withPm_prot (d : Dev) (x : Pm) : ({ d with pm := x } : Dev).prot = d.prot := rfl
theorem Dev.withPm_bun (d : Dev) (x : Pm) : ({ d with pm := x } : Dev).bun = d.bun := rfl
theorem Dev.withPm_dma (d : Dev) (x : Pm) : ({ d with pm := x } : Dev).dma = d.dma := rfl
theorem Dev.withPm_mgmt (d : Dev) (x : Pm) : ({ d with pm := x } : Dev).mgmt = d.mgmt := rfl
theorem Dev.withPm_pins (d : Dev) (x : Pm) : ({ d with pm := x } : Dev).pins = d.pins := rfl
theorem Dev.withPm_freeCtr (d : Dev) (x : Pm) : ({ d with pm := x } : Dev).freeCtr = d.freeCtr := rfl
theorem Dev.withPm_out (d : Dev) (x : Pm) : ({ d with pm := x } : Dev).out = d.out := rfl

theorem Dev.withPins_regs (d : Dev) (x : Pins) : ({ d with pins := x } : Dev).regs = d.regs := rfl
theorem Dev.withPins_staged (d : Dev) (x : Pins) : ({ d with pins := x } : Dev).staged = d.staged := rfl
theorem Dev.withPins_applied (d : Dev) (x : Pins) : ({ d with pins := x } : Dev).applied = d.applied := rfl
theorem Dev.withPins_tb (d : Dev) (x : Pins) : ({ d with pins := x } : Dev).tb = d.tb := rfl
theorem Dev.withPins_host (d : Dev) (x : Pins) : ({ d with pins := x } : Dev).host = d.host := rfl
theorem Dev.withPins_hostMem (d : Dev) (x : Pins) : ({ d with pins := x } : Dev).hostMem = d.hostMem := rfl
theorem Dev.withPins_dataMem (d : Dev) (x : Pins) : ({ d with pins := x } : Dev).dataMem = d.dataMem := rfl
theorem Dev.withPins_intc (d : Dev) (x : Pins) : ({ d with pins := x } : Dev).intc = d.intc := rfl
theorem Dev.withPins_fc (d : Dev) (x : Pins) : ({ d with pins := x } : Dev).fc = d.fc := rfl
theorem Dev.withPins_media (d : Dev) (x : Pins) : ({ d with pins := x } : Dev).media = d.media := rfl
theorem Dev.withPins_dlv (d : Dev) (x : Pins) : ({ d with pins := x } : Dev).dlv = d.dlv := rfl
theorem Dev.withPins_eth (d : Dev) (x : Pins) : ({ d with pins := x } : Dev).eth = d.eth := rfl
theorem Dev.withPins_par (d : Dev) (x : Pins) : ({ d with pins := x } : Dev).par = d.par := rfl
theorem Dev.withPins_qm (d : Dev) (x : Pins) : ({ d with pins := x } : Dev).qm = d.qm := rfl
theorem Dev.withPins_mem (d : Dev) (x : Pins) : ({ d with pins := x } : Dev).mem = d.mem := rfl
theorem Dev.withPins_prot (d : Dev) (x : Pins) : ({ d with pins := x } : Dev).prot = d.prot := rfl
theorem Dev.withPins_bun (d : Dev) (x : Pins) : ({ d with pins := x } : Dev).bun = d.bun := rfl
theorem Dev.withPins_dma (d : Dev) (x : Pins) : ({ d with pins := x } : Dev).dma = d.dma := rfl
theorem Dev.withPins_mgmt (d : Dev) (x : Pins) : ({ d with pins := x } : Dev).mgmt = d.mgmt := rfl
theorem Dev.withPins_pm (d : Dev) (x : Pins) : ({ d with pins := x } : Dev).pm = d.pm := rfl
theorem Dev.withPins_freeCtr (d : Dev) (x : Pins) : ({ d with pins := x } : Dev).freeCtr = d.freeCtr := rfl
theorem Dev.withPins_out (d : Dev) (x : Pins) : ({ d with pins := x } : Dev).out = d.out := rfl

theorem Dev.withFreeCtr_regs (d : Dev) (x : Nat) : ({ d with freeCtr := x } : Dev).regs = d.regs := rfl
theorem Dev.withFreeCtr_staged (d : Dev) (x : Nat) : ({ d with freeCtr := x } : Dev).staged = d.staged := rfl
theorem Dev.withFreeCtr_applied (d : Dev) (x : Nat) : ({ d with freeCtr := x } : Dev).applied = d.applied := rfl
theorem Dev.withFreeCtr_tb (d : Dev) (x : Nat) : ({ d with freeCtr := x } : Dev).tb = d.tb := rfl
theorem Dev.withFreeCtr_host (d : Dev) (x : Nat) : ({ d with freeCtr := x } : Dev).host = d.host := rfl
theorem Dev.withFreeCtr_hostMem (d : Dev) (x : Nat) : ({ d with freeCtr := x } : Dev).hostMem = d.hostMem := rfl
theorem Dev.withFreeCtr_dataMem (d : Dev) (x : Nat) : ({ d with freeCtr := x } : Dev).dataMem = d.dataMem := rfl
theorem Dev.withFreeCtr_intc (d : Dev) (x : Nat) : ({ d with freeCtr := x } : Dev).intc = d.intc := rfl
theorem Dev.withFreeCtr_fc (d : Dev) (x : Nat) : ({ d with freeCtr := x } : Dev).fc = d.fc := rfl
theorem Dev.withFreeCtr_media (d : Dev) (x : Nat) : ({ d with freeCtr := x } : Dev).media = d.media := rfl
theorem Dev.withFreeCtr_dlv (d : Dev) (x : Nat) : ({ d with freeCtr := x } : Dev).dlv = d.dlv := rfl
theorem Dev.withFreeCtr_eth (d : Dev) (x : Nat) : ({ d with freeCtr := x } : Dev).eth = d.eth := rfl
theorem Dev.withFreeCtr_par (d : Dev) (x : Nat) : ({ d with freeCtr := x } : Dev).par = d.par := rfl
theorem Dev.withFreeCtr_qm (d : Dev) (x : Nat) : ({ d with freeCtr := x } : Dev).qm = d.qm := rfl
theorem Dev.withFreeCtr_mem (d : Dev) (x : Nat) : ({ d with freeCtr := x } : Dev).mem = d.mem := rfl
theorem Dev.withFreeCtr_prot (d : Dev) (x : Nat) : ({ d with freeCtr := x } : Dev).prot = d.prot := rfl
theorem Dev.withFreeCtr_bun (d : Dev) (x : Nat) : ({ d with freeCtr := x } : Dev).bun = d.bun := rfl
theorem Dev.withFreeCtr_dma (d : Dev) (x : Nat) : ({ d with freeCtr := x } : Dev).dma = d.dma := rfl
theorem Dev.withFreeCtr_mgmt (d : Dev) (x : Nat) : ({ d with freeCtr := x } : Dev).mgmt = d.mgmt := rfl
theorem Dev.withFreeCtr_pm (d : Dev) (x : Nat) : ({ d with freeCtr := x } : Dev).pm = d.pm := rfl
theorem Dev.withFreeCtr_pins (d : Dev) (x : Nat) : ({ d with freeCtr := x } : Dev).pins = d.pins := rfl
theorem Dev.withFreeCtr_out (d : Dev) (x : Nat) : ({ d with freeCtr := x } : Dev).out = d.out := rfl

theorem Dev.withOut_regs (d : Dev) (x : List Output) : ({ d with out := x } : Dev).regs = d.regs := rfl
theorem Dev.withOut_staged (d : Dev) (x : List Output) : ({ d with out := x } : Dev).staged = d.staged := rfl
theorem Dev.withOut_applied (d : Dev) (x : List Output) : ({ d with out := x } : Dev).applied = d.applied := rfl
theorem Dev.withOut_tb (d : Dev) (x : List Output) : ({ d with out := x } : Dev).tb = d.tb := rfl
theorem Dev.withOut_host (d : Dev) (x : List Output) : ({ d with out := x } : Dev).host = d.host := rfl
theorem Dev.withOut_hostMem (d : Dev) (x : List Output) : ({ d with out := x } : Dev).hostMem = d.hostMem := rfl
theorem Dev.withOut_dataMem (d : Dev) (x : List Output) : ({ d with out := x } : Dev).dataMem = d.dataMem := rfl
theorem Dev.withOut_intc (d : Dev) (x : List Output) : ({ d with out := x } : Dev).intc = d.intc := rfl
theorem Dev.withOut_fc (d : Dev) (x : List Output) : ({ d with out := x } : Dev).fc = d.fc := rfl
theorem Dev.withOut_media (d : Dev) (x : List Output) : ({ d with out := x } : Dev).media = d.media := rfl
theorem Dev.withOut_dlv (d : Dev) (x : List Output) : ({ d with out := x } : Dev).dlv = d.dlv := rfl
theorem Dev.withOut_eth (d : Dev) (x : List Output) : ({ d with out := x } : Dev).eth = d.eth := rfl
theorem Dev.withOut_par (d : Dev) (x : List Output) : ({ d with out := x } : Dev).par = d.par := rfl
theorem Dev.withOut_qm (d : Dev) (x : List Output) : ({ d with out := x } : Dev).qm = d.qm := rfl
theorem Dev.withOut_mem (d : Dev) (x : List Output) : ({ d with out := x } : Dev).mem = d.mem := rfl
theorem Dev.withOut_prot (d : Dev) (x : List Output) : ({ d with out := x } : Dev).prot = d.prot := rfl
theorem Dev.withOut_bun (d : Dev) (x : List Output) : ({ d with out := x } : Dev).bun = d.bun := rfl
theorem Dev.withOut_dma (d : Dev) (x : List Output) : ({ d with out := x } : Dev).dma = d.dma := rfl
theorem Dev.withOut_mgmt (d : Dev) (x : List Output) : ({ d with out := x } : Dev).mgmt = d.mgmt := rfl
theorem Dev.withOut_pm (d : Dev) (x : List Output) : ({ d with out := x } : Dev).pm = d.pm := rfl
theorem Dev.withOut_pins (d : Dev) (x : List Output) : ({ d with out := x } : Dev).pins = d.pins := rfl
theorem Dev.withOut_freeCtr (d : Dev) (x : List Output) : ({ d with out := x } : Dev).freeCtr = d.freeCtr := rfl

/-! ### What register updates leave alone -/

@[simp] theorem Dev.setReg_staged (d : Dev) (a v : Nat) : (d.setReg a v).staged = d.staged := d.withRegs_staged _
@[simp] theorem Dev.setReg_applied (d : Dev) (a v : Nat) : (d.setReg a v).applied = d.applied := d.withRegs_applied _
@[simp] theorem Dev.setReg_tb (d : Dev) (a v : Nat) : (d.setReg a v).tb = d.tb := d.withRegs_tb _
@[simp] theorem Dev.setReg_host (d : Dev) (a v : Nat) : (d.setReg a v).host = d.host := d.withRegs_host _
@[simp] theorem Dev.setReg_hostMem (d : Dev) (a v : Nat) : (d.setReg a v).hostMem = d.hostMem := d.withRegs_hostMem _
@[simp] theorem Dev.setReg_dataMem (d : Dev) (a v : Nat) : (d.setReg a v).dataMem = d.dataMem := d.withRegs_dataMem _
@[simp] theorem Dev.setReg_intc (d : Dev) (a v : Nat) : (d.setReg a v).intc = d.intc := d.withRegs_intc _
@[simp] theorem Dev.setReg_fc (d : Dev) (a v : Nat) : (d.setReg a v).fc = d.fc := d.withRegs_fc _
@[simp] theorem Dev.setReg_media (d : Dev) (a v : Nat) : (d.setReg a v).media = d.media := d.withRegs_media _
@[simp] theorem Dev.setReg_dlv (d : Dev) (a v : Nat) : (d.setReg a v).dlv = d.dlv := d.withRegs_dlv _
@[simp] theorem Dev.setReg_eth (d : Dev) (a v : Nat) : (d.setReg a v).eth = d.eth := d.withRegs_eth _
@[simp] theorem Dev.setReg_par (d : Dev) (a v : Nat) : (d.setReg a v).par = d.par := d.withRegs_par _
@[simp] theorem Dev.setReg_qm (d : Dev) (a v : Nat) : (d.setReg a v).qm = d.qm := d.withRegs_qm _
@[simp] theorem Dev.setReg_mem (d : Dev) (a v : Nat) : (d.setReg a v).mem = d.mem := d.withRegs_mem _
@[simp] theorem Dev.setReg_prot (d : Dev) (a v : Nat) : (d.setReg a v).prot = d.prot := d.withRegs_prot _
@[simp] theorem Dev.setReg_bun (d : Dev) (a v : Nat) : (d.setReg a v).bun = d.bun := d.withRegs_bun _
@[simp] theorem Dev.setReg_dma (d : Dev) (a v : Nat) : (d.setReg a v).dma = d.dma := d.withRegs_dma _
@[simp] theorem Dev.setReg_mgmt (d : Dev) (a v : Nat) : (d.setReg a v).mgmt = d.mgmt := d.withRegs_mgmt _
@[simp] theorem Dev.setReg_pm (d : Dev) (a v : Nat) : (d.setReg a v).pm = d.pm := d.withRegs_pm _
@[simp] theorem Dev.setReg_pins (d : Dev) (a v : Nat) : (d.setReg a v).pins = d.pins := d.withRegs_pins _
@[simp] theorem Dev.setReg_freeCtr (d : Dev) (a v : Nat) : (d.setReg a v).freeCtr = d.freeCtr := d.withRegs_freeCtr _
@[simp] theorem Dev.setReg_out (d : Dev) (a v : Nat) : (d.setReg a v).out = d.out := d.withRegs_out _

@[simp] theorem Dev.setFld_staged (d : Dev) (a hi lo x : Nat) : (d.setFld a hi lo x).staged = d.staged := d.setReg_staged a _
@[simp] theorem Dev.setFld_applied (d : Dev) (a hi lo x : Nat) : (d.setFld a hi lo x).applied = d.applied := d.setReg_applied a _
@[simp] theorem Dev.setFld_tb (d : Dev) (a hi lo x : Nat) : (d.setFld a hi lo x).tb = d.tb := d.setReg_tb a _
@[simp] theorem Dev.setFld_host (d : Dev) (a hi lo x : Nat) : (d.setFld a hi lo x).host = d.host := d.setReg_host a _
@[simp] theorem Dev.setFld_hostMem (d : Dev) (a hi lo x : Nat) : (d.setFld a hi lo x).hostMem = d.hostMem := d.setReg_hostMem a _
@[simp] theorem Dev.setFld_dataMem (d : Dev) (a hi lo x : Nat) : (d.setFld a hi lo x).dataMem = d.dataMem := d.setReg_dataMem a _
@[simp] theorem Dev.setFld_intc (d : Dev) (a hi lo x : Nat) : (d.setFld a hi lo x).intc = d.intc := d.setReg_intc a _
@[simp] theorem Dev.setFld_fc (d : Dev) (a hi lo x : Nat) : (d.setFld a hi lo x).fc = d.fc := d.setReg_fc a _
@[simp] theorem Dev.setFld_media (d : Dev) (a hi lo x : Nat) : (d.setFld a hi lo x).media = d.media := d.setReg_media a _
@[simp] theorem Dev.setFld_dlv (d : Dev) (a hi lo x : Nat) : (d.setFld a hi lo x).dlv = d.dlv := d.setReg_dlv a _
@[simp] theorem Dev.setFld_eth (d : Dev) (a hi lo x : Nat) : (d.setFld a hi lo x).eth = d.eth := d.setReg_eth a _
@[simp] theorem Dev.setFld_par (d : Dev) (a hi lo x : Nat) : (d.setFld a hi lo x).par = d.par := d.setReg_par a _
@[simp] theorem Dev.setFld_qm (d : Dev) (a hi lo x : Nat) : (d.setFld a hi lo x).qm = d.qm := d.setReg_qm a _
@[simp] theorem Dev.setFld_mem (d : Dev) (a hi lo x : Nat) : (d.setFld a hi lo x).mem = d.mem := d.setReg_mem a _
@[simp] theorem Dev.setFld_prot (d : Dev) (a hi lo x : Nat) : (d.setFld a hi lo x).prot = d.prot := d.setReg_prot a _
@[simp] theorem Dev.setFld_bun (d : Dev) (a hi lo x : Nat) : (d.setFld a hi lo x).bun = d.bun := d.setReg_bun a _
@[simp] theorem Dev.setFld_dma (d : Dev) (a hi lo x : Nat) : (d.setFld a hi lo x).dma = d.dma := d.setReg_dma a _
@[simp] theorem Dev.setFld_mgmt (d : Dev) (a hi lo x : Nat) : (d.setFld a hi lo x).mgmt = d.mgmt := d.setReg_mgmt a _
@[simp] theorem Dev.setFld_pm (d : Dev) (a hi lo x : Nat) : (d.setFld a hi lo x).pm = d.pm := d.setReg_pm a _
@[simp] theorem Dev.setFld_pins (d : Dev) (a hi lo x : Nat) : (d.setFld a hi lo x).pins = d.pins := d.setReg_pins a _
@[simp] theorem Dev.setFld_freeCtr (d : Dev) (a hi lo x : Nat) : (d.setFld a hi lo x).freeCtr = d.freeCtr := d.setReg_freeCtr a _
@[simp] theorem Dev.setFld_out (d : Dev) (a hi lo x : Nat) : (d.setFld a hi lo x).out = d.out := d.setReg_out a _

@[simp] theorem Dev.setFlag_staged (d : Dev) (a b : Nat) (on : Bool) : (d.setFlag a b on).staged = d.staged := d.setFld_staged a b b _
@[simp] theorem Dev.setFlag_applied (d : Dev) (a b : Nat) (on : Bool) : (d.setFlag a b on).applied = d.applied := d.setFld_applied a b b _
@[simp] theorem Dev.setFlag_tb (d : Dev) (a b : Nat) (on : Bool) : (d.setFlag a b on).tb = d.tb := d.setFld_tb a b b _
@[simp] theorem Dev.setFlag_host (d : Dev) (a b : Nat) (on : Bool) : (d.setFlag a b on).host = d.host := d.setFld_host a b b _
@[simp] theorem Dev.setFlag_hostMem (d : Dev) (a b : Nat) (on : Bool) : (d.setFlag a b on).hostMem = d.hostMem := d.setFld_hostMem a b b _
@[simp] theorem Dev.setFlag_dataMem (d : Dev) (a b : Nat) (on : Bool) : (d.setFlag a b on).dataMem = d.dataMem := d.setFld_dataMem a b b _
@[simp] theorem Dev.setFlag_intc (d : Dev) (a b : Nat) (on : Bool) : (d.setFlag a b on).intc = d.intc := d.setFld_intc a b b _
@[simp] theorem Dev.setFlag_fc (d : Dev) (a b : Nat) (on : Bool) : (d.setFlag a b on).fc = d.fc := d.setFld_fc a b b _
@[simp] theorem Dev.setFlag_media (d : Dev) (a b : Nat) (on : Bool) : (d.setFlag a b on).media = d.media := d.setFld_media a b b _
@[simp] theorem Dev.setFlag_dlv (d : Dev) (a b : Nat) (on : Bool) : (d.setFlag a b on).dlv = d.dlv := d.setFld_dlv a b b _
@[simp] theorem Dev.setFlag_eth (d : Dev) (a b : Nat) (on : Bool) : (d.setFlag a b on).eth = d.eth := d.setFld_eth a b b _
@[simp] theorem Dev.setFlag_par (d : Dev) (a b : Nat) (on : Bool) : (d.setFlag a b on).par = d.par := d.setFld_par a b b _
@[simp] theorem Dev.setFlag_qm (d : Dev) (a b : Nat) (on : Bool) : (d.setFlag a b on).qm = d.qm := d.setFld_qm a b b _
@[simp] theorem Dev.setFlag_mem (d : Dev) (a b : Nat) (on : Bool) : (d.setFlag a b on).mem = d.mem := d.setFld_mem a b b _
@[simp] theorem Dev.setFlag_prot (d : Dev) (a b : Nat) (on : Bool) : (d.setFlag a b on).prot = d.prot := d.setFld_prot a b b _
@[simp] theorem Dev.setFlag_bun (d : Dev) (a b : Nat) (on : Bool) : (d.setFlag a b on).bun = d.bun := d.setFld_bun a b b _
@[simp] theorem Dev.setFlag_dma (d : Dev) (a b : Nat) (on : Bool) : (d.setFlag a b on).dma = d.dma := d.setFld_dma a b b _
@[simp] theorem Dev.setFlag_mgmt (d : Dev) (a b : Nat) (on : Bool) : (d.setFlag a b on).mgmt = d.mgmt := d.setFld_mgmt a b b _
@[simp] theorem Dev.setFlag_pm (d : Dev) (a b : Nat) (on : Bool) : (d.setFlag a b on).pm = d.pm := d.setFld_pm a b b _
@[simp] theorem Dev.setFlag_pins (d : Dev) (a b : Nat) (on : Bool) : (d.setFlag a b on).pins = d.pins := d.setFld_pins a b b _
@[simp] theorem Dev.setFlag_freeCtr (d : Dev) (a b : Nat) (on : Bool) : (d.setFlag a b on).freeCtr = d.freeCtr := d.setFld_freeCtr a b b _
@[simp] theorem Dev.setFlag_out (d : Dev) (a b : Nat) (on : Bool) : (d.setFlag a b on).out = d.out := d.setFld_out a b b _

@[simp] theorem Dev.setEvents_staged (d : Dev) (a m : Nat) : (d.setEvents a m).staged = d.staged := by simp only [Dev.setEvents, apply_ite Dev.staged, Dev.setReg_staged, ite_self]
@[simp] theorem Dev.setEvents_applied (d : Dev) (a m : Nat) : (d.setEvents a m).applied = d.applied := by simp only [Dev.setEvents, apply_ite Dev.applied, Dev.setReg_applied, ite_self]
@[simp] theorem Dev.setEvents_tb (d : Dev) (a m : Nat) : (d.setEvents a m).tb = d.tb := by simp only [Dev.setEvents, apply_ite Dev.tb, Dev.setReg_tb, ite_self]
@[simp] theorem Dev.setEvents_host (d : Dev) (a m : Nat) : (d.setEvents a m).host = d.host := by simp only [Dev.setEvents, apply_ite Dev.host, Dev.setReg_host, ite_self]
@[simp] theorem Dev.setEvents_hostMem (d : Dev) (a m : Nat) : (d.setEvents a m).hostMem = d.hostMem := by simp only [Dev.setEvents, apply_ite Dev.hostMem, Dev.setReg_hostMem, ite_self]
@[simp] theorem Dev.setEvents_dataMem (d : Dev) (a m : Nat) : (d.setEvents a m).dataMem = d.dataMem := by simp only [Dev.setEvents, apply_ite Dev.dataMem, Dev.setReg_dataMem, ite_self]
@[simp] theorem Dev.setEvents_intc (d : Dev) (a m : Nat) : (d.setEvents a m).intc = d.intc := by simp only [Dev.setEvents, apply_ite Dev.intc, Dev.setReg_intc, ite_self]
@[simp] theorem Dev.setEvents_fc (d : Dev) (a m : Nat) : (d.setEvents a m).fc = d.fc := by simp only [Dev.setEvents, apply_ite Dev.fc, Dev.setReg_fc, ite_self]
@[simp] theorem Dev.setEvents_media (d : Dev) (a m : Nat) : (d.setEvents a m).media = d.media := by simp only [Dev.setEvents, apply_ite Dev.media, Dev.setReg_media, ite_self]
@[simp] theorem Dev.setEvents_dlv (d : Dev) (a m : Nat) : (d.setEvents a m).dlv = d.dlv := by simp only [Dev.setEvents, apply_ite Dev.dlv, Dev.setReg_dlv, ite_self]
@[simp] theorem Dev.setEvents_eth (d : Dev) (a m : Nat) : (d.setEvents a m).eth = d.eth := by simp only [Dev.setEvents, apply_ite Dev.eth, Dev.setReg_eth, ite_self]
@[simp] theorem Dev.setEvents_par (d : Dev) (a m : Nat) : (d.setEvents a m).par = d.par := by simp only [Dev.setEvents, apply_ite Dev.par, Dev.setReg_par, ite_self]
@[simp] theorem Dev.setEvents_qm (d : Dev) (a m : Nat) : (d.setEvents a m).qm = d.qm := by simp only [Dev.setEvents, apply_ite Dev.qm, Dev.setReg_qm, ite_self]
@[simp] theorem Dev.setEvents_mem (d : Dev) (a m : Nat) : (d.setEvents a m).mem = d.mem := by simp only [Dev.setEvents, apply_ite Dev.mem, Dev.setReg_mem, ite_self]
@[simp] theorem Dev.setEvents_prot (d : Dev) (a m : Nat) : (d.setEvents a m).prot = d.prot := by simp only [Dev.setEvents, apply_ite Dev.prot, Dev.setReg_prot, ite_self]
@[simp] theorem Dev.setEvents_bun (d : Dev) (a m : Nat) : (d.setEvents a m).bun = d.bun := by simp only [Dev.setEvents, apply_ite Dev.bun, Dev.setReg_bun, ite_self]
@[simp] theorem Dev.setEvents_dma (d : Dev) (a m : Nat) : (d.setEvents a m).dma = d.dma := by simp only [Dev.setEvents, apply_ite Dev.dma, Dev.setReg_dma, ite_self]
@[simp] theorem Dev.setEvents_mgmt (d : Dev) (a m : Nat) : (d.setEvents a m).mgmt = d.mgmt := by simp only [Dev.setEvents, apply_ite Dev.mgmt, Dev.setReg_mgmt, ite_self]
@[simp] theorem Dev.setEvents_pm (d : Dev) (a m : Nat) : (d.setEvents a m).pm = d.pm := by simp only [Dev.setEvents, apply_ite Dev.pm, Dev.setReg_pm, ite_self]
@[simp] theorem Dev.setEvents_pins (d : Dev) (a m : Nat) : (d.setEvents a m).pins = d.pins := by simp only [Dev.setEvents, apply_ite Dev.pins, Dev.setReg_pins, ite_self]
@[simp] theorem Dev.setEvents_freeCtr (d : Dev) (a m : Nat) : (d.setEvents a m).freeCtr = d.freeCtr := by simp only [Dev.setEvents, apply_ite Dev.freeCtr, Dev.setReg_freeCtr, ite_self]
@[simp] theorem Dev.setEvents_out (d : Dev) (a m : Nat) : (d.setEvents a m).out = d.out := by simp only [Dev.setEvents, apply_ite Dev.out, Dev.setReg_out, ite_self]

@[simp] theorem Dev.setEvent_staged (d : Dev) (a b : Nat) : (d.setEvent a b).staged = d.staged := by simp only [Dev.setEvent, Dev.setEvents_staged]
@[simp] theorem Dev.setEvent_applied (d : Dev) (a b : Nat) : (d.setEvent a b).applied = d.applied := by simp only [Dev.setEvent, Dev.setEvents_applied]
@[simp] theorem Dev.setEvent_tb (d : Dev) (a b : Nat) : (d.setEvent a b).tb = d.tb := by simp only [Dev.setEvent, Dev.setEvents_tb]
@[simp] theorem Dev.setEvent_host (d : Dev) (a b : Nat) : (d.setEvent a b).host = d.host := by simp only [Dev.setEvent, Dev.setEvents_host]
@[simp] theorem Dev.setEvent_hostMem (d : Dev) (a b : Nat) : (d.setEvent a b).hostMem = d.hostMem := by simp only [Dev.setEvent, Dev.setEvents_hostMem]
@[simp] theorem Dev.setEvent_dataMem (d : Dev) (a b : Nat) : (d.setEvent a b).dataMem = d.dataMem := by simp only [Dev.setEvent, Dev.setEvents_dataMem]
@[simp] theorem Dev.setEvent_intc (d : Dev) (a b : Nat) : (d.setEvent a b).intc = d.intc := by simp only [Dev.setEvent, Dev.setEvents_intc]
@[simp] theorem Dev.setEvent_fc (d : Dev) (a b : Nat) : (d.setEvent a b).fc = d.fc := by simp only [Dev.setEvent, Dev.setEvents_fc]
@[simp] theorem Dev.setEvent_media (d : Dev) (a b : Nat) : (d.setEvent a b).media = d.media := by simp only [Dev.setEvent, Dev.setEvents_media]
@[simp] theorem Dev.setEvent_dlv (d : Dev) (a b : Nat) : (d.setEvent a b).dlv = d.dlv := by simp only [Dev.setEvent, Dev.setEvents_dlv]
@[simp] theorem Dev.setEvent_eth (d : Dev) (a b : Nat) : (d.setEvent a b).eth = d.eth := by simp only [Dev.setEvent, Dev.setEvents_eth]
@[simp] theorem Dev.setEvent_par (d : Dev) (a b : Nat) : (d.setEvent a b).par = d.par := by simp only [Dev.setEvent, Dev.setEvents_par]
@[simp] theorem Dev.setEvent_qm (d : Dev) (a b : Nat) : (d.setEvent a b).qm = d.qm := by simp only [Dev.setEvent, Dev.setEvents_qm]
@[simp] theorem Dev.setEvent_mem (d : Dev) (a b : Nat) : (d.setEvent a b).mem = d.mem := by simp only [Dev.setEvent, Dev.setEvents_mem]
@[simp] theorem Dev.setEvent_prot (d : Dev) (a b : Nat) : (d.setEvent a b).prot = d.prot := by simp only [Dev.setEvent, Dev.setEvents_prot]
@[simp] theorem Dev.setEvent_bun (d : Dev) (a b : Nat) : (d.setEvent a b).bun = d.bun := by simp only [Dev.setEvent, Dev.setEvents_bun]
@[simp] theorem Dev.setEvent_dma (d : Dev) (a b : Nat) : (d.setEvent a b).dma = d.dma := by simp only [Dev.setEvent, Dev.setEvents_dma]
@[simp] theorem Dev.setEvent_mgmt (d : Dev) (a b : Nat) : (d.setEvent a b).mgmt = d.mgmt := by simp only [Dev.setEvent, Dev.setEvents_mgmt]
@[simp] theorem Dev.setEvent_pm (d : Dev) (a b : Nat) : (d.setEvent a b).pm = d.pm := by simp only [Dev.setEvent, Dev.setEvents_pm]
@[simp] theorem Dev.setEvent_pins (d : Dev) (a b : Nat) : (d.setEvent a b).pins = d.pins := by simp only [Dev.setEvent, Dev.setEvents_pins]
@[simp] theorem Dev.setEvent_freeCtr (d : Dev) (a b : Nat) : (d.setEvent a b).freeCtr = d.freeCtr := by simp only [Dev.setEvent, Dev.setEvents_freeCtr]
@[simp] theorem Dev.setEvent_out (d : Dev) (a b : Nat) : (d.setEvent a b).out = d.out := by simp only [Dev.setEvent, Dev.setEvents_out]

@[simp] theorem Dev.clearEvents_staged (d : Dev) (w a v : Nat) : (d.clearEvents w a v).staged = d.staged := by simp only [Dev.clearEvents, apply_ite Dev.staged, Dev.setReg_staged, Dev.setEvent_staged, ite_self]
@[simp] theorem Dev.clearEvents_applied (d : Dev) (w a v : Nat) : (d.clearEvents w a v).applied = d.applied := by simp only [Dev.clearEvents, apply_ite Dev.applied, Dev.setReg_applied, Dev.setEvent_applied, ite_self]
@[simp] theorem Dev.clearEvents_tb (d : Dev) (w a v : Nat) : (d.clearEvents w a v).tb = d.tb := by simp only [Dev.clearEvents, apply_ite Dev.tb, Dev.setReg_tb, Dev.setEvent_tb, ite_self]
@[simp] theorem Dev.clearEvents_host (d : Dev) (w a v : Nat) : (d.clearEvents w a v).host = d.host := by simp only [Dev.clearEvents, apply_ite Dev.host, Dev.setReg_host, Dev.setEvent_host, ite_self]
@[simp] theorem Dev.clearEvents_hostMem (d : Dev) (w a v : Nat) : (d.clearEvents w a v).hostMem = d.hostMem := by simp only [Dev.clearEvents, apply_ite Dev.hostMem, Dev.setReg_hostMem, Dev.setEvent_hostMem, ite_self]
@[simp] theorem Dev.clearEvents_dataMem (d : Dev) (w a v : Nat) : (d.clearEvents w a v).dataMem = d.dataMem := by simp only [Dev.clearEvents, apply_ite Dev.dataMem, Dev.setReg_dataMem, Dev.setEvent_dataMem, ite_self]
@[simp] theorem Dev.clearEvents_intc (d : Dev) (w a v : Nat) : (d.clearEvents w a v).intc = d.intc := by simp only [Dev.clearEvents, apply_ite Dev.intc, Dev.setReg_intc, Dev.setEvent_intc, ite_self]
@[simp] theorem Dev.clearEvents_fc (d : Dev) (w a v : Nat) : (d.clearEvents w a v).fc = d.fc := by simp only [Dev.clearEvents, apply_ite Dev.fc, Dev.setReg_fc, Dev.setEvent_fc, ite_self]
@[simp] theorem Dev.clearEvents_media (d : Dev) (w a v : Nat) : (d.clearEvents w a v).media = d.media := by simp only [Dev.clearEvents, apply_ite Dev.media, Dev.setReg_media, Dev.setEvent_media, ite_self]
@[simp] theorem Dev.clearEvents_dlv (d : Dev) (w a v : Nat) : (d.clearEvents w a v).dlv = d.dlv := by simp only [Dev.clearEvents, apply_ite Dev.dlv, Dev.setReg_dlv, Dev.setEvent_dlv, ite_self]
@[simp] theorem Dev.clearEvents_eth (d : Dev) (w a v : Nat) : (d.clearEvents w a v).eth = d.eth := by simp only [Dev.clearEvents, apply_ite Dev.eth, Dev.setReg_eth, Dev.setEvent_eth, ite_self]
@[simp] theorem Dev.clearEvents_par (d : Dev) (w a v : Nat) : (d.clearEvents w a v).par = d.par := by simp only [Dev.clearEvents, apply_ite Dev.par, Dev.setReg_par, Dev.setEvent_par, ite_self]
@[simp] theorem Dev.clearEvents_qm (d : Dev) (w a v : Nat) : (d.clearEvents w a v).qm = d.qm := by simp only [Dev.clearEvents, apply_ite Dev.qm, Dev.setReg_qm, Dev.setEvent_qm, ite_self]
@[simp] theorem Dev.clearEvents_mem (d : Dev) (w a v : Nat) : (d.clearEvents w a v).mem = d.mem := by simp only [Dev.clearEvents, apply_ite Dev.mem, Dev.setReg_mem, Dev.setEvent_mem, ite_self]
@[simp] theorem Dev.clearEvents_prot (d : Dev) (w a v : Nat) : (d.clearEvents w a v).prot = d.prot := by simp only [Dev.clearEvents, apply_ite Dev.prot, Dev.setReg_prot, Dev.setEvent_prot, ite_self]
@[simp] theorem Dev.clearEvents_bun (d : Dev) (w a v : Nat) : (d.clearEvents w a v).bun = d.bun := by simp only [Dev.clearEvents, apply_ite Dev.bun, Dev.setReg_bun, Dev.setEvent_bun, ite_self]
@[simp] theorem Dev.clearEvents_dma (d : Dev) (w a v : Nat) : (d.clearEvents w a v).dma = d.dma := by simp only [Dev.clearEvents, apply_ite Dev.dma, Dev.setReg_dma, Dev.setEvent_dma, ite_self]
@[simp] theorem Dev.clearEvents_mgmt (d : Dev) (w a v : Nat) : (d.clearEvents w a v).mgmt = d.mgmt := by simp only [Dev.clearEvents, apply_ite Dev.mgmt, Dev.setReg_mgmt, Dev.setEvent_mgmt, ite_self]
@[simp] theorem Dev.clearEvents_pm (d : Dev) (w a v : Nat) : (d.clearEvents w a v).pm = d.pm := by simp only [Dev.clearEvents, apply_ite Dev.pm, Dev.setReg_pm, Dev.setEvent_pm, ite_self]
@[simp] theorem Dev.clearEvents_pins (d : Dev) (w a v : Nat) : (d.clearEvents w a v).pins = d.pins := by simp only [Dev.clearEvents, apply_ite Dev.pins, Dev.setReg_pins, Dev.setEvent_pins, ite_self]
@[simp] theorem Dev.clearEvents_freeCtr (d : Dev) (w a v : Nat) : (d.clearEvents w a v).freeCtr = d.freeCtr := by simp only [Dev.clearEvents, apply_ite Dev.freeCtr, Dev.setReg_freeCtr, Dev.setEvent_freeCtr, ite_self]
@[simp] theorem Dev.clearEvents_out (d : Dev) (w a v : Nat) : (d.clearEvents w a v).out = d.out := by simp only [Dev.clearEvents, apply_ite Dev.out, Dev.setReg_out, Dev.setEvent_out, ite_self]

@[simp] theorem Dev.count_staged (d : Dev) (a n : Nat) : (d.count a n).staged = d.staged := by simp only [Dev.count, Dev.setReg_staged]
@[simp] theorem Dev.count_applied (d : Dev) (a n : Nat) : (d.count a n).applied = d.applied := by simp only [Dev.count, Dev.setReg_applied]
@[simp] theorem Dev.count_tb (d : Dev) (a n : Nat) : (d.count a n).tb = d.tb := by simp only [Dev.count, Dev.setReg_tb]
@[simp] theorem Dev.count_host (d : Dev) (a n : Nat) : (d.count a n).host = d.host := by simp only [Dev.count, Dev.setReg_host]
@[simp] theorem Dev.count_hostMem (d : Dev) (a n : Nat) : (d.count a n).hostMem = d.hostMem := by simp only [Dev.count, Dev.setReg_hostMem]
@[simp] theorem Dev.count_dataMem (d : Dev) (a n : Nat) : (d.count a n).dataMem = d.dataMem := by simp only [Dev.count, Dev.setReg_dataMem]
@[simp] theorem Dev.count_intc (d : Dev) (a n : Nat) : (d.count a n).intc = d.intc := by simp only [Dev.count, Dev.setReg_intc]
@[simp] theorem Dev.count_fc (d : Dev) (a n : Nat) : (d.count a n).fc = d.fc := by simp only [Dev.count, Dev.setReg_fc]
@[simp] theorem Dev.count_media (d : Dev) (a n : Nat) : (d.count a n).media = d.media := by simp only [Dev.count, Dev.setReg_media]
@[simp] theorem Dev.count_dlv (d : Dev) (a n : Nat) : (d.count a n).dlv = d.dlv := by simp only [Dev.count, Dev.setReg_dlv]
@[simp] theorem Dev.count_eth (d : Dev) (a n : Nat) : (d.count a n).eth = d.eth := by simp only [Dev.count, Dev.setReg_eth]
@[simp] theorem Dev.count_par (d : Dev) (a n : Nat) : (d.count a n).par = d.par := by simp only [Dev.count, Dev.setReg_par]
@[simp] theorem Dev.count_qm (d : Dev) (a n : Nat) : (d.count a n).qm = d.qm := by simp only [Dev.count, Dev.setReg_qm]
@[simp] theorem Dev.count_mem (d : Dev) (a n : Nat) : (d.count a n).mem = d.mem := by simp only [Dev.count, Dev.setReg_mem]
@[simp] theorem Dev.count_prot (d : Dev) (a n : Nat) : (d.count a n).prot = d.prot := by simp only [Dev.count, Dev.setReg_prot]
@[simp] theorem Dev.count_bun (d : Dev) (a n : Nat) : (d.count a n).bun = d.bun := by simp only [Dev.count, Dev.setReg_bun]
@[simp] theorem Dev.count_dma (d : Dev) (a n : Nat) : (d.count a n).dma = d.dma := by simp only [Dev.count, Dev.setReg_dma]
@[simp] theorem Dev.count_mgmt (d : Dev) (a n : Nat) : (d.count a n).mgmt = d.mgmt := by simp only [Dev.count, Dev.setReg_mgmt]
@[simp] theorem Dev.count_pm (d : Dev) (a n : Nat) : (d.count a n).pm = d.pm := by simp only [Dev.count, Dev.setReg_pm]
@[simp] theorem Dev.count_pins (d : Dev) (a n : Nat) : (d.count a n).pins = d.pins := by simp only [Dev.count, Dev.setReg_pins]
@[simp] theorem Dev.count_freeCtr (d : Dev) (a n : Nat) : (d.count a n).freeCtr = d.freeCtr := by simp only [Dev.count, Dev.setReg_freeCtr]
@[simp] theorem Dev.count_out (d : Dev) (a n : Nat) : (d.count a n).out = d.out := by simp only [Dev.count, Dev.setReg_out]

@[simp] theorem Dev.countFld_staged (d : Dev) (a hi lo n : Nat) : (d.countFld a hi lo n).staged = d.staged := by simp only [Dev.countFld, Dev.setFld_staged]
@[simp] theorem Dev.countFld_applied (d : Dev) (a hi lo n : Nat) : (d.countFld a hi lo n).applied = d.applied := by simp only [Dev.countFld, Dev.setFld_applied]
@[simp] theorem Dev.countFld_tb (d : Dev) (a hi lo n : Nat) : (d.countFld a hi lo n).tb = d.tb := by simp only [Dev.countFld, Dev.setFld_tb]
@[simp] theorem Dev.countFld_host (d : Dev) (a hi lo n : Nat) : (d.countFld a hi lo n).host = d.host := by simp only [Dev.countFld, Dev.setFld_host]
@[simp] theorem Dev.countFld_hostMem (d : Dev) (a hi lo n : Nat) : (d.countFld a hi lo n).hostMem = d.hostMem := by simp only [Dev.countFld, Dev.setFld_hostMem]
@[simp] theorem Dev.countFld_dataMem (d : Dev) (a hi lo n : Nat) : (d.countFld a hi lo n).dataMem = d.dataMem := by simp only [Dev.countFld, Dev.setFld_dataMem]
@[simp] theorem Dev.countFld_intc (d : Dev) (a hi lo n : Nat) : (d.countFld a hi lo n).intc = d.intc := by simp only [Dev.countFld, Dev.setFld_intc]
@[simp] theorem Dev.countFld_fc (d : Dev) (a hi lo n : Nat) : (d.countFld a hi lo n).fc = d.fc := by simp only [Dev.countFld, Dev.setFld_fc]
@[simp] theorem Dev.countFld_media (d : Dev) (a hi lo n : Nat) : (d.countFld a hi lo n).media = d.media := by simp only [Dev.countFld, Dev.setFld_media]
@[simp] theorem Dev.countFld_dlv (d : Dev) (a hi lo n : Nat) : (d.countFld a hi lo n).dlv = d.dlv := by simp only [Dev.countFld, Dev.setFld_dlv]
@[simp] theorem Dev.countFld_eth (d : Dev) (a hi lo n : Nat) : (d.countFld a hi lo n).eth = d.eth := by simp only [Dev.countFld, Dev.setFld_eth]
@[simp] theorem Dev.countFld_par (d : Dev) (a hi lo n : Nat) : (d.countFld a hi lo n).par = d.par := by simp only [Dev.countFld, Dev.setFld_par]
@[simp] theorem Dev.countFld_qm (d : Dev) (a hi lo n : Nat) : (d.countFld a hi lo n).qm = d.qm := by simp only [Dev.countFld, Dev.setFld_qm]
@[simp] theorem Dev.countFld_mem (d : Dev) (a hi lo n : Nat) : (d.countFld a hi lo n).mem = d.mem := by simp only [Dev.countFld, Dev.setFld_mem]
@[simp] theorem Dev.countFld_prot (d : Dev) (a hi lo n : Nat) : (d.countFld a hi lo n).prot = d.prot := by simp only [Dev.countFld, Dev.setFld_prot]
@[simp] theorem Dev.countFld_bun (d : Dev) (a hi lo n : Nat) : (d.countFld a hi lo n).bun = d.bun := by simp only [Dev.countFld, Dev.setFld_bun]
@[simp] theorem Dev.countFld_dma (d : Dev) (a hi lo n : Nat) : (d.countFld a hi lo n).dma = d.dma := by simp only [Dev.countFld, Dev.setFld_dma]
@[simp] theorem Dev.countFld_mgmt (d : Dev) (a hi lo n : Nat) : (d.countFld a hi lo n).mgmt = d.mgmt := by simp only [Dev.countFld, Dev.setFld_mgmt]
@[simp] theorem Dev.countFld_pm (d : Dev) (a hi lo n : Nat) : (d.countFld a hi lo n).pm = d.pm := by simp only [Dev.countFld, Dev.setFld_pm]
@[simp] theorem Dev.countFld_pins (d : Dev) (a hi lo n : Nat) : (d.countFld a hi lo n).pins = d.pins := by simp only [Dev.countFld, Dev.setFld_pins]
@[simp] theorem Dev.countFld_freeCtr (d : Dev) (a hi lo n : Nat) : (d.countFld a hi lo n).freeCtr = d.freeCtr := by simp only [Dev.countFld, Dev.setFld_freeCtr]
@[simp] theorem Dev.countFld_out (d : Dev) (a hi lo n : Nat) : (d.countFld a hi lo n).out = d.out := by simp only [Dev.countFld, Dev.setFld_out]

@[simp] theorem Dev.satFld_staged (d : Dev) (a hi lo n : Nat) : (d.satFld a hi lo n).staged = d.staged := by simp only [Dev.satFld, Dev.setFld_staged]
@[simp] theorem Dev.satFld_applied (d : Dev) (a hi lo n : Nat) : (d.satFld a hi lo n).applied = d.applied := by simp only [Dev.satFld, Dev.setFld_applied]
@[simp] theorem Dev.satFld_tb (d : Dev) (a hi lo n : Nat) : (d.satFld a hi lo n).tb = d.tb := by simp only [Dev.satFld, Dev.setFld_tb]
@[simp] theorem Dev.satFld_host (d : Dev) (a hi lo n : Nat) : (d.satFld a hi lo n).host = d.host := by simp only [Dev.satFld, Dev.setFld_host]
@[simp] theorem Dev.satFld_hostMem (d : Dev) (a hi lo n : Nat) : (d.satFld a hi lo n).hostMem = d.hostMem := by simp only [Dev.satFld, Dev.setFld_hostMem]
@[simp] theorem Dev.satFld_dataMem (d : Dev) (a hi lo n : Nat) : (d.satFld a hi lo n).dataMem = d.dataMem := by simp only [Dev.satFld, Dev.setFld_dataMem]
@[simp] theorem Dev.satFld_intc (d : Dev) (a hi lo n : Nat) : (d.satFld a hi lo n).intc = d.intc := by simp only [Dev.satFld, Dev.setFld_intc]
@[simp] theorem Dev.satFld_fc (d : Dev) (a hi lo n : Nat) : (d.satFld a hi lo n).fc = d.fc := by simp only [Dev.satFld, Dev.setFld_fc]
@[simp] theorem Dev.satFld_media (d : Dev) (a hi lo n : Nat) : (d.satFld a hi lo n).media = d.media := by simp only [Dev.satFld, Dev.setFld_media]
@[simp] theorem Dev.satFld_dlv (d : Dev) (a hi lo n : Nat) : (d.satFld a hi lo n).dlv = d.dlv := by simp only [Dev.satFld, Dev.setFld_dlv]
@[simp] theorem Dev.satFld_eth (d : Dev) (a hi lo n : Nat) : (d.satFld a hi lo n).eth = d.eth := by simp only [Dev.satFld, Dev.setFld_eth]
@[simp] theorem Dev.satFld_par (d : Dev) (a hi lo n : Nat) : (d.satFld a hi lo n).par = d.par := by simp only [Dev.satFld, Dev.setFld_par]
@[simp] theorem Dev.satFld_qm (d : Dev) (a hi lo n : Nat) : (d.satFld a hi lo n).qm = d.qm := by simp only [Dev.satFld, Dev.setFld_qm]
@[simp] theorem Dev.satFld_mem (d : Dev) (a hi lo n : Nat) : (d.satFld a hi lo n).mem = d.mem := by simp only [Dev.satFld, Dev.setFld_mem]
@[simp] theorem Dev.satFld_prot (d : Dev) (a hi lo n : Nat) : (d.satFld a hi lo n).prot = d.prot := by simp only [Dev.satFld, Dev.setFld_prot]
@[simp] theorem Dev.satFld_bun (d : Dev) (a hi lo n : Nat) : (d.satFld a hi lo n).bun = d.bun := by simp only [Dev.satFld, Dev.setFld_bun]
@[simp] theorem Dev.satFld_dma (d : Dev) (a hi lo n : Nat) : (d.satFld a hi lo n).dma = d.dma := by simp only [Dev.satFld, Dev.setFld_dma]
@[simp] theorem Dev.satFld_mgmt (d : Dev) (a hi lo n : Nat) : (d.satFld a hi lo n).mgmt = d.mgmt := by simp only [Dev.satFld, Dev.setFld_mgmt]
@[simp] theorem Dev.satFld_pm (d : Dev) (a hi lo n : Nat) : (d.satFld a hi lo n).pm = d.pm := by simp only [Dev.satFld, Dev.setFld_pm]
@[simp] theorem Dev.satFld_pins (d : Dev) (a hi lo n : Nat) : (d.satFld a hi lo n).pins = d.pins := by simp only [Dev.satFld, Dev.setFld_pins]
@[simp] theorem Dev.satFld_freeCtr (d : Dev) (a hi lo n : Nat) : (d.satFld a hi lo n).freeCtr = d.freeCtr := by simp only [Dev.satFld, Dev.setFld_freeCtr]
@[simp] theorem Dev.satFld_out (d : Dev) (a hi lo n : Nat) : (d.satFld a hi lo n).out = d.out := by simp only [Dev.satFld, Dev.setFld_out]

@[simp] theorem Dev.reject_staged (d : Dev) (w : Nat) : (d.reject w).staged = d.staged := by simp only [Dev.reject, Dev.setEvent_staged]
@[simp] theorem Dev.reject_applied (d : Dev) (w : Nat) : (d.reject w).applied = d.applied := by simp only [Dev.reject, Dev.setEvent_applied]
@[simp] theorem Dev.reject_tb (d : Dev) (w : Nat) : (d.reject w).tb = d.tb := by simp only [Dev.reject, Dev.setEvent_tb]
@[simp] theorem Dev.reject_host (d : Dev) (w : Nat) : (d.reject w).host = d.host := by simp only [Dev.reject, Dev.setEvent_host]
@[simp] theorem Dev.reject_hostMem (d : Dev) (w : Nat) : (d.reject w).hostMem = d.hostMem := by simp only [Dev.reject, Dev.setEvent_hostMem]
@[simp] theorem Dev.reject_dataMem (d : Dev) (w : Nat) : (d.reject w).dataMem = d.dataMem := by simp only [Dev.reject, Dev.setEvent_dataMem]
@[simp] theorem Dev.reject_intc (d : Dev) (w : Nat) : (d.reject w).intc = d.intc := by simp only [Dev.reject, Dev.setEvent_intc]
@[simp] theorem Dev.reject_fc (d : Dev) (w : Nat) : (d.reject w).fc = d.fc := by simp only [Dev.reject, Dev.setEvent_fc]
@[simp] theorem Dev.reject_media (d : Dev) (w : Nat) : (d.reject w).media = d.media := by simp only [Dev.reject, Dev.setEvent_media]
@[simp] theorem Dev.reject_dlv (d : Dev) (w : Nat) : (d.reject w).dlv = d.dlv := by simp only [Dev.reject, Dev.setEvent_dlv]
@[simp] theorem Dev.reject_eth (d : Dev) (w : Nat) : (d.reject w).eth = d.eth := by simp only [Dev.reject, Dev.setEvent_eth]
@[simp] theorem Dev.reject_par (d : Dev) (w : Nat) : (d.reject w).par = d.par := by simp only [Dev.reject, Dev.setEvent_par]
@[simp] theorem Dev.reject_qm (d : Dev) (w : Nat) : (d.reject w).qm = d.qm := by simp only [Dev.reject, Dev.setEvent_qm]
@[simp] theorem Dev.reject_mem (d : Dev) (w : Nat) : (d.reject w).mem = d.mem := by simp only [Dev.reject, Dev.setEvent_mem]
@[simp] theorem Dev.reject_prot (d : Dev) (w : Nat) : (d.reject w).prot = d.prot := by simp only [Dev.reject, Dev.setEvent_prot]
@[simp] theorem Dev.reject_bun (d : Dev) (w : Nat) : (d.reject w).bun = d.bun := by simp only [Dev.reject, Dev.setEvent_bun]
@[simp] theorem Dev.reject_dma (d : Dev) (w : Nat) : (d.reject w).dma = d.dma := by simp only [Dev.reject, Dev.setEvent_dma]
@[simp] theorem Dev.reject_mgmt (d : Dev) (w : Nat) : (d.reject w).mgmt = d.mgmt := by simp only [Dev.reject, Dev.setEvent_mgmt]
@[simp] theorem Dev.reject_pm (d : Dev) (w : Nat) : (d.reject w).pm = d.pm := by simp only [Dev.reject, Dev.setEvent_pm]
@[simp] theorem Dev.reject_pins (d : Dev) (w : Nat) : (d.reject w).pins = d.pins := by simp only [Dev.reject, Dev.setEvent_pins]
@[simp] theorem Dev.reject_freeCtr (d : Dev) (w : Nat) : (d.reject w).freeCtr = d.freeCtr := by simp only [Dev.reject, Dev.setEvent_freeCtr]
@[simp] theorem Dev.reject_out (d : Dev) (w : Nat) : (d.reject w).out = d.out := by simp only [Dev.reject, Dev.setEvent_out]

/-! ### What a register reads as -/

/-- A register after a write to any register. -/
theorem Dev.reg_setReg (d : Dev) (a v b : Nat) : (d.setReg a v).reg b = if a = b then v % 2 ^ 32 else d.reg b := by
  unfold Dev.reg Dev.regW Dev.setReg
  by_cases h : a = b
  · subst h; rw [SMap.get_set_self, if_pos rfl, BitVec.toNat_ofNat]
  · rw [SMap.get_set_ne _ _ h, if_neg h]

@[simp] theorem Dev.reg_setReg_self (d : Dev) (a v : Nat) : (d.setReg a v).reg a = v % 2 ^ 32 := by
  rw [Dev.reg_setReg, if_pos rfl]

theorem Dev.reg_setReg_ne (d : Dev) {a b : Nat} (h : a ≠ b) (v : Nat) : (d.setReg a v).reg b = d.reg b := by
  rw [Dev.reg_setReg, if_neg h]

theorem Dev.reg_setFld_ne (d : Dev) {a b : Nat} (h : a ≠ b) (hi lo x : Nat) : (d.setFld a hi lo x).reg b = d.reg b :=
  d.reg_setReg_ne h _

theorem Dev.reg_setFlag_ne (d : Dev) {a b : Nat} (h : a ≠ b) (k : Nat) (on : Bool) :
    (d.setFlag a k on).reg b = d.reg b := d.reg_setFld_ne h k k _

theorem Dev.reg_setEvents_ne (d : Dev) {a b : Nat} (h : a ≠ b) (m : Nat) : (d.setEvents a m).reg b = d.reg b := by
  unfold Dev.setEvents
  split
  · rfl
  · exact d.reg_setReg_ne h _

theorem Dev.reg_setEvent_ne (d : Dev) {a b : Nat} (h : a ≠ b) (k : Nat) : (d.setEvent a k).reg b = d.reg b :=
  d.reg_setEvents_ne h _

theorem Dev.reg_count_ne (d : Dev) {a b : Nat} (h : a ≠ b) (n : Nat) : (d.count a n).reg b = d.reg b :=
  d.reg_setReg_ne h _

/-- A register depends on the register file alone. -/
theorem Dev.reg_congr {d e : Dev} (h : d.regs = e.regs) (a : Nat) : d.reg a = e.reg a := by
  unfold Dev.reg Dev.regW; rw [h]

/-! ### What the other shared operations leave alone -/

@[simp] theorem Dev.emit_regs (d : Dev) (o : Output) : (d.emit o).regs = d.regs := d.withOut_regs _
@[simp] theorem Dev.emit_staged (d : Dev) (o : Output) : (d.emit o).staged = d.staged := d.withOut_staged _
@[simp] theorem Dev.emit_applied (d : Dev) (o : Output) : (d.emit o).applied = d.applied := d.withOut_applied _
@[simp] theorem Dev.emit_tb (d : Dev) (o : Output) : (d.emit o).tb = d.tb := d.withOut_tb _
@[simp] theorem Dev.emit_host (d : Dev) (o : Output) : (d.emit o).host = d.host := d.withOut_host _
@[simp] theorem Dev.emit_hostMem (d : Dev) (o : Output) : (d.emit o).hostMem = d.hostMem := d.withOut_hostMem _
@[simp] theorem Dev.emit_dataMem (d : Dev) (o : Output) : (d.emit o).dataMem = d.dataMem := d.withOut_dataMem _
@[simp] theorem Dev.emit_intc (d : Dev) (o : Output) : (d.emit o).intc = d.intc := d.withOut_intc _
@[simp] theorem Dev.emit_fc (d : Dev) (o : Output) : (d.emit o).fc = d.fc := d.withOut_fc _
@[simp] theorem Dev.emit_media (d : Dev) (o : Output) : (d.emit o).media = d.media := d.withOut_media _
@[simp] theorem Dev.emit_dlv (d : Dev) (o : Output) : (d.emit o).dlv = d.dlv := d.withOut_dlv _
@[simp] theorem Dev.emit_eth (d : Dev) (o : Output) : (d.emit o).eth = d.eth := d.withOut_eth _
@[simp] theorem Dev.emit_par (d : Dev) (o : Output) : (d.emit o).par = d.par := d.withOut_par _
@[simp] theorem Dev.emit_qm (d : Dev) (o : Output) : (d.emit o).qm = d.qm := d.withOut_qm _
@[simp] theorem Dev.emit_mem (d : Dev) (o : Output) : (d.emit o).mem = d.mem := d.withOut_mem _
@[simp] theorem Dev.emit_prot (d : Dev) (o : Output) : (d.emit o).prot = d.prot := d.withOut_prot _
@[simp] theorem Dev.emit_bun (d : Dev) (o : Output) : (d.emit o).bun = d.bun := d.withOut_bun _
@[simp] theorem Dev.emit_dma (d : Dev) (o : Output) : (d.emit o).dma = d.dma := d.withOut_dma _
@[simp] theorem Dev.emit_mgmt (d : Dev) (o : Output) : (d.emit o).mgmt = d.mgmt := d.withOut_mgmt _
@[simp] theorem Dev.emit_pm (d : Dev) (o : Output) : (d.emit o).pm = d.pm := d.withOut_pm _
@[simp] theorem Dev.emit_pins (d : Dev) (o : Output) : (d.emit o).pins = d.pins := d.withOut_pins _
@[simp] theorem Dev.emit_freeCtr (d : Dev) (o : Output) : (d.emit o).freeCtr = d.freeCtr := d.withOut_freeCtr _

@[simp] theorem Dev.useFree_regs (d : Dev) : (d.useFree).regs = d.regs := d.withFreeCtr_regs _
@[simp] theorem Dev.useFree_staged (d : Dev) : (d.useFree).staged = d.staged := d.withFreeCtr_staged _
@[simp] theorem Dev.useFree_applied (d : Dev) : (d.useFree).applied = d.applied := d.withFreeCtr_applied _
@[simp] theorem Dev.useFree_tb (d : Dev) : (d.useFree).tb = d.tb := d.withFreeCtr_tb _
@[simp] theorem Dev.useFree_host (d : Dev) : (d.useFree).host = d.host := d.withFreeCtr_host _
@[simp] theorem Dev.useFree_hostMem (d : Dev) : (d.useFree).hostMem = d.hostMem := d.withFreeCtr_hostMem _
@[simp] theorem Dev.useFree_dataMem (d : Dev) : (d.useFree).dataMem = d.dataMem := d.withFreeCtr_dataMem _
@[simp] theorem Dev.useFree_intc (d : Dev) : (d.useFree).intc = d.intc := d.withFreeCtr_intc _
@[simp] theorem Dev.useFree_fc (d : Dev) : (d.useFree).fc = d.fc := d.withFreeCtr_fc _
@[simp] theorem Dev.useFree_media (d : Dev) : (d.useFree).media = d.media := d.withFreeCtr_media _
@[simp] theorem Dev.useFree_dlv (d : Dev) : (d.useFree).dlv = d.dlv := d.withFreeCtr_dlv _
@[simp] theorem Dev.useFree_eth (d : Dev) : (d.useFree).eth = d.eth := d.withFreeCtr_eth _
@[simp] theorem Dev.useFree_par (d : Dev) : (d.useFree).par = d.par := d.withFreeCtr_par _
@[simp] theorem Dev.useFree_qm (d : Dev) : (d.useFree).qm = d.qm := d.withFreeCtr_qm _
@[simp] theorem Dev.useFree_mem (d : Dev) : (d.useFree).mem = d.mem := d.withFreeCtr_mem _
@[simp] theorem Dev.useFree_prot (d : Dev) : (d.useFree).prot = d.prot := d.withFreeCtr_prot _
@[simp] theorem Dev.useFree_bun (d : Dev) : (d.useFree).bun = d.bun := d.withFreeCtr_bun _
@[simp] theorem Dev.useFree_dma (d : Dev) : (d.useFree).dma = d.dma := d.withFreeCtr_dma _
@[simp] theorem Dev.useFree_mgmt (d : Dev) : (d.useFree).mgmt = d.mgmt := d.withFreeCtr_mgmt _
@[simp] theorem Dev.useFree_pm (d : Dev) : (d.useFree).pm = d.pm := d.withFreeCtr_pm _
@[simp] theorem Dev.useFree_pins (d : Dev) : (d.useFree).pins = d.pins := d.withFreeCtr_pins _
@[simp] theorem Dev.useFree_out (d : Dev) : (d.useFree).out = d.out := d.withFreeCtr_out _

@[simp] theorem Dev.hostWrite_regs (d : Dev) (a : Nat) (l : List Byte) : (d.hostWrite a l).regs = d.regs := d.withHostMem_regs _
@[simp] theorem Dev.hostWrite_staged (d : Dev) (a : Nat) (l : List Byte) : (d.hostWrite a l).staged = d.staged := d.withHostMem_staged _
@[simp] theorem Dev.hostWrite_applied (d : Dev) (a : Nat) (l : List Byte) : (d.hostWrite a l).applied = d.applied := d.withHostMem_applied _
@[simp] theorem Dev.hostWrite_tb (d : Dev) (a : Nat) (l : List Byte) : (d.hostWrite a l).tb = d.tb := d.withHostMem_tb _
@[simp] theorem Dev.hostWrite_host (d : Dev) (a : Nat) (l : List Byte) : (d.hostWrite a l).host = d.host := d.withHostMem_host _
@[simp] theorem Dev.hostWrite_dataMem (d : Dev) (a : Nat) (l : List Byte) : (d.hostWrite a l).dataMem = d.dataMem := d.withHostMem_dataMem _
@[simp] theorem Dev.hostWrite_intc (d : Dev) (a : Nat) (l : List Byte) : (d.hostWrite a l).intc = d.intc := d.withHostMem_intc _
@[simp] theorem Dev.hostWrite_fc (d : Dev) (a : Nat) (l : List Byte) : (d.hostWrite a l).fc = d.fc := d.withHostMem_fc _
@[simp] theorem Dev.hostWrite_media (d : Dev) (a : Nat) (l : List Byte) : (d.hostWrite a l).media = d.media := d.withHostMem_media _
@[simp] theorem Dev.hostWrite_dlv (d : Dev) (a : Nat) (l : List Byte) : (d.hostWrite a l).dlv = d.dlv := d.withHostMem_dlv _
@[simp] theorem Dev.hostWrite_eth (d : Dev) (a : Nat) (l : List Byte) : (d.hostWrite a l).eth = d.eth := d.withHostMem_eth _
@[simp] theorem Dev.hostWrite_par (d : Dev) (a : Nat) (l : List Byte) : (d.hostWrite a l).par = d.par := d.withHostMem_par _
@[simp] theorem Dev.hostWrite_qm (d : Dev) (a : Nat) (l : List Byte) : (d.hostWrite a l).qm = d.qm := d.withHostMem_qm _
@[simp] theorem Dev.hostWrite_mem (d : Dev) (a : Nat) (l : List Byte) : (d.hostWrite a l).mem = d.mem := d.withHostMem_mem _
@[simp] theorem Dev.hostWrite_prot (d : Dev) (a : Nat) (l : List Byte) : (d.hostWrite a l).prot = d.prot := d.withHostMem_prot _
@[simp] theorem Dev.hostWrite_bun (d : Dev) (a : Nat) (l : List Byte) : (d.hostWrite a l).bun = d.bun := d.withHostMem_bun _
@[simp] theorem Dev.hostWrite_dma (d : Dev) (a : Nat) (l : List Byte) : (d.hostWrite a l).dma = d.dma := d.withHostMem_dma _
@[simp] theorem Dev.hostWrite_mgmt (d : Dev) (a : Nat) (l : List Byte) : (d.hostWrite a l).mgmt = d.mgmt := d.withHostMem_mgmt _
@[simp] theorem Dev.hostWrite_pm (d : Dev) (a : Nat) (l : List Byte) : (d.hostWrite a l).pm = d.pm := d.withHostMem_pm _
@[simp] theorem Dev.hostWrite_pins (d : Dev) (a : Nat) (l : List Byte) : (d.hostWrite a l).pins = d.pins := d.withHostMem_pins _
@[simp] theorem Dev.hostWrite_freeCtr (d : Dev) (a : Nat) (l : List Byte) : (d.hostWrite a l).freeCtr = d.freeCtr := d.withHostMem_freeCtr _
@[simp] theorem Dev.hostWrite_out (d : Dev) (a : Nat) (l : List Byte) : (d.hostWrite a l).out = d.out := d.withHostMem_out _

@[simp] theorem Dev.dataPut_regs (d : Dev) (a : Nat) (l : List Byte) : (d.dataPut a l).regs = d.regs := d.withDataMem_regs _
@[simp] theorem Dev.dataPut_staged (d : Dev) (a : Nat) (l : List Byte) : (d.dataPut a l).staged = d.staged := d.withDataMem_staged _
@[simp] theorem Dev.dataPut_applied (d : Dev) (a : Nat) (l : List Byte) : (d.dataPut a l).applied = d.applied := d.withDataMem_applied _
@[simp] theorem Dev.dataPut_tb (d : Dev) (a : Nat) (l : List Byte) : (d.dataPut a l).tb = d.tb := d.withDataMem_tb _
@[simp] theorem Dev.dataPut_host (d : Dev) (a : Nat) (l : List Byte) : (d.dataPut a l).host = d.host := d.withDataMem_host _
@[simp] theorem Dev.dataPut_hostMem (d : Dev) (a : Nat) (l : List Byte) : (d.dataPut a l).hostMem = d.hostMem := d.withDataMem_hostMem _
@[simp] theorem Dev.dataPut_intc (d : Dev) (a : Nat) (l : List Byte) : (d.dataPut a l).intc = d.intc := d.withDataMem_intc _
@[simp] theorem Dev.dataPut_fc (d : Dev) (a : Nat) (l : List Byte) : (d.dataPut a l).fc = d.fc := d.withDataMem_fc _
@[simp] theorem Dev.dataPut_media (d : Dev) (a : Nat) (l : List Byte) : (d.dataPut a l).media = d.media := d.withDataMem_media _
@[simp] theorem Dev.dataPut_dlv (d : Dev) (a : Nat) (l : List Byte) : (d.dataPut a l).dlv = d.dlv := d.withDataMem_dlv _
@[simp] theorem Dev.dataPut_eth (d : Dev) (a : Nat) (l : List Byte) : (d.dataPut a l).eth = d.eth := d.withDataMem_eth _
@[simp] theorem Dev.dataPut_par (d : Dev) (a : Nat) (l : List Byte) : (d.dataPut a l).par = d.par := d.withDataMem_par _
@[simp] theorem Dev.dataPut_qm (d : Dev) (a : Nat) (l : List Byte) : (d.dataPut a l).qm = d.qm := d.withDataMem_qm _
@[simp] theorem Dev.dataPut_mem (d : Dev) (a : Nat) (l : List Byte) : (d.dataPut a l).mem = d.mem := d.withDataMem_mem _
@[simp] theorem Dev.dataPut_prot (d : Dev) (a : Nat) (l : List Byte) : (d.dataPut a l).prot = d.prot := d.withDataMem_prot _
@[simp] theorem Dev.dataPut_bun (d : Dev) (a : Nat) (l : List Byte) : (d.dataPut a l).bun = d.bun := d.withDataMem_bun _
@[simp] theorem Dev.dataPut_dma (d : Dev) (a : Nat) (l : List Byte) : (d.dataPut a l).dma = d.dma := d.withDataMem_dma _
@[simp] theorem Dev.dataPut_mgmt (d : Dev) (a : Nat) (l : List Byte) : (d.dataPut a l).mgmt = d.mgmt := d.withDataMem_mgmt _
@[simp] theorem Dev.dataPut_pm (d : Dev) (a : Nat) (l : List Byte) : (d.dataPut a l).pm = d.pm := d.withDataMem_pm _
@[simp] theorem Dev.dataPut_pins (d : Dev) (a : Nat) (l : List Byte) : (d.dataPut a l).pins = d.pins := d.withDataMem_pins _
@[simp] theorem Dev.dataPut_freeCtr (d : Dev) (a : Nat) (l : List Byte) : (d.dataPut a l).freeCtr = d.freeCtr := d.withDataMem_freeCtr _
@[simp] theorem Dev.dataPut_out (d : Dev) (a : Nat) (l : List Byte) : (d.dataPut a l).out = d.out := d.withDataMem_out _

@[simp] theorem Dev.setTile_regs (d : Dev) (t : Nat) (x : Tile) : (d.setTile t x).regs = d.regs := d.withMedia_regs _
@[simp] theorem Dev.setTile_staged (d : Dev) (t : Nat) (x : Tile) : (d.setTile t x).staged = d.staged := d.withMedia_staged _
@[simp] theorem Dev.setTile_applied (d : Dev) (t : Nat) (x : Tile) : (d.setTile t x).applied = d.applied := d.withMedia_applied _
@[simp] theorem Dev.setTile_tb (d : Dev) (t : Nat) (x : Tile) : (d.setTile t x).tb = d.tb := d.withMedia_tb _
@[simp] theorem Dev.setTile_host (d : Dev) (t : Nat) (x : Tile) : (d.setTile t x).host = d.host := d.withMedia_host _
@[simp] theorem Dev.setTile_hostMem (d : Dev) (t : Nat) (x : Tile) : (d.setTile t x).hostMem = d.hostMem := d.withMedia_hostMem _
@[simp] theorem Dev.setTile_dataMem (d : Dev) (t : Nat) (x : Tile) : (d.setTile t x).dataMem = d.dataMem := d.withMedia_dataMem _
@[simp] theorem Dev.setTile_intc (d : Dev) (t : Nat) (x : Tile) : (d.setTile t x).intc = d.intc := d.withMedia_intc _
@[simp] theorem Dev.setTile_fc (d : Dev) (t : Nat) (x : Tile) : (d.setTile t x).fc = d.fc := d.withMedia_fc _
@[simp] theorem Dev.setTile_dlv (d : Dev) (t : Nat) (x : Tile) : (d.setTile t x).dlv = d.dlv := d.withMedia_dlv _
@[simp] theorem Dev.setTile_eth (d : Dev) (t : Nat) (x : Tile) : (d.setTile t x).eth = d.eth := d.withMedia_eth _
@[simp] theorem Dev.setTile_par (d : Dev) (t : Nat) (x : Tile) : (d.setTile t x).par = d.par := d.withMedia_par _
@[simp] theorem Dev.setTile_qm (d : Dev) (t : Nat) (x : Tile) : (d.setTile t x).qm = d.qm := d.withMedia_qm _
@[simp] theorem Dev.setTile_mem (d : Dev) (t : Nat) (x : Tile) : (d.setTile t x).mem = d.mem := d.withMedia_mem _
@[simp] theorem Dev.setTile_prot (d : Dev) (t : Nat) (x : Tile) : (d.setTile t x).prot = d.prot := d.withMedia_prot _
@[simp] theorem Dev.setTile_bun (d : Dev) (t : Nat) (x : Tile) : (d.setTile t x).bun = d.bun := d.withMedia_bun _
@[simp] theorem Dev.setTile_dma (d : Dev) (t : Nat) (x : Tile) : (d.setTile t x).dma = d.dma := d.withMedia_dma _
@[simp] theorem Dev.setTile_mgmt (d : Dev) (t : Nat) (x : Tile) : (d.setTile t x).mgmt = d.mgmt := d.withMedia_mgmt _
@[simp] theorem Dev.setTile_pm (d : Dev) (t : Nat) (x : Tile) : (d.setTile t x).pm = d.pm := d.withMedia_pm _
@[simp] theorem Dev.setTile_pins (d : Dev) (t : Nat) (x : Tile) : (d.setTile t x).pins = d.pins := d.withMedia_pins _
@[simp] theorem Dev.setTile_freeCtr (d : Dev) (t : Nat) (x : Tile) : (d.setTile t x).freeCtr = d.freeCtr := d.withMedia_freeCtr _
@[simp] theorem Dev.setTile_out (d : Dev) (t : Nat) (x : Tile) : (d.setTile t x).out = d.out := d.withMedia_out _

@[simp] theorem Dev.setCtl_regs (d : Dev) (k : Nat) (x : MemCtl) : (d.setCtl k x).regs = d.regs := d.withMem_regs _
@[simp] theorem Dev.setCtl_staged (d : Dev) (k : Nat) (x : MemCtl) : (d.setCtl k x).staged = d.staged := d.withMem_staged _
@[simp] theorem Dev.setCtl_applied (d : Dev) (k : Nat) (x : MemCtl) : (d.setCtl k x).applied = d.applied := d.withMem_applied _
@[simp] theorem Dev.setCtl_tb (d : Dev) (k : Nat) (x : MemCtl) : (d.setCtl k x).tb = d.tb := d.withMem_tb _
@[simp] theorem Dev.setCtl_host (d : Dev) (k : Nat) (x : MemCtl) : (d.setCtl k x).host = d.host := d.withMem_host _
@[simp] theorem Dev.setCtl_hostMem (d : Dev) (k : Nat) (x : MemCtl) : (d.setCtl k x).hostMem = d.hostMem := d.withMem_hostMem _
@[simp] theorem Dev.setCtl_dataMem (d : Dev) (k : Nat) (x : MemCtl) : (d.setCtl k x).dataMem = d.dataMem := d.withMem_dataMem _
@[simp] theorem Dev.setCtl_intc (d : Dev) (k : Nat) (x : MemCtl) : (d.setCtl k x).intc = d.intc := d.withMem_intc _
@[simp] theorem Dev.setCtl_fc (d : Dev) (k : Nat) (x : MemCtl) : (d.setCtl k x).fc = d.fc := d.withMem_fc _
@[simp] theorem Dev.setCtl_media (d : Dev) (k : Nat) (x : MemCtl) : (d.setCtl k x).media = d.media := d.withMem_media _
@[simp] theorem Dev.setCtl_dlv (d : Dev) (k : Nat) (x : MemCtl) : (d.setCtl k x).dlv = d.dlv := d.withMem_dlv _
@[simp] theorem Dev.setCtl_eth (d : Dev) (k : Nat) (x : MemCtl) : (d.setCtl k x).eth = d.eth := d.withMem_eth _
@[simp] theorem Dev.setCtl_par (d : Dev) (k : Nat) (x : MemCtl) : (d.setCtl k x).par = d.par := d.withMem_par _
@[simp] theorem Dev.setCtl_qm (d : Dev) (k : Nat) (x : MemCtl) : (d.setCtl k x).qm = d.qm := d.withMem_qm _
@[simp] theorem Dev.setCtl_prot (d : Dev) (k : Nat) (x : MemCtl) : (d.setCtl k x).prot = d.prot := d.withMem_prot _
@[simp] theorem Dev.setCtl_bun (d : Dev) (k : Nat) (x : MemCtl) : (d.setCtl k x).bun = d.bun := d.withMem_bun _
@[simp] theorem Dev.setCtl_dma (d : Dev) (k : Nat) (x : MemCtl) : (d.setCtl k x).dma = d.dma := d.withMem_dma _
@[simp] theorem Dev.setCtl_mgmt (d : Dev) (k : Nat) (x : MemCtl) : (d.setCtl k x).mgmt = d.mgmt := d.withMem_mgmt _
@[simp] theorem Dev.setCtl_pm (d : Dev) (k : Nat) (x : MemCtl) : (d.setCtl k x).pm = d.pm := d.withMem_pm _
@[simp] theorem Dev.setCtl_pins (d : Dev) (k : Nat) (x : MemCtl) : (d.setCtl k x).pins = d.pins := d.withMem_pins _
@[simp] theorem Dev.setCtl_freeCtr (d : Dev) (k : Nat) (x : MemCtl) : (d.setCtl k x).freeCtr = d.freeCtr := d.withMem_freeCtr _
@[simp] theorem Dev.setCtl_out (d : Dev) (k : Nat) (x : MemCtl) : (d.setCtl k x).out = d.out := d.withMem_out _

@[simp] theorem Dev.condEnd_regs (d : Dev) (k : Nat) : (d.condEnd k).regs = d.regs := d.withFc_regs _
@[simp] theorem Dev.condEnd_staged (d : Dev) (k : Nat) : (d.condEnd k).staged = d.staged := d.withFc_staged _
@[simp] theorem Dev.condEnd_applied (d : Dev) (k : Nat) : (d.condEnd k).applied = d.applied := d.withFc_applied _
@[simp] theorem Dev.condEnd_tb (d : Dev) (k : Nat) : (d.condEnd k).tb = d.tb := d.withFc_tb _
@[simp] theorem Dev.condEnd_host (d : Dev) (k : Nat) : (d.condEnd k).host = d.host := d.withFc_host _
@[simp] theorem Dev.condEnd_hostMem (d : Dev) (k : Nat) : (d.condEnd k).hostMem = d.hostMem := d.withFc_hostMem _
@[simp] theorem Dev.condEnd_dataMem (d : Dev) (k : Nat) : (d.condEnd k).dataMem = d.dataMem := d.withFc_dataMem _
@[simp] theorem Dev.condEnd_intc (d : Dev) (k : Nat) : (d.condEnd k).intc = d.intc := d.withFc_intc _
@[simp] theorem Dev.condEnd_media (d : Dev) (k : Nat) : (d.condEnd k).media = d.media := d.withFc_media _
@[simp] theorem Dev.condEnd_dlv (d : Dev) (k : Nat) : (d.condEnd k).dlv = d.dlv := d.withFc_dlv _
@[simp] theorem Dev.condEnd_eth (d : Dev) (k : Nat) : (d.condEnd k).eth = d.eth := d.withFc_eth _
@[simp] theorem Dev.condEnd_par (d : Dev) (k : Nat) : (d.condEnd k).par = d.par := d.withFc_par _
@[simp] theorem Dev.condEnd_qm (d : Dev) (k : Nat) : (d.condEnd k).qm = d.qm := d.withFc_qm _
@[simp] theorem Dev.condEnd_mem (d : Dev) (k : Nat) : (d.condEnd k).mem = d.mem := d.withFc_mem _
@[simp] theorem Dev.condEnd_prot (d : Dev) (k : Nat) : (d.condEnd k).prot = d.prot := d.withFc_prot _
@[simp] theorem Dev.condEnd_bun (d : Dev) (k : Nat) : (d.condEnd k).bun = d.bun := d.withFc_bun _
@[simp] theorem Dev.condEnd_dma (d : Dev) (k : Nat) : (d.condEnd k).dma = d.dma := d.withFc_dma _
@[simp] theorem Dev.condEnd_mgmt (d : Dev) (k : Nat) : (d.condEnd k).mgmt = d.mgmt := d.withFc_mgmt _
@[simp] theorem Dev.condEnd_pm (d : Dev) (k : Nat) : (d.condEnd k).pm = d.pm := d.withFc_pm _
@[simp] theorem Dev.condEnd_pins (d : Dev) (k : Nat) : (d.condEnd k).pins = d.pins := d.withFc_pins _
@[simp] theorem Dev.condEnd_freeCtr (d : Dev) (k : Nat) : (d.condEnd k).freeCtr = d.freeCtr := d.withFc_freeCtr _
@[simp] theorem Dev.condEnd_out (d : Dev) (k : Nat) : (d.condEnd k).out = d.out := d.withFc_out _

@[simp] theorem Dev.cyclesPass_regs (d : Dev) (n : Nat) : (d.cyclesPass n).regs = d.regs := rfl
@[simp] theorem Dev.cyclesPass_staged (d : Dev) (n : Nat) : (d.cyclesPass n).staged = d.staged := rfl
@[simp] theorem Dev.cyclesPass_applied (d : Dev) (n : Nat) : (d.cyclesPass n).applied = d.applied := rfl
@[simp] theorem Dev.cyclesPass_host (d : Dev) (n : Nat) : (d.cyclesPass n).host = d.host := rfl
@[simp] theorem Dev.cyclesPass_hostMem (d : Dev) (n : Nat) : (d.cyclesPass n).hostMem = d.hostMem := rfl
@[simp] theorem Dev.cyclesPass_dataMem (d : Dev) (n : Nat) : (d.cyclesPass n).dataMem = d.dataMem := rfl
@[simp] theorem Dev.cyclesPass_intc (d : Dev) (n : Nat) : (d.cyclesPass n).intc = d.intc := rfl
@[simp] theorem Dev.cyclesPass_fc (d : Dev) (n : Nat) : (d.cyclesPass n).fc = d.fc := rfl
@[simp] theorem Dev.cyclesPass_media (d : Dev) (n : Nat) : (d.cyclesPass n).media = d.media := rfl
@[simp] theorem Dev.cyclesPass_dlv (d : Dev) (n : Nat) : (d.cyclesPass n).dlv = d.dlv := rfl
@[simp] theorem Dev.cyclesPass_eth (d : Dev) (n : Nat) : (d.cyclesPass n).eth = d.eth := rfl
@[simp] theorem Dev.cyclesPass_par (d : Dev) (n : Nat) : (d.cyclesPass n).par = d.par := rfl
@[simp] theorem Dev.cyclesPass_qm (d : Dev) (n : Nat) : (d.cyclesPass n).qm = d.qm := rfl
@[simp] theorem Dev.cyclesPass_mem (d : Dev) (n : Nat) : (d.cyclesPass n).mem = d.mem := rfl
@[simp] theorem Dev.cyclesPass_prot (d : Dev) (n : Nat) : (d.cyclesPass n).prot = d.prot := rfl
@[simp] theorem Dev.cyclesPass_bun (d : Dev) (n : Nat) : (d.cyclesPass n).bun = d.bun := rfl
@[simp] theorem Dev.cyclesPass_dma (d : Dev) (n : Nat) : (d.cyclesPass n).dma = d.dma := rfl
@[simp] theorem Dev.cyclesPass_mgmt (d : Dev) (n : Nat) : (d.cyclesPass n).mgmt = d.mgmt := rfl
@[simp] theorem Dev.cyclesPass_porN (d : Dev) (n : Nat) : (d.cyclesPass n).pins.porN = d.pins.porN := rfl
@[simp] theorem Dev.cyclesPass_perstN (d : Dev) (n : Nat) : (d.cyclesPass n).pins.perstN = d.pins.perstN := rfl
@[simp] theorem Dev.cyclesPass_sysResetN (d : Dev) (n : Nat) : (d.cyclesPass n).pins.sysResetN = d.pins.sysResetN := rfl
@[simp] theorem Dev.cyclesPass_pinStraps (d : Dev) (n : Nat) : (d.cyclesPass n).pins.pinStraps = d.pins.pinStraps := rfl
@[simp] theorem Dev.cyclesPass_inReset (d : Dev) (n : Nat) : (d.cyclesPass n).pins.inReset = d.pins.inReset := rfl
@[simp] theorem Dev.cyclesPass_thermalHold (d : Dev) (n : Nat) : (d.cyclesPass n).pins.thermalHold = d.pins.thermalHold := rfl
@[simp] theorem Dev.cyclesPass_internal (d : Dev) (n : Nat) : (d.cyclesPass n).pins.internal = d.pins.internal := rfl
@[simp] theorem Dev.cyclesPass_dreq (d : Dev) (n : Nat) : (d.cyclesPass n).pins.dreq = d.pins.dreq := rfl
@[simp] theorem Dev.cyclesPass_smbAlert (d : Dev) (n : Nat) : (d.cyclesPass n).pins.smbAlert = d.pins.smbAlert := rfl
@[simp] theorem Dev.cyclesPass_wakeN (d : Dev) (n : Nat) : (d.cyclesPass n).pins.wakeN = d.pins.wakeN := rfl
@[simp] theorem Dev.cyclesPass_faultN (d : Dev) (n : Nat) : (d.cyclesPass n).pins.faultN = d.pins.faultN := rfl
@[simp] theorem Dev.cyclesPass_fatalStop (d : Dev) (n : Nat) : (d.cyclesPass n).pins.fatalStop = d.pins.fatalStop := rfl
@[simp] theorem Dev.cyclesPass_jtagIr (d : Dev) (n : Nat) : (d.cyclesPass n).pins.jtagIr = d.pins.jtagIr := rfl
@[simp] theorem Dev.cyclesPass_bsr (d : Dev) (n : Nat) : (d.cyclesPass n).pins.bsr = d.pins.bsr := rfl
@[simp] theorem Dev.cyclesPass_debugOpen (d : Dev) (n : Nat) : (d.cyclesPass n).pins.debugOpen = d.pins.debugOpen := rfl
@[simp] theorem Dev.cyclesPass_freeCtr (d : Dev) (n : Nat) : (d.cyclesPass n).freeCtr = d.freeCtr := rfl
@[simp] theorem Dev.cyclesPass_out (d : Dev) (n : Nat) : (d.cyclesPass n).out = d.out := rfl

@[simp] theorem Dev.advanceTo_regs (d : Dev) (t : Nat) : (d.advanceTo t).regs = d.regs := by simp only [Dev.advanceTo, apply_ite Dev.regs, Dev.cyclesPass_regs, ite_self]
@[simp] theorem Dev.advanceTo_staged (d : Dev) (t : Nat) : (d.advanceTo t).staged = d.staged := by simp only [Dev.advanceTo, apply_ite Dev.staged, Dev.cyclesPass_staged, ite_self]
@[simp] theorem Dev.advanceTo_applied (d : Dev) (t : Nat) : (d.advanceTo t).applied = d.applied := by simp only [Dev.advanceTo, apply_ite Dev.applied, Dev.cyclesPass_applied, ite_self]
@[simp] theorem Dev.advanceTo_host (d : Dev) (t : Nat) : (d.advanceTo t).host = d.host := by simp only [Dev.advanceTo, apply_ite Dev.host, Dev.cyclesPass_host, ite_self]
@[simp] theorem Dev.advanceTo_hostMem (d : Dev) (t : Nat) : (d.advanceTo t).hostMem = d.hostMem := by simp only [Dev.advanceTo, apply_ite Dev.hostMem, Dev.cyclesPass_hostMem, ite_self]
@[simp] theorem Dev.advanceTo_dataMem (d : Dev) (t : Nat) : (d.advanceTo t).dataMem = d.dataMem := by simp only [Dev.advanceTo, apply_ite Dev.dataMem, Dev.cyclesPass_dataMem, ite_self]
@[simp] theorem Dev.advanceTo_intc (d : Dev) (t : Nat) : (d.advanceTo t).intc = d.intc := by simp only [Dev.advanceTo, apply_ite Dev.intc, Dev.cyclesPass_intc, ite_self]
@[simp] theorem Dev.advanceTo_fc (d : Dev) (t : Nat) : (d.advanceTo t).fc = d.fc := by simp only [Dev.advanceTo, apply_ite Dev.fc, Dev.cyclesPass_fc, ite_self]
@[simp] theorem Dev.advanceTo_media (d : Dev) (t : Nat) : (d.advanceTo t).media = d.media := by simp only [Dev.advanceTo, apply_ite Dev.media, Dev.cyclesPass_media, ite_self]
@[simp] theorem Dev.advanceTo_dlv (d : Dev) (t : Nat) : (d.advanceTo t).dlv = d.dlv := by simp only [Dev.advanceTo, apply_ite Dev.dlv, Dev.cyclesPass_dlv, ite_self]
@[simp] theorem Dev.advanceTo_eth (d : Dev) (t : Nat) : (d.advanceTo t).eth = d.eth := by simp only [Dev.advanceTo, apply_ite Dev.eth, Dev.cyclesPass_eth, ite_self]
@[simp] theorem Dev.advanceTo_par (d : Dev) (t : Nat) : (d.advanceTo t).par = d.par := by simp only [Dev.advanceTo, apply_ite Dev.par, Dev.cyclesPass_par, ite_self]
@[simp] theorem Dev.advanceTo_qm (d : Dev) (t : Nat) : (d.advanceTo t).qm = d.qm := by simp only [Dev.advanceTo, apply_ite Dev.qm, Dev.cyclesPass_qm, ite_self]
@[simp] theorem Dev.advanceTo_mem (d : Dev) (t : Nat) : (d.advanceTo t).mem = d.mem := by simp only [Dev.advanceTo, apply_ite Dev.mem, Dev.cyclesPass_mem, ite_self]
@[simp] theorem Dev.advanceTo_prot (d : Dev) (t : Nat) : (d.advanceTo t).prot = d.prot := by simp only [Dev.advanceTo, apply_ite Dev.prot, Dev.cyclesPass_prot, ite_self]
@[simp] theorem Dev.advanceTo_bun (d : Dev) (t : Nat) : (d.advanceTo t).bun = d.bun := by simp only [Dev.advanceTo, apply_ite Dev.bun, Dev.cyclesPass_bun, ite_self]
@[simp] theorem Dev.advanceTo_dma (d : Dev) (t : Nat) : (d.advanceTo t).dma = d.dma := by simp only [Dev.advanceTo, apply_ite Dev.dma, Dev.cyclesPass_dma, ite_self]
@[simp] theorem Dev.advanceTo_mgmt (d : Dev) (t : Nat) : (d.advanceTo t).mgmt = d.mgmt := by simp only [Dev.advanceTo, apply_ite Dev.mgmt, Dev.cyclesPass_mgmt, ite_self]
@[simp] theorem Dev.advanceTo_porN (d : Dev) (t : Nat) : (d.advanceTo t).pins.porN = d.pins.porN := by simp only [Dev.advanceTo, apply_ite Dev.pins, apply_ite Pins.porN, Dev.cyclesPass_porN, ite_self]
@[simp] theorem Dev.advanceTo_perstN (d : Dev) (t : Nat) : (d.advanceTo t).pins.perstN = d.pins.perstN := by simp only [Dev.advanceTo, apply_ite Dev.pins, apply_ite Pins.perstN, Dev.cyclesPass_perstN, ite_self]
@[simp] theorem Dev.advanceTo_sysResetN (d : Dev) (t : Nat) : (d.advanceTo t).pins.sysResetN = d.pins.sysResetN := by simp only [Dev.advanceTo, apply_ite Dev.pins, apply_ite Pins.sysResetN, Dev.cyclesPass_sysResetN, ite_self]
@[simp] theorem Dev.advanceTo_pinStraps (d : Dev) (t : Nat) : (d.advanceTo t).pins.pinStraps = d.pins.pinStraps := by simp only [Dev.advanceTo, apply_ite Dev.pins, apply_ite Pins.pinStraps, Dev.cyclesPass_pinStraps, ite_self]
@[simp] theorem Dev.advanceTo_inReset (d : Dev) (t : Nat) : (d.advanceTo t).pins.inReset = d.pins.inReset := by simp only [Dev.advanceTo, apply_ite Dev.pins, apply_ite Pins.inReset, Dev.cyclesPass_inReset, ite_self]
@[simp] theorem Dev.advanceTo_thermalHold (d : Dev) (t : Nat) : (d.advanceTo t).pins.thermalHold = d.pins.thermalHold := by simp only [Dev.advanceTo, apply_ite Dev.pins, apply_ite Pins.thermalHold, Dev.cyclesPass_thermalHold, ite_self]
@[simp] theorem Dev.advanceTo_internal (d : Dev) (t : Nat) : (d.advanceTo t).pins.internal = d.pins.internal := by simp only [Dev.advanceTo, apply_ite Dev.pins, apply_ite Pins.internal, Dev.cyclesPass_internal, ite_self]
@[simp] theorem Dev.advanceTo_dreq (d : Dev) (t : Nat) : (d.advanceTo t).pins.dreq = d.pins.dreq := by simp only [Dev.advanceTo, apply_ite Dev.pins, apply_ite Pins.dreq, Dev.cyclesPass_dreq, ite_self]
@[simp] theorem Dev.advanceTo_smbAlert (d : Dev) (t : Nat) : (d.advanceTo t).pins.smbAlert = d.pins.smbAlert := by simp only [Dev.advanceTo, apply_ite Dev.pins, apply_ite Pins.smbAlert, Dev.cyclesPass_smbAlert, ite_self]
@[simp] theorem Dev.advanceTo_wakeN (d : Dev) (t : Nat) : (d.advanceTo t).pins.wakeN = d.pins.wakeN := by simp only [Dev.advanceTo, apply_ite Dev.pins, apply_ite Pins.wakeN, Dev.cyclesPass_wakeN, ite_self]
@[simp] theorem Dev.advanceTo_faultN (d : Dev) (t : Nat) : (d.advanceTo t).pins.faultN = d.pins.faultN := by simp only [Dev.advanceTo, apply_ite Dev.pins, apply_ite Pins.faultN, Dev.cyclesPass_faultN, ite_self]
@[simp] theorem Dev.advanceTo_fatalStop (d : Dev) (t : Nat) : (d.advanceTo t).pins.fatalStop = d.pins.fatalStop := by simp only [Dev.advanceTo, apply_ite Dev.pins, apply_ite Pins.fatalStop, Dev.cyclesPass_fatalStop, ite_self]
@[simp] theorem Dev.advanceTo_jtagIr (d : Dev) (t : Nat) : (d.advanceTo t).pins.jtagIr = d.pins.jtagIr := by simp only [Dev.advanceTo, apply_ite Dev.pins, apply_ite Pins.jtagIr, Dev.cyclesPass_jtagIr, ite_self]
@[simp] theorem Dev.advanceTo_bsr (d : Dev) (t : Nat) : (d.advanceTo t).pins.bsr = d.pins.bsr := by simp only [Dev.advanceTo, apply_ite Dev.pins, apply_ite Pins.bsr, Dev.cyclesPass_bsr, ite_self]
@[simp] theorem Dev.advanceTo_debugOpen (d : Dev) (t : Nat) : (d.advanceTo t).pins.debugOpen = d.pins.debugOpen := by simp only [Dev.advanceTo, apply_ite Dev.pins, apply_ite Pins.debugOpen, Dev.cyclesPass_debugOpen, ite_self]
@[simp] theorem Dev.advanceTo_freeCtr (d : Dev) (t : Nat) : (d.advanceTo t).freeCtr = d.freeCtr := by simp only [Dev.advanceTo, apply_ite Dev.freeCtr, Dev.cyclesPass_freeCtr, ite_self]
@[simp] theorem Dev.advanceTo_out (d : Dev) (t : Nat) : (d.advanceTo t).out = d.out := by simp only [Dev.advanceTo, apply_ite Dev.out, Dev.cyclesPass_out, ite_self]

@[simp] theorem Dev.advanceDue_regs (d : Dev) (t : Nat) : (d.advanceDue t).regs = d.regs := by simp only [Dev.advanceDue, Dev.advanceTo_regs]
@[simp] theorem Dev.advanceDue_staged (d : Dev) (t : Nat) : (d.advanceDue t).staged = d.staged := by simp only [Dev.advanceDue, Dev.advanceTo_staged]
@[simp] theorem Dev.advanceDue_applied (d : Dev) (t : Nat) : (d.advanceDue t).applied = d.applied := by simp only [Dev.advanceDue, Dev.advanceTo_applied]
@[simp] theorem Dev.advanceDue_host (d : Dev) (t : Nat) : (d.advanceDue t).host = d.host := by simp only [Dev.advanceDue, Dev.advanceTo_host]
@[simp] theorem Dev.advanceDue_hostMem (d : Dev) (t : Nat) : (d.advanceDue t).hostMem = d.hostMem := by simp only [Dev.advanceDue, Dev.advanceTo_hostMem]
@[simp] theorem Dev.advanceDue_dataMem (d : Dev) (t : Nat) : (d.advanceDue t).dataMem = d.dataMem := by simp only [Dev.advanceDue, Dev.advanceTo_dataMem]
@[simp] theorem Dev.advanceDue_intc (d : Dev) (t : Nat) : (d.advanceDue t).intc = d.intc := by simp only [Dev.advanceDue, Dev.advanceTo_intc]
@[simp] theorem Dev.advanceDue_fc (d : Dev) (t : Nat) : (d.advanceDue t).fc = d.fc := by simp only [Dev.advanceDue, Dev.advanceTo_fc]
@[simp] theorem Dev.advanceDue_media (d : Dev) (t : Nat) : (d.advanceDue t).media = d.media := by simp only [Dev.advanceDue, Dev.advanceTo_media]
@[simp] theorem Dev.advanceDue_dlv (d : Dev) (t : Nat) : (d.advanceDue t).dlv = d.dlv := by simp only [Dev.advanceDue, Dev.advanceTo_dlv]
@[simp] theorem Dev.advanceDue_eth (d : Dev) (t : Nat) : (d.advanceDue t).eth = d.eth := by simp only [Dev.advanceDue, Dev.advanceTo_eth]
@[simp] theorem Dev.advanceDue_par (d : Dev) (t : Nat) : (d.advanceDue t).par = d.par := by simp only [Dev.advanceDue, Dev.advanceTo_par]
@[simp] theorem Dev.advanceDue_qm (d : Dev) (t : Nat) : (d.advanceDue t).qm = d.qm := by simp only [Dev.advanceDue, Dev.advanceTo_qm]
@[simp] theorem Dev.advanceDue_mem (d : Dev) (t : Nat) : (d.advanceDue t).mem = d.mem := by simp only [Dev.advanceDue, Dev.advanceTo_mem]
@[simp] theorem Dev.advanceDue_prot (d : Dev) (t : Nat) : (d.advanceDue t).prot = d.prot := by simp only [Dev.advanceDue, Dev.advanceTo_prot]
@[simp] theorem Dev.advanceDue_bun (d : Dev) (t : Nat) : (d.advanceDue t).bun = d.bun := by simp only [Dev.advanceDue, Dev.advanceTo_bun]
@[simp] theorem Dev.advanceDue_dma (d : Dev) (t : Nat) : (d.advanceDue t).dma = d.dma := by simp only [Dev.advanceDue, Dev.advanceTo_dma]
@[simp] theorem Dev.advanceDue_mgmt (d : Dev) (t : Nat) : (d.advanceDue t).mgmt = d.mgmt := by simp only [Dev.advanceDue, Dev.advanceTo_mgmt]
@[simp] theorem Dev.advanceDue_porN (d : Dev) (t : Nat) : (d.advanceDue t).pins.porN = d.pins.porN := by simp only [Dev.advanceDue, Dev.advanceTo_porN]
@[simp] theorem Dev.advanceDue_perstN (d : Dev) (t : Nat) : (d.advanceDue t).pins.perstN = d.pins.perstN := by simp only [Dev.advanceDue, Dev.advanceTo_perstN]
@[simp] theorem Dev.advanceDue_sysResetN (d : Dev) (t : Nat) : (d.advanceDue t).pins.sysResetN = d.pins.sysResetN := by simp only [Dev.advanceDue, Dev.advanceTo_sysResetN]
@[simp] theorem Dev.advanceDue_pinStraps (d : Dev) (t : Nat) : (d.advanceDue t).pins.pinStraps = d.pins.pinStraps := by simp only [Dev.advanceDue, Dev.advanceTo_pinStraps]
@[simp] theorem Dev.advanceDue_inReset (d : Dev) (t : Nat) : (d.advanceDue t).pins.inReset = d.pins.inReset := by simp only [Dev.advanceDue, Dev.advanceTo_inReset]
@[simp] theorem Dev.advanceDue_thermalHold (d : Dev) (t : Nat) : (d.advanceDue t).pins.thermalHold = d.pins.thermalHold := by simp only [Dev.advanceDue, Dev.advanceTo_thermalHold]
@[simp] theorem Dev.advanceDue_internal (d : Dev) (t : Nat) : (d.advanceDue t).pins.internal = d.pins.internal := by simp only [Dev.advanceDue, Dev.advanceTo_internal]
@[simp] theorem Dev.advanceDue_dreq (d : Dev) (t : Nat) : (d.advanceDue t).pins.dreq = d.pins.dreq := by simp only [Dev.advanceDue, Dev.advanceTo_dreq]
@[simp] theorem Dev.advanceDue_smbAlert (d : Dev) (t : Nat) : (d.advanceDue t).pins.smbAlert = d.pins.smbAlert := by simp only [Dev.advanceDue, Dev.advanceTo_smbAlert]
@[simp] theorem Dev.advanceDue_wakeN (d : Dev) (t : Nat) : (d.advanceDue t).pins.wakeN = d.pins.wakeN := by simp only [Dev.advanceDue, Dev.advanceTo_wakeN]
@[simp] theorem Dev.advanceDue_faultN (d : Dev) (t : Nat) : (d.advanceDue t).pins.faultN = d.pins.faultN := by simp only [Dev.advanceDue, Dev.advanceTo_faultN]
@[simp] theorem Dev.advanceDue_fatalStop (d : Dev) (t : Nat) : (d.advanceDue t).pins.fatalStop = d.pins.fatalStop := by simp only [Dev.advanceDue, Dev.advanceTo_fatalStop]
@[simp] theorem Dev.advanceDue_jtagIr (d : Dev) (t : Nat) : (d.advanceDue t).pins.jtagIr = d.pins.jtagIr := by simp only [Dev.advanceDue, Dev.advanceTo_jtagIr]
@[simp] theorem Dev.advanceDue_bsr (d : Dev) (t : Nat) : (d.advanceDue t).pins.bsr = d.pins.bsr := by simp only [Dev.advanceDue, Dev.advanceTo_bsr]
@[simp] theorem Dev.advanceDue_debugOpen (d : Dev) (t : Nat) : (d.advanceDue t).pins.debugOpen = d.pins.debugOpen := by simp only [Dev.advanceDue, Dev.advanceTo_debugOpen]
@[simp] theorem Dev.advanceDue_freeCtr (d : Dev) (t : Nat) : (d.advanceDue t).freeCtr = d.freeCtr := by simp only [Dev.advanceDue, Dev.advanceTo_freeCtr]
@[simp] theorem Dev.advanceDue_out (d : Dev) (t : Nat) : (d.advanceDue t).out = d.out := by simp only [Dev.advanceDue, Dev.advanceTo_out]

@[simp] theorem Dev.bwAdd_regs (d : Dev) (a n : Nat) : (d.bwAdd a n).regs = d.regs := by simp only [Dev.bwAdd, apply_ite Dev.regs, ite_self]
@[simp] theorem Dev.bwAdd_staged (d : Dev) (a n : Nat) : (d.bwAdd a n).staged = d.staged := by simp only [Dev.bwAdd, apply_ite Dev.staged, ite_self]
@[simp] theorem Dev.bwAdd_applied (d : Dev) (a n : Nat) : (d.bwAdd a n).applied = d.applied := by simp only [Dev.bwAdd, apply_ite Dev.applied, ite_self]
@[simp] theorem Dev.bwAdd_tb (d : Dev) (a n : Nat) : (d.bwAdd a n).tb = d.tb := by simp only [Dev.bwAdd, apply_ite Dev.tb, ite_self]
@[simp] theorem Dev.bwAdd_host (d : Dev) (a n : Nat) : (d.bwAdd a n).host = d.host := by simp only [Dev.bwAdd, apply_ite Dev.host, ite_self]
@[simp] theorem Dev.bwAdd_hostMem (d : Dev) (a n : Nat) : (d.bwAdd a n).hostMem = d.hostMem := by simp only [Dev.bwAdd, apply_ite Dev.hostMem, ite_self]
@[simp] theorem Dev.bwAdd_dataMem (d : Dev) (a n : Nat) : (d.bwAdd a n).dataMem = d.dataMem := by simp only [Dev.bwAdd, apply_ite Dev.dataMem, ite_self]
@[simp] theorem Dev.bwAdd_intc (d : Dev) (a n : Nat) : (d.bwAdd a n).intc = d.intc := by simp only [Dev.bwAdd, apply_ite Dev.intc, ite_self]
@[simp] theorem Dev.bwAdd_fc (d : Dev) (a n : Nat) : (d.bwAdd a n).fc = d.fc := by simp only [Dev.bwAdd, apply_ite Dev.fc, ite_self]
@[simp] theorem Dev.bwAdd_media (d : Dev) (a n : Nat) : (d.bwAdd a n).media = d.media := by simp only [Dev.bwAdd, apply_ite Dev.media, ite_self]
@[simp] theorem Dev.bwAdd_dlv (d : Dev) (a n : Nat) : (d.bwAdd a n).dlv = d.dlv := by simp only [Dev.bwAdd, apply_ite Dev.dlv, ite_self]
@[simp] theorem Dev.bwAdd_eth (d : Dev) (a n : Nat) : (d.bwAdd a n).eth = d.eth := by simp only [Dev.bwAdd, apply_ite Dev.eth, ite_self]
@[simp] theorem Dev.bwAdd_par (d : Dev) (a n : Nat) : (d.bwAdd a n).par = d.par := by simp only [Dev.bwAdd, apply_ite Dev.par, ite_self]
@[simp] theorem Dev.bwAdd_qm (d : Dev) (a n : Nat) : (d.bwAdd a n).qm = d.qm := by simp only [Dev.bwAdd, apply_ite Dev.qm, ite_self]
@[simp] theorem Dev.bwAdd_mem (d : Dev) (a n : Nat) : (d.bwAdd a n).mem = d.mem := by simp only [Dev.bwAdd, apply_ite Dev.mem, ite_self]
@[simp] theorem Dev.bwAdd_prot (d : Dev) (a n : Nat) : (d.bwAdd a n).prot = d.prot := by simp only [Dev.bwAdd, apply_ite Dev.prot, ite_self]
@[simp] theorem Dev.bwAdd_bun (d : Dev) (a n : Nat) : (d.bwAdd a n).bun = d.bun := by simp only [Dev.bwAdd, apply_ite Dev.bun, ite_self]
@[simp] theorem Dev.bwAdd_dma (d : Dev) (a n : Nat) : (d.bwAdd a n).dma = d.dma := by simp only [Dev.bwAdd, apply_ite Dev.dma, ite_self]
@[simp] theorem Dev.bwAdd_mgmt (d : Dev) (a n : Nat) : (d.bwAdd a n).mgmt = d.mgmt := by simp only [Dev.bwAdd, apply_ite Dev.mgmt, ite_self]
@[simp] theorem Dev.bwAdd_pins (d : Dev) (a n : Nat) : (d.bwAdd a n).pins = d.pins := by simp only [Dev.bwAdd, apply_ite Dev.pins, ite_self]
@[simp] theorem Dev.bwAdd_freeCtr (d : Dev) (a n : Nat) : (d.bwAdd a n).freeCtr = d.freeCtr := by simp only [Dev.bwAdd, apply_ite Dev.freeCtr, ite_self]
@[simp] theorem Dev.bwAdd_out (d : Dev) (a n : Nat) : (d.bwAdd a n).out = d.out := by simp only [Dev.bwAdd, apply_ite Dev.out, ite_self]

@[simp] theorem Dev.pcieIn_regs (d : Dev) (n : Nat) (x : PmAttr) : (d.pcieIn n x).regs = d.regs := by simp only [Dev.pcieIn, apply_ite Dev.regs, Dev.bwAdd_regs, ite_self]
@[simp] theorem Dev.pcieIn_staged (d : Dev) (n : Nat) (x : PmAttr) : (d.pcieIn n x).staged = d.staged := by simp only [Dev.pcieIn, apply_ite Dev.staged, Dev.bwAdd_staged, ite_self]
@[simp] theorem Dev.pcieIn_applied (d : Dev) (n : Nat) (x : PmAttr) : (d.pcieIn n x).applied = d.applied := by simp only [Dev.pcieIn, apply_ite Dev.applied, Dev.bwAdd_applied, ite_self]
@[simp] theorem Dev.pcieIn_tb (d : Dev) (n : Nat) (x : PmAttr) : (d.pcieIn n x).tb = d.tb := by simp only [Dev.pcieIn, apply_ite Dev.tb, Dev.bwAdd_tb, ite_self]
@[simp] theorem Dev.pcieIn_host (d : Dev) (n : Nat) (x : PmAttr) : (d.pcieIn n x).host = d.host := by simp only [Dev.pcieIn, apply_ite Dev.host, Dev.bwAdd_host, ite_self]
@[simp] theorem Dev.pcieIn_hostMem (d : Dev) (n : Nat) (x : PmAttr) : (d.pcieIn n x).hostMem = d.hostMem := by simp only [Dev.pcieIn, apply_ite Dev.hostMem, Dev.bwAdd_hostMem, ite_self]
@[simp] theorem Dev.pcieIn_dataMem (d : Dev) (n : Nat) (x : PmAttr) : (d.pcieIn n x).dataMem = d.dataMem := by simp only [Dev.pcieIn, apply_ite Dev.dataMem, Dev.bwAdd_dataMem, ite_self]
@[simp] theorem Dev.pcieIn_intc (d : Dev) (n : Nat) (x : PmAttr) : (d.pcieIn n x).intc = d.intc := by simp only [Dev.pcieIn, apply_ite Dev.intc, Dev.bwAdd_intc, ite_self]
@[simp] theorem Dev.pcieIn_fc (d : Dev) (n : Nat) (x : PmAttr) : (d.pcieIn n x).fc = d.fc := by simp only [Dev.pcieIn, apply_ite Dev.fc, Dev.bwAdd_fc, ite_self]
@[simp] theorem Dev.pcieIn_media (d : Dev) (n : Nat) (x : PmAttr) : (d.pcieIn n x).media = d.media := by simp only [Dev.pcieIn, apply_ite Dev.media, Dev.bwAdd_media, ite_self]
@[simp] theorem Dev.pcieIn_dlv (d : Dev) (n : Nat) (x : PmAttr) : (d.pcieIn n x).dlv = d.dlv := by simp only [Dev.pcieIn, apply_ite Dev.dlv, Dev.bwAdd_dlv, ite_self]
@[simp] theorem Dev.pcieIn_eth (d : Dev) (n : Nat) (x : PmAttr) : (d.pcieIn n x).eth = d.eth := by simp only [Dev.pcieIn, apply_ite Dev.eth, Dev.bwAdd_eth, ite_self]
@[simp] theorem Dev.pcieIn_par (d : Dev) (n : Nat) (x : PmAttr) : (d.pcieIn n x).par = d.par := by simp only [Dev.pcieIn, apply_ite Dev.par, Dev.bwAdd_par, ite_self]
@[simp] theorem Dev.pcieIn_qm (d : Dev) (n : Nat) (x : PmAttr) : (d.pcieIn n x).qm = d.qm := by simp only [Dev.pcieIn, apply_ite Dev.qm, Dev.bwAdd_qm, ite_self]
@[simp] theorem Dev.pcieIn_mem (d : Dev) (n : Nat) (x : PmAttr) : (d.pcieIn n x).mem = d.mem := by simp only [Dev.pcieIn, apply_ite Dev.mem, Dev.bwAdd_mem, ite_self]
@[simp] theorem Dev.pcieIn_prot (d : Dev) (n : Nat) (x : PmAttr) : (d.pcieIn n x).prot = d.prot := by simp only [Dev.pcieIn, apply_ite Dev.prot, Dev.bwAdd_prot, ite_self]
@[simp] theorem Dev.pcieIn_bun (d : Dev) (n : Nat) (x : PmAttr) : (d.pcieIn n x).bun = d.bun := by simp only [Dev.pcieIn, apply_ite Dev.bun, Dev.bwAdd_bun, ite_self]
@[simp] theorem Dev.pcieIn_dma (d : Dev) (n : Nat) (x : PmAttr) : (d.pcieIn n x).dma = d.dma := by simp only [Dev.pcieIn, apply_ite Dev.dma, Dev.bwAdd_dma, ite_self]
@[simp] theorem Dev.pcieIn_mgmt (d : Dev) (n : Nat) (x : PmAttr) : (d.pcieIn n x).mgmt = d.mgmt := by simp only [Dev.pcieIn, apply_ite Dev.mgmt, Dev.bwAdd_mgmt, ite_self]
@[simp] theorem Dev.pcieIn_pins (d : Dev) (n : Nat) (x : PmAttr) : (d.pcieIn n x).pins = d.pins := by simp only [Dev.pcieIn, apply_ite Dev.pins, Dev.bwAdd_pins, ite_self]
@[simp] theorem Dev.pcieIn_freeCtr (d : Dev) (n : Nat) (x : PmAttr) : (d.pcieIn n x).freeCtr = d.freeCtr := by simp only [Dev.pcieIn, apply_ite Dev.freeCtr, Dev.bwAdd_freeCtr, ite_self]
@[simp] theorem Dev.pcieIn_out (d : Dev) (n : Nat) (x : PmAttr) : (d.pcieIn n x).out = d.out := by simp only [Dev.pcieIn, apply_ite Dev.out, Dev.bwAdd_out, ite_self]

@[simp] theorem Dev.pcieOut_regs (d : Dev) (n : Nat) (x : PmAttr) : (d.pcieOut n x).regs = d.regs := by simp only [Dev.pcieOut, apply_ite Dev.regs, Dev.bwAdd_regs, ite_self]
@[simp] theorem Dev.pcieOut_staged (d : Dev) (n : Nat) (x : PmAttr) : (d.pcieOut n x).staged = d.staged := by simp only [Dev.pcieOut, apply_ite Dev.staged, Dev.bwAdd_staged, ite_self]
@[simp] theorem Dev.pcieOut_applied (d : Dev) (n : Nat) (x : PmAttr) : (d.pcieOut n x).applied = d.applied := by simp only [Dev.pcieOut, apply_ite Dev.applied, Dev.bwAdd_applied, ite_self]
@[simp] theorem Dev.pcieOut_tb (d : Dev) (n : Nat) (x : PmAttr) : (d.pcieOut n x).tb = d.tb := by simp only [Dev.pcieOut, apply_ite Dev.tb, Dev.bwAdd_tb, ite_self]
@[simp] theorem Dev.pcieOut_host (d : Dev) (n : Nat) (x : PmAttr) : (d.pcieOut n x).host = d.host := by simp only [Dev.pcieOut, apply_ite Dev.host, Dev.bwAdd_host, ite_self]
@[simp] theorem Dev.pcieOut_hostMem (d : Dev) (n : Nat) (x : PmAttr) : (d.pcieOut n x).hostMem = d.hostMem := by simp only [Dev.pcieOut, apply_ite Dev.hostMem, Dev.bwAdd_hostMem, ite_self]
@[simp] theorem Dev.pcieOut_dataMem (d : Dev) (n : Nat) (x : PmAttr) : (d.pcieOut n x).dataMem = d.dataMem := by simp only [Dev.pcieOut, apply_ite Dev.dataMem, Dev.bwAdd_dataMem, ite_self]
@[simp] theorem Dev.pcieOut_intc (d : Dev) (n : Nat) (x : PmAttr) : (d.pcieOut n x).intc = d.intc := by simp only [Dev.pcieOut, apply_ite Dev.intc, Dev.bwAdd_intc, ite_self]
@[simp] theorem Dev.pcieOut_fc (d : Dev) (n : Nat) (x : PmAttr) : (d.pcieOut n x).fc = d.fc := by simp only [Dev.pcieOut, apply_ite Dev.fc, Dev.bwAdd_fc, ite_self]
@[simp] theorem Dev.pcieOut_media (d : Dev) (n : Nat) (x : PmAttr) : (d.pcieOut n x).media = d.media := by simp only [Dev.pcieOut, apply_ite Dev.media, Dev.bwAdd_media, ite_self]
@[simp] theorem Dev.pcieOut_dlv (d : Dev) (n : Nat) (x : PmAttr) : (d.pcieOut n x).dlv = d.dlv := by simp only [Dev.pcieOut, apply_ite Dev.dlv, Dev.bwAdd_dlv, ite_self]
@[simp] theorem Dev.pcieOut_eth (d : Dev) (n : Nat) (x : PmAttr) : (d.pcieOut n x).eth = d.eth := by simp only [Dev.pcieOut, apply_ite Dev.eth, Dev.bwAdd_eth, ite_self]
@[simp] theorem Dev.pcieOut_par (d : Dev) (n : Nat) (x : PmAttr) : (d.pcieOut n x).par = d.par := by simp only [Dev.pcieOut, apply_ite Dev.par, Dev.bwAdd_par, ite_self]
@[simp] theorem Dev.pcieOut_qm (d : Dev) (n : Nat) (x : PmAttr) : (d.pcieOut n x).qm = d.qm := by simp only [Dev.pcieOut, apply_ite Dev.qm, Dev.bwAdd_qm, ite_self]
@[simp] theorem Dev.pcieOut_mem (d : Dev) (n : Nat) (x : PmAttr) : (d.pcieOut n x).mem = d.mem := by simp only [Dev.pcieOut, apply_ite Dev.mem, Dev.bwAdd_mem, ite_self]
@[simp] theorem Dev.pcieOut_prot (d : Dev) (n : Nat) (x : PmAttr) : (d.pcieOut n x).prot = d.prot := by simp only [Dev.pcieOut, apply_ite Dev.prot, Dev.bwAdd_prot, ite_self]
@[simp] theorem Dev.pcieOut_bun (d : Dev) (n : Nat) (x : PmAttr) : (d.pcieOut n x).bun = d.bun := by simp only [Dev.pcieOut, apply_ite Dev.bun, Dev.bwAdd_bun, ite_self]
@[simp] theorem Dev.pcieOut_dma (d : Dev) (n : Nat) (x : PmAttr) : (d.pcieOut n x).dma = d.dma := by simp only [Dev.pcieOut, apply_ite Dev.dma, Dev.bwAdd_dma, ite_self]
@[simp] theorem Dev.pcieOut_mgmt (d : Dev) (n : Nat) (x : PmAttr) : (d.pcieOut n x).mgmt = d.mgmt := by simp only [Dev.pcieOut, apply_ite Dev.mgmt, Dev.bwAdd_mgmt, ite_self]
@[simp] theorem Dev.pcieOut_pins (d : Dev) (n : Nat) (x : PmAttr) : (d.pcieOut n x).pins = d.pins := by simp only [Dev.pcieOut, apply_ite Dev.pins, Dev.bwAdd_pins, ite_self]
@[simp] theorem Dev.pcieOut_freeCtr (d : Dev) (n : Nat) (x : PmAttr) : (d.pcieOut n x).freeCtr = d.freeCtr := by simp only [Dev.pcieOut, apply_ite Dev.freeCtr, Dev.bwAdd_freeCtr, ite_self]
@[simp] theorem Dev.pcieOut_out (d : Dev) (n : Nat) (x : PmAttr) : (d.pcieOut n x).out = d.out := by simp only [Dev.pcieOut, apply_ite Dev.out, Dev.bwAdd_out, ite_self]

@[simp] theorem Dev.hostPut_regs (d : Dev) (x : PmAttr) (a : Nat) (l : List Byte) : (d.hostPut x a l).regs = d.regs := by simp only [Dev.hostPut, Dev.hostWrite_regs, Dev.pcieOut_regs]
@[simp] theorem Dev.hostPut_staged (d : Dev) (x : PmAttr) (a : Nat) (l : List Byte) : (d.hostPut x a l).staged = d.staged := by simp only [Dev.hostPut, Dev.hostWrite_staged, Dev.pcieOut_staged]
@[simp] theorem Dev.hostPut_applied (d : Dev) (x : PmAttr) (a : Nat) (l : List Byte) : (d.hostPut x a l).applied = d.applied := by simp only [Dev.hostPut, Dev.hostWrite_applied, Dev.pcieOut_applied]
@[simp] theorem Dev.hostPut_tb (d : Dev) (x : PmAttr) (a : Nat) (l : List Byte) : (d.hostPut x a l).tb = d.tb := by simp only [Dev.hostPut, Dev.hostWrite_tb, Dev.pcieOut_tb]
@[simp] theorem Dev.hostPut_host (d : Dev) (x : PmAttr) (a : Nat) (l : List Byte) : (d.hostPut x a l).host = d.host := by simp only [Dev.hostPut, Dev.hostWrite_host, Dev.pcieOut_host]
@[simp] theorem Dev.hostPut_dataMem (d : Dev) (x : PmAttr) (a : Nat) (l : List Byte) : (d.hostPut x a l).dataMem = d.dataMem := by simp only [Dev.hostPut, Dev.hostWrite_dataMem, Dev.pcieOut_dataMem]
@[simp] theorem Dev.hostPut_intc (d : Dev) (x : PmAttr) (a : Nat) (l : List Byte) : (d.hostPut x a l).intc = d.intc := by simp only [Dev.hostPut, Dev.hostWrite_intc, Dev.pcieOut_intc]
@[simp] theorem Dev.hostPut_fc (d : Dev) (x : PmAttr) (a : Nat) (l : List Byte) : (d.hostPut x a l).fc = d.fc := by simp only [Dev.hostPut, Dev.hostWrite_fc, Dev.pcieOut_fc]
@[simp] theorem Dev.hostPut_media (d : Dev) (x : PmAttr) (a : Nat) (l : List Byte) : (d.hostPut x a l).media = d.media := by simp only [Dev.hostPut, Dev.hostWrite_media, Dev.pcieOut_media]
@[simp] theorem Dev.hostPut_dlv (d : Dev) (x : PmAttr) (a : Nat) (l : List Byte) : (d.hostPut x a l).dlv = d.dlv := by simp only [Dev.hostPut, Dev.hostWrite_dlv, Dev.pcieOut_dlv]
@[simp] theorem Dev.hostPut_eth (d : Dev) (x : PmAttr) (a : Nat) (l : List Byte) : (d.hostPut x a l).eth = d.eth := by simp only [Dev.hostPut, Dev.hostWrite_eth, Dev.pcieOut_eth]
@[simp] theorem Dev.hostPut_par (d : Dev) (x : PmAttr) (a : Nat) (l : List Byte) : (d.hostPut x a l).par = d.par := by simp only [Dev.hostPut, Dev.hostWrite_par, Dev.pcieOut_par]
@[simp] theorem Dev.hostPut_qm (d : Dev) (x : PmAttr) (a : Nat) (l : List Byte) : (d.hostPut x a l).qm = d.qm := by simp only [Dev.hostPut, Dev.hostWrite_qm, Dev.pcieOut_qm]
@[simp] theorem Dev.hostPut_mem (d : Dev) (x : PmAttr) (a : Nat) (l : List Byte) : (d.hostPut x a l).mem = d.mem := by simp only [Dev.hostPut, Dev.hostWrite_mem, Dev.pcieOut_mem]
@[simp] theorem Dev.hostPut_prot (d : Dev) (x : PmAttr) (a : Nat) (l : List Byte) : (d.hostPut x a l).prot = d.prot := by simp only [Dev.hostPut, Dev.hostWrite_prot, Dev.pcieOut_prot]
@[simp] theorem Dev.hostPut_bun (d : Dev) (x : PmAttr) (a : Nat) (l : List Byte) : (d.hostPut x a l).bun = d.bun := by simp only [Dev.hostPut, Dev.hostWrite_bun, Dev.pcieOut_bun]
@[simp] theorem Dev.hostPut_dma (d : Dev) (x : PmAttr) (a : Nat) (l : List Byte) : (d.hostPut x a l).dma = d.dma := by simp only [Dev.hostPut, Dev.hostWrite_dma, Dev.pcieOut_dma]
@[simp] theorem Dev.hostPut_mgmt (d : Dev) (x : PmAttr) (a : Nat) (l : List Byte) : (d.hostPut x a l).mgmt = d.mgmt := by simp only [Dev.hostPut, Dev.hostWrite_mgmt, Dev.pcieOut_mgmt]
@[simp] theorem Dev.hostPut_pins (d : Dev) (x : PmAttr) (a : Nat) (l : List Byte) : (d.hostPut x a l).pins = d.pins := by simp only [Dev.hostPut, Dev.hostWrite_pins, Dev.pcieOut_pins]
@[simp] theorem Dev.hostPut_freeCtr (d : Dev) (x : PmAttr) (a : Nat) (l : List Byte) : (d.hostPut x a l).freeCtr = d.freeCtr := by simp only [Dev.hostPut, Dev.hostWrite_freeCtr, Dev.pcieOut_freeCtr]
@[simp] theorem Dev.hostPut_out (d : Dev) (x : PmAttr) (a : Nat) (l : List Byte) : (d.hostPut x a l).out = d.out := by simp only [Dev.hostPut, Dev.hostWrite_out, Dev.pcieOut_out]
@[simp] theorem Dev.hostPut_hostMem (d : Dev) (x : PmAttr) (a : Nat) (l : List Byte) : (d.hostPut x a l).hostMem = (d.hostWrite a l).hostMem := by simp only [Dev.hostPut, Dev.hostWrite, Dev.pcieOut_hostMem]

@[simp] theorem Dev.masthead_staged (d : Dev) (s v i : Nat) : (d.masthead s v i).staged = d.staged := by simp only [Dev.masthead, apply_ite Dev.staged, Dev.setReg_staged, Dev.count_staged, Dev.setFlag_staged, ite_self]
@[simp] theorem Dev.masthead_applied (d : Dev) (s v i : Nat) : (d.masthead s v i).applied = d.applied := by simp only [Dev.masthead, apply_ite Dev.applied, Dev.setReg_applied, Dev.count_applied, Dev.setFlag_applied, ite_self]
@[simp] theorem Dev.masthead_tb (d : Dev) (s v i : Nat) : (d.masthead s v i).tb = d.tb := by simp only [Dev.masthead, apply_ite Dev.tb, Dev.setReg_tb, Dev.count_tb, Dev.setFlag_tb, ite_self]
@[simp] theorem Dev.masthead_host (d : Dev) (s v i : Nat) : (d.masthead s v i).host = d.host := by simp only [Dev.masthead, apply_ite Dev.host, Dev.setReg_host, Dev.count_host, Dev.setFlag_host, ite_self]
@[simp] theorem Dev.masthead_hostMem (d : Dev) (s v i : Nat) : (d.masthead s v i).hostMem = d.hostMem := by simp only [Dev.masthead, apply_ite Dev.hostMem, Dev.setReg_hostMem, Dev.count_hostMem, Dev.setFlag_hostMem, ite_self]
@[simp] theorem Dev.masthead_dataMem (d : Dev) (s v i : Nat) : (d.masthead s v i).dataMem = d.dataMem := by simp only [Dev.masthead, apply_ite Dev.dataMem, Dev.setReg_dataMem, Dev.count_dataMem, Dev.setFlag_dataMem, ite_self]
@[simp] theorem Dev.masthead_intc (d : Dev) (s v i : Nat) : (d.masthead s v i).intc = d.intc := by simp only [Dev.masthead, apply_ite Dev.intc, Dev.setReg_intc, Dev.count_intc, Dev.setFlag_intc, ite_self]
@[simp] theorem Dev.masthead_fc (d : Dev) (s v i : Nat) : (d.masthead s v i).fc = d.fc := by simp only [Dev.masthead, apply_ite Dev.fc, Dev.setReg_fc, Dev.count_fc, Dev.setFlag_fc, ite_self]
@[simp] theorem Dev.masthead_media (d : Dev) (s v i : Nat) : (d.masthead s v i).media = d.media := by simp only [Dev.masthead, apply_ite Dev.media, Dev.setReg_media, Dev.count_media, Dev.setFlag_media, ite_self]
@[simp] theorem Dev.masthead_dlv (d : Dev) (s v i : Nat) : (d.masthead s v i).dlv = d.dlv := by simp only [Dev.masthead, apply_ite Dev.dlv, Dev.setReg_dlv, Dev.count_dlv, Dev.setFlag_dlv, ite_self]
@[simp] theorem Dev.masthead_eth (d : Dev) (s v i : Nat) : (d.masthead s v i).eth = d.eth := by simp only [Dev.masthead, apply_ite Dev.eth, Dev.setReg_eth, Dev.count_eth, Dev.setFlag_eth, ite_self]
@[simp] theorem Dev.masthead_par (d : Dev) (s v i : Nat) : (d.masthead s v i).par = d.par := by simp only [Dev.masthead, apply_ite Dev.par, Dev.setReg_par, Dev.count_par, Dev.setFlag_par, ite_self]
@[simp] theorem Dev.masthead_qm (d : Dev) (s v i : Nat) : (d.masthead s v i).qm = d.qm := by simp only [Dev.masthead, apply_ite Dev.qm, Dev.setReg_qm, Dev.count_qm, Dev.setFlag_qm, ite_self]
@[simp] theorem Dev.masthead_mem (d : Dev) (s v i : Nat) : (d.masthead s v i).mem = d.mem := by simp only [Dev.masthead, apply_ite Dev.mem, Dev.setReg_mem, Dev.count_mem, Dev.setFlag_mem, ite_self]
@[simp] theorem Dev.masthead_prot (d : Dev) (s v i : Nat) : (d.masthead s v i).prot = d.prot := by simp only [Dev.masthead, apply_ite Dev.prot, Dev.setReg_prot, Dev.count_prot, Dev.setFlag_prot, ite_self]
@[simp] theorem Dev.masthead_bun (d : Dev) (s v i : Nat) : (d.masthead s v i).bun = d.bun := by simp only [Dev.masthead, apply_ite Dev.bun, Dev.setReg_bun, Dev.count_bun, Dev.setFlag_bun, ite_self]
@[simp] theorem Dev.masthead_dma (d : Dev) (s v i : Nat) : (d.masthead s v i).dma = d.dma := by simp only [Dev.masthead, apply_ite Dev.dma, Dev.setReg_dma, Dev.count_dma, Dev.setFlag_dma, ite_self]
@[simp] theorem Dev.masthead_mgmt (d : Dev) (s v i : Nat) : (d.masthead s v i).mgmt = d.mgmt := by simp only [Dev.masthead, apply_ite Dev.mgmt, Dev.setReg_mgmt, Dev.count_mgmt, Dev.setFlag_mgmt, ite_self]
@[simp] theorem Dev.masthead_pm (d : Dev) (s v i : Nat) : (d.masthead s v i).pm = d.pm := by simp only [Dev.masthead, apply_ite Dev.pm, Dev.setReg_pm, Dev.count_pm, Dev.setFlag_pm, ite_self]
@[simp] theorem Dev.masthead_pins (d : Dev) (s v i : Nat) : (d.masthead s v i).pins = d.pins := by simp only [Dev.masthead, apply_ite Dev.pins, Dev.setReg_pins, Dev.count_pins, Dev.setFlag_pins, ite_self]
@[simp] theorem Dev.masthead_freeCtr (d : Dev) (s v i : Nat) : (d.masthead s v i).freeCtr = d.freeCtr := by simp only [Dev.masthead, apply_ite Dev.freeCtr, Dev.setReg_freeCtr, Dev.count_freeCtr, Dev.setFlag_freeCtr, ite_self]
@[simp] theorem Dev.masthead_out (d : Dev) (s v i : Nat) : (d.masthead s v i).out = d.out := by simp only [Dev.masthead, apply_ite Dev.out, Dev.setReg_out, Dev.count_out, Dev.setFlag_out, ite_self]

@[simp] theorem Dev.pinFault_regs (d : Dev) : (d.pinFault).regs = d.regs := d.withPins_regs _
@[simp] theorem Dev.pinFault_staged (d : Dev) : (d.pinFault).staged = d.staged := d.withPins_staged _
@[simp] theorem Dev.pinFault_applied (d : Dev) : (d.pinFault).applied = d.applied := d.withPins_applied _
@[simp] theorem Dev.pinFault_tb (d : Dev) : (d.pinFault).tb = d.tb := d.withPins_tb _
@[simp] theorem Dev.pinFault_host (d : Dev) : (d.pinFault).host = d.host := d.withPins_host _
@[simp] theorem Dev.pinFault_hostMem (d : Dev) : (d.pinFault).hostMem = d.hostMem := d.withPins_hostMem _
@[simp] theorem Dev.pinFault_dataMem (d : Dev) : (d.pinFault).dataMem = d.dataMem := d.withPins_dataMem _
@[simp] theorem Dev.pinFault_intc (d : Dev) : (d.pinFault).intc = d.intc := d.withPins_intc _
@[simp] theorem Dev.pinFault_fc (d : Dev) : (d.pinFault).fc = d.fc := d.withPins_fc _
@[simp] theorem Dev.pinFault_media (d : Dev) : (d.pinFault).media = d.media := d.withPins_media _
@[simp] theorem Dev.pinFault_dlv (d : Dev) : (d.pinFault).dlv = d.dlv := d.withPins_dlv _
@[simp] theorem Dev.pinFault_eth (d : Dev) : (d.pinFault).eth = d.eth := d.withPins_eth _
@[simp] theorem Dev.pinFault_par (d : Dev) : (d.pinFault).par = d.par := d.withPins_par _
@[simp] theorem Dev.pinFault_qm (d : Dev) : (d.pinFault).qm = d.qm := d.withPins_qm _
@[simp] theorem Dev.pinFault_mem (d : Dev) : (d.pinFault).mem = d.mem := d.withPins_mem _
@[simp] theorem Dev.pinFault_prot (d : Dev) : (d.pinFault).prot = d.prot := d.withPins_prot _
@[simp] theorem Dev.pinFault_bun (d : Dev) : (d.pinFault).bun = d.bun := d.withPins_bun _
@[simp] theorem Dev.pinFault_dma (d : Dev) : (d.pinFault).dma = d.dma := d.withPins_dma _
@[simp] theorem Dev.pinFault_mgmt (d : Dev) : (d.pinFault).mgmt = d.mgmt := d.withPins_mgmt _
@[simp] theorem Dev.pinFault_pm (d : Dev) : (d.pinFault).pm = d.pm := d.withPins_pm _
@[simp] theorem Dev.pinFault_freeCtr (d : Dev) : (d.pinFault).freeCtr = d.freeCtr := d.withPins_freeCtr _
@[simp] theorem Dev.pinFault_out (d : Dev) : (d.pinFault).out = d.out := d.withPins_out _

@[simp] theorem Dev.usedBySticky_regs (d : Dev) : (d.usedBySticky).regs = d.regs := d.withFreeCtr_regs _
@[simp] theorem Dev.usedBySticky_staged (d : Dev) : (d.usedBySticky).staged = d.staged := d.withFreeCtr_staged _
@[simp] theorem Dev.usedBySticky_applied (d : Dev) : (d.usedBySticky).applied = d.applied := d.withFreeCtr_applied _
@[simp] theorem Dev.usedBySticky_tb (d : Dev) : (d.usedBySticky).tb = d.tb := d.withFreeCtr_tb _
@[simp] theorem Dev.usedBySticky_host (d : Dev) : (d.usedBySticky).host = d.host := d.withFreeCtr_host _
@[simp] theorem Dev.usedBySticky_hostMem (d : Dev) : (d.usedBySticky).hostMem = d.hostMem := d.withFreeCtr_hostMem _
@[simp] theorem Dev.usedBySticky_dataMem (d : Dev) : (d.usedBySticky).dataMem = d.dataMem := d.withFreeCtr_dataMem _
@[simp] theorem Dev.usedBySticky_intc (d : Dev) : (d.usedBySticky).intc = d.intc := d.withFreeCtr_intc _
@[simp] theorem Dev.usedBySticky_fc (d : Dev) : (d.usedBySticky).fc = d.fc := d.withFreeCtr_fc _
@[simp] theorem Dev.usedBySticky_media (d : Dev) : (d.usedBySticky).media = d.media := d.withFreeCtr_media _
@[simp] theorem Dev.usedBySticky_dlv (d : Dev) : (d.usedBySticky).dlv = d.dlv := d.withFreeCtr_dlv _
@[simp] theorem Dev.usedBySticky_eth (d : Dev) : (d.usedBySticky).eth = d.eth := d.withFreeCtr_eth _
@[simp] theorem Dev.usedBySticky_par (d : Dev) : (d.usedBySticky).par = d.par := d.withFreeCtr_par _
@[simp] theorem Dev.usedBySticky_qm (d : Dev) : (d.usedBySticky).qm = d.qm := d.withFreeCtr_qm _
@[simp] theorem Dev.usedBySticky_mem (d : Dev) : (d.usedBySticky).mem = d.mem := d.withFreeCtr_mem _
@[simp] theorem Dev.usedBySticky_prot (d : Dev) : (d.usedBySticky).prot = d.prot := d.withFreeCtr_prot _
@[simp] theorem Dev.usedBySticky_bun (d : Dev) : (d.usedBySticky).bun = d.bun := d.withFreeCtr_bun _
@[simp] theorem Dev.usedBySticky_dma (d : Dev) : (d.usedBySticky).dma = d.dma := d.withFreeCtr_dma _
@[simp] theorem Dev.usedBySticky_mgmt (d : Dev) : (d.usedBySticky).mgmt = d.mgmt := d.withFreeCtr_mgmt _
@[simp] theorem Dev.usedBySticky_pm (d : Dev) : (d.usedBySticky).pm = d.pm := d.withFreeCtr_pm _
@[simp] theorem Dev.usedBySticky_pins (d : Dev) : (d.usedBySticky).pins = d.pins := d.withFreeCtr_pins _
@[simp] theorem Dev.usedBySticky_out (d : Dev) : (d.usedBySticky).out = d.out := d.withFreeCtr_out _

@[simp] theorem Dev.fatalStop_staged (d : Dev) (k v : Nat) : (d.fatalStop k v).staged = d.staged := by simp only [Dev.fatalStop, apply_ite Dev.staged, Dev.setFlag_staged, Dev.usedBySticky_staged, ite_self]
@[simp] theorem Dev.fatalStop_applied (d : Dev) (k v : Nat) : (d.fatalStop k v).applied = d.applied := by simp only [Dev.fatalStop, apply_ite Dev.applied, Dev.setFlag_applied, Dev.usedBySticky_applied, ite_self]
@[simp] theorem Dev.fatalStop_tb (d : Dev) (k v : Nat) : (d.fatalStop k v).tb = d.tb := by simp only [Dev.fatalStop, apply_ite Dev.tb, Dev.setFlag_tb, Dev.usedBySticky_tb, ite_self]
@[simp] theorem Dev.fatalStop_host (d : Dev) (k v : Nat) : (d.fatalStop k v).host = d.host := by simp only [Dev.fatalStop, apply_ite Dev.host, Dev.setFlag_host, Dev.usedBySticky_host, ite_self]
@[simp] theorem Dev.fatalStop_hostMem (d : Dev) (k v : Nat) : (d.fatalStop k v).hostMem = d.hostMem := by simp only [Dev.fatalStop, apply_ite Dev.hostMem, Dev.setFlag_hostMem, Dev.usedBySticky_hostMem, ite_self]
@[simp] theorem Dev.fatalStop_dataMem (d : Dev) (k v : Nat) : (d.fatalStop k v).dataMem = d.dataMem := by simp only [Dev.fatalStop, apply_ite Dev.dataMem, Dev.setFlag_dataMem, Dev.usedBySticky_dataMem, ite_self]
@[simp] theorem Dev.fatalStop_intc (d : Dev) (k v : Nat) : (d.fatalStop k v).intc = d.intc := by simp only [Dev.fatalStop, apply_ite Dev.intc, Dev.setFlag_intc, Dev.usedBySticky_intc, ite_self]
@[simp] theorem Dev.fatalStop_media (d : Dev) (k v : Nat) : (d.fatalStop k v).media = d.media := by simp only [Dev.fatalStop, apply_ite Dev.media, Dev.setFlag_media, Dev.usedBySticky_media, ite_self]
@[simp] theorem Dev.fatalStop_dlv (d : Dev) (k v : Nat) : (d.fatalStop k v).dlv = d.dlv := by simp only [Dev.fatalStop, apply_ite Dev.dlv, Dev.setFlag_dlv, Dev.usedBySticky_dlv, ite_self]
@[simp] theorem Dev.fatalStop_eth (d : Dev) (k v : Nat) : (d.fatalStop k v).eth = d.eth := by simp only [Dev.fatalStop, apply_ite Dev.eth, Dev.setFlag_eth, Dev.usedBySticky_eth, ite_self]
@[simp] theorem Dev.fatalStop_par (d : Dev) (k v : Nat) : (d.fatalStop k v).par = d.par := by simp only [Dev.fatalStop, apply_ite Dev.par, Dev.setFlag_par, Dev.usedBySticky_par, ite_self]
@[simp] theorem Dev.fatalStop_qm (d : Dev) (k v : Nat) : (d.fatalStop k v).qm = d.qm := by simp only [Dev.fatalStop, apply_ite Dev.qm, Dev.setFlag_qm, Dev.usedBySticky_qm, ite_self]
@[simp] theorem Dev.fatalStop_mem (d : Dev) (k v : Nat) : (d.fatalStop k v).mem = d.mem := by simp only [Dev.fatalStop, apply_ite Dev.mem, Dev.setFlag_mem, Dev.usedBySticky_mem, ite_self]
@[simp] theorem Dev.fatalStop_prot (d : Dev) (k v : Nat) : (d.fatalStop k v).prot = d.prot := by simp only [Dev.fatalStop, apply_ite Dev.prot, Dev.setFlag_prot, Dev.usedBySticky_prot, ite_self]
@[simp] theorem Dev.fatalStop_bun (d : Dev) (k v : Nat) : (d.fatalStop k v).bun = d.bun := by simp only [Dev.fatalStop, apply_ite Dev.bun, Dev.setFlag_bun, Dev.usedBySticky_bun, ite_self]
@[simp] theorem Dev.fatalStop_dma (d : Dev) (k v : Nat) : (d.fatalStop k v).dma = d.dma := by simp only [Dev.fatalStop, apply_ite Dev.dma, Dev.setFlag_dma, Dev.usedBySticky_dma, ite_self]
@[simp] theorem Dev.fatalStop_mgmt (d : Dev) (k v : Nat) : (d.fatalStop k v).mgmt = d.mgmt := by simp only [Dev.fatalStop, apply_ite Dev.mgmt, Dev.setFlag_mgmt, Dev.usedBySticky_mgmt, ite_self]
@[simp] theorem Dev.fatalStop_pm (d : Dev) (k v : Nat) : (d.fatalStop k v).pm = d.pm := by simp only [Dev.fatalStop, apply_ite Dev.pm, Dev.setFlag_pm, Dev.usedBySticky_pm, ite_self]
@[simp] theorem Dev.fatalStop_out (d : Dev) (k v : Nat) : (d.fatalStop k v).out = d.out := by simp only [Dev.fatalStop, apply_ite Dev.out, Dev.setFlag_out, Dev.usedBySticky_out, ite_self]

@[simp] theorem Dev.raise_staged (d : Dev) (k i : Nat) : (d.raise k i).staged = d.staged := by
  unfold Dev.raise; split
  · rfl
  · simp only [Dev.pinFault_staged, apply_ite Dev.staged, Dev.fatalStop_staged, Dev.count_staged, Dev.masthead_staged, Dev.setEvent_staged, ite_self]
@[simp] theorem Dev.raise_applied (d : Dev) (k i : Nat) : (d.raise k i).applied = d.applied := by
  unfold Dev.raise; split
  · rfl
  · simp only [Dev.pinFault_applied, apply_ite Dev.applied, Dev.fatalStop_applied, Dev.count_applied, Dev.masthead_applied, Dev.setEvent_applied, ite_self]
@[simp] theorem Dev.raise_tb (d : Dev) (k i : Nat) : (d.raise k i).tb = d.tb := by
  unfold Dev.raise; split
  · rfl
  · simp only [Dev.pinFault_tb, apply_ite Dev.tb, Dev.fatalStop_tb, Dev.count_tb, Dev.masthead_tb, Dev.setEvent_tb, ite_self]
@[simp] theorem Dev.raise_host (d : Dev) (k i : Nat) : (d.raise k i).host = d.host := by
  unfold Dev.raise; split
  · rfl
  · simp only [Dev.pinFault_host, apply_ite Dev.host, Dev.fatalStop_host, Dev.count_host, Dev.masthead_host, Dev.setEvent_host, ite_self]
@[simp] theorem Dev.raise_hostMem (d : Dev) (k i : Nat) : (d.raise k i).hostMem = d.hostMem := by
  unfold Dev.raise; split
  · rfl
  · simp only [Dev.pinFault_hostMem, apply_ite Dev.hostMem, Dev.fatalStop_hostMem, Dev.count_hostMem, Dev.masthead_hostMem, Dev.setEvent_hostMem, ite_self]
@[simp] theorem Dev.raise_dataMem (d : Dev) (k i : Nat) : (d.raise k i).dataMem = d.dataMem := by
  unfold Dev.raise; split
  · rfl
  · simp only [Dev.pinFault_dataMem, apply_ite Dev.dataMem, Dev.fatalStop_dataMem, Dev.count_dataMem, Dev.masthead_dataMem, Dev.setEvent_dataMem, ite_self]
@[simp] theorem Dev.raise_intc (d : Dev) (k i : Nat) : (d.raise k i).intc = d.intc := by
  unfold Dev.raise; split
  · rfl
  · simp only [Dev.pinFault_intc, apply_ite Dev.intc, Dev.fatalStop_intc, Dev.count_intc, Dev.masthead_intc, Dev.setEvent_intc, ite_self]
@[simp] theorem Dev.raise_media (d : Dev) (k i : Nat) : (d.raise k i).media = d.media := by
  unfold Dev.raise; split
  · rfl
  · simp only [Dev.pinFault_media, apply_ite Dev.media, Dev.fatalStop_media, Dev.count_media, Dev.masthead_media, Dev.setEvent_media, ite_self]
@[simp] theorem Dev.raise_dlv (d : Dev) (k i : Nat) : (d.raise k i).dlv = d.dlv := by
  unfold Dev.raise; split
  · rfl
  · simp only [Dev.pinFault_dlv, apply_ite Dev.dlv, Dev.fatalStop_dlv, Dev.count_dlv, Dev.masthead_dlv, Dev.setEvent_dlv, ite_self]
@[simp] theorem Dev.raise_eth (d : Dev) (k i : Nat) : (d.raise k i).eth = d.eth := by
  unfold Dev.raise; split
  · rfl
  · simp only [Dev.pinFault_eth, apply_ite Dev.eth, Dev.fatalStop_eth, Dev.count_eth, Dev.masthead_eth, Dev.setEvent_eth, ite_self]
@[simp] theorem Dev.raise_par (d : Dev) (k i : Nat) : (d.raise k i).par = d.par := by
  unfold Dev.raise; split
  · rfl
  · simp only [Dev.pinFault_par, apply_ite Dev.par, Dev.fatalStop_par, Dev.count_par, Dev.masthead_par, Dev.setEvent_par, ite_self]
@[simp] theorem Dev.raise_qm (d : Dev) (k i : Nat) : (d.raise k i).qm = d.qm := by
  unfold Dev.raise; split
  · rfl
  · simp only [Dev.pinFault_qm, apply_ite Dev.qm, Dev.fatalStop_qm, Dev.count_qm, Dev.masthead_qm, Dev.setEvent_qm, ite_self]
@[simp] theorem Dev.raise_mem (d : Dev) (k i : Nat) : (d.raise k i).mem = d.mem := by
  unfold Dev.raise; split
  · rfl
  · simp only [Dev.pinFault_mem, apply_ite Dev.mem, Dev.fatalStop_mem, Dev.count_mem, Dev.masthead_mem, Dev.setEvent_mem, ite_self]
@[simp] theorem Dev.raise_prot (d : Dev) (k i : Nat) : (d.raise k i).prot = d.prot := by
  unfold Dev.raise; split
  · rfl
  · simp only [Dev.pinFault_prot, apply_ite Dev.prot, Dev.fatalStop_prot, Dev.count_prot, Dev.masthead_prot, Dev.setEvent_prot, ite_self]
@[simp] theorem Dev.raise_bun (d : Dev) (k i : Nat) : (d.raise k i).bun = d.bun := by
  unfold Dev.raise; split
  · rfl
  · simp only [Dev.pinFault_bun, apply_ite Dev.bun, Dev.fatalStop_bun, Dev.count_bun, Dev.masthead_bun, Dev.setEvent_bun, ite_self]
@[simp] theorem Dev.raise_dma (d : Dev) (k i : Nat) : (d.raise k i).dma = d.dma := by
  unfold Dev.raise; split
  · rfl
  · simp only [Dev.pinFault_dma, apply_ite Dev.dma, Dev.fatalStop_dma, Dev.count_dma, Dev.masthead_dma, Dev.setEvent_dma, ite_self]
@[simp] theorem Dev.raise_mgmt (d : Dev) (k i : Nat) : (d.raise k i).mgmt = d.mgmt := by
  unfold Dev.raise; split
  · rfl
  · simp only [Dev.pinFault_mgmt, apply_ite Dev.mgmt, Dev.fatalStop_mgmt, Dev.count_mgmt, Dev.masthead_mgmt, Dev.setEvent_mgmt, ite_self]
@[simp] theorem Dev.raise_pm (d : Dev) (k i : Nat) : (d.raise k i).pm = d.pm := by
  unfold Dev.raise; split
  · rfl
  · simp only [Dev.pinFault_pm, apply_ite Dev.pm, Dev.fatalStop_pm, Dev.count_pm, Dev.masthead_pm, Dev.setEvent_pm, ite_self]
@[simp] theorem Dev.raise_out (d : Dev) (k i : Nat) : (d.raise k i).out = d.out := by
  unfold Dev.raise; split
  · rfl
  · simp only [Dev.pinFault_out, apply_ite Dev.out, Dev.fatalStop_out, Dev.count_out, Dev.masthead_out, Dev.setEvent_out, ite_self]

@[simp] theorem Dev.condStart_staged (d : Dev) (k i : Nat) : (d.condStart k i).staged = d.staged := by simp only [Dev.condStart, apply_ite Dev.staged, Dev.raise_staged, ite_self]
@[simp] theorem Dev.condStart_applied (d : Dev) (k i : Nat) : (d.condStart k i).applied = d.applied := by simp only [Dev.condStart, apply_ite Dev.applied, Dev.raise_applied, ite_self]
@[simp] theorem Dev.condStart_tb (d : Dev) (k i : Nat) : (d.condStart k i).tb = d.tb := by simp only [Dev.condStart, apply_ite Dev.tb, Dev.raise_tb, ite_self]
@[simp] theorem Dev.condStart_host (d : Dev) (k i : Nat) : (d.condStart k i).host = d.host := by simp only [Dev.condStart, apply_ite Dev.host, Dev.raise_host, ite_self]
@[simp] theorem Dev.condStart_hostMem (d : Dev) (k i : Nat) : (d.condStart k i).hostMem = d.hostMem := by simp only [Dev.condStart, apply_ite Dev.hostMem, Dev.raise_hostMem, ite_self]
@[simp] theorem Dev.condStart_dataMem (d : Dev) (k i : Nat) : (d.condStart k i).dataMem = d.dataMem := by simp only [Dev.condStart, apply_ite Dev.dataMem, Dev.raise_dataMem, ite_self]
@[simp] theorem Dev.condStart_intc (d : Dev) (k i : Nat) : (d.condStart k i).intc = d.intc := by simp only [Dev.condStart, apply_ite Dev.intc, Dev.raise_intc, ite_self]
@[simp] theorem Dev.condStart_media (d : Dev) (k i : Nat) : (d.condStart k i).media = d.media := by simp only [Dev.condStart, apply_ite Dev.media, Dev.raise_media, ite_self]
@[simp] theorem Dev.condStart_dlv (d : Dev) (k i : Nat) : (d.condStart k i).dlv = d.dlv := by simp only [Dev.condStart, apply_ite Dev.dlv, Dev.raise_dlv, ite_self]
@[simp] theorem Dev.condStart_eth (d : Dev) (k i : Nat) : (d.condStart k i).eth = d.eth := by simp only [Dev.condStart, apply_ite Dev.eth, Dev.raise_eth, ite_self]
@[simp] theorem Dev.condStart_par (d : Dev) (k i : Nat) : (d.condStart k i).par = d.par := by simp only [Dev.condStart, apply_ite Dev.par, Dev.raise_par, ite_self]
@[simp] theorem Dev.condStart_qm (d : Dev) (k i : Nat) : (d.condStart k i).qm = d.qm := by simp only [Dev.condStart, apply_ite Dev.qm, Dev.raise_qm, ite_self]
@[simp] theorem Dev.condStart_mem (d : Dev) (k i : Nat) : (d.condStart k i).mem = d.mem := by simp only [Dev.condStart, apply_ite Dev.mem, Dev.raise_mem, ite_self]
@[simp] theorem Dev.condStart_prot (d : Dev) (k i : Nat) : (d.condStart k i).prot = d.prot := by simp only [Dev.condStart, apply_ite Dev.prot, Dev.raise_prot, ite_self]
@[simp] theorem Dev.condStart_bun (d : Dev) (k i : Nat) : (d.condStart k i).bun = d.bun := by simp only [Dev.condStart, apply_ite Dev.bun, Dev.raise_bun, ite_self]
@[simp] theorem Dev.condStart_dma (d : Dev) (k i : Nat) : (d.condStart k i).dma = d.dma := by simp only [Dev.condStart, apply_ite Dev.dma, Dev.raise_dma, ite_self]
@[simp] theorem Dev.condStart_mgmt (d : Dev) (k i : Nat) : (d.condStart k i).mgmt = d.mgmt := by simp only [Dev.condStart, apply_ite Dev.mgmt, Dev.raise_mgmt, ite_self]
@[simp] theorem Dev.condStart_pm (d : Dev) (k i : Nat) : (d.condStart k i).pm = d.pm := by simp only [Dev.condStart, apply_ite Dev.pm, Dev.raise_pm, ite_self]
@[simp] theorem Dev.condStart_out (d : Dev) (k i : Nat) : (d.condStart k i).out = d.out := by simp only [Dev.condStart, apply_ite Dev.out, Dev.raise_out, ite_self]

@[simp] theorem Dev.bar0Refuse_staged (d : Dev) : (d.bar0Refuse).staged = d.staged := by simp only [Dev.bar0Refuse, Dev.raise_staged, Dev.count_staged]
@[simp] theorem Dev.bar0Refuse_applied (d : Dev) : (d.bar0Refuse).applied = d.applied := by simp only [Dev.bar0Refuse, Dev.raise_applied, Dev.count_applied]
@[simp] theorem Dev.bar0Refuse_tb (d : Dev) : (d.bar0Refuse).tb = d.tb := by simp only [Dev.bar0Refuse, Dev.raise_tb, Dev.count_tb]
@[simp] theorem Dev.bar0Refuse_host (d : Dev) : (d.bar0Refuse).host = d.host := by simp only [Dev.bar0Refuse, Dev.raise_host, Dev.count_host]
@[simp] theorem Dev.bar0Refuse_hostMem (d : Dev) : (d.bar0Refuse).hostMem = d.hostMem := by simp only [Dev.bar0Refuse, Dev.raise_hostMem, Dev.count_hostMem]
@[simp] theorem Dev.bar0Refuse_dataMem (d : Dev) : (d.bar0Refuse).dataMem = d.dataMem := by simp only [Dev.bar0Refuse, Dev.raise_dataMem, Dev.count_dataMem]
@[simp] theorem Dev.bar0Refuse_intc (d : Dev) : (d.bar0Refuse).intc = d.intc := by simp only [Dev.bar0Refuse, Dev.raise_intc, Dev.count_intc]
@[simp] theorem Dev.bar0Refuse_media (d : Dev) : (d.bar0Refuse).media = d.media := by simp only [Dev.bar0Refuse, Dev.raise_media, Dev.count_media]
@[simp] theorem Dev.bar0Refuse_dlv (d : Dev) : (d.bar0Refuse).dlv = d.dlv := by simp only [Dev.bar0Refuse, Dev.raise_dlv, Dev.count_dlv]
@[simp] theorem Dev.bar0Refuse_eth (d : Dev) : (d.bar0Refuse).eth = d.eth := by simp only [Dev.bar0Refuse, Dev.raise_eth, Dev.count_eth]
@[simp] theorem Dev.bar0Refuse_par (d : Dev) : (d.bar0Refuse).par = d.par := by simp only [Dev.bar0Refuse, Dev.raise_par, Dev.count_par]
@[simp] theorem Dev.bar0Refuse_qm (d : Dev) : (d.bar0Refuse).qm = d.qm := by simp only [Dev.bar0Refuse, Dev.raise_qm, Dev.count_qm]
@[simp] theorem Dev.bar0Refuse_mem (d : Dev) : (d.bar0Refuse).mem = d.mem := by simp only [Dev.bar0Refuse, Dev.raise_mem, Dev.count_mem]
@[simp] theorem Dev.bar0Refuse_prot (d : Dev) : (d.bar0Refuse).prot = d.prot := by simp only [Dev.bar0Refuse, Dev.raise_prot, Dev.count_prot]
@[simp] theorem Dev.bar0Refuse_bun (d : Dev) : (d.bar0Refuse).bun = d.bun := by simp only [Dev.bar0Refuse, Dev.raise_bun, Dev.count_bun]
@[simp] theorem Dev.bar0Refuse_dma (d : Dev) : (d.bar0Refuse).dma = d.dma := by simp only [Dev.bar0Refuse, Dev.raise_dma, Dev.count_dma]
@[simp] theorem Dev.bar0Refuse_mgmt (d : Dev) : (d.bar0Refuse).mgmt = d.mgmt := by simp only [Dev.bar0Refuse, Dev.raise_mgmt, Dev.count_mgmt]
@[simp] theorem Dev.bar0Refuse_pm (d : Dev) : (d.bar0Refuse).pm = d.pm := by simp only [Dev.bar0Refuse, Dev.raise_pm, Dev.count_pm]
@[simp] theorem Dev.bar0Refuse_out (d : Dev) : (d.bar0Refuse).out = d.out := by simp only [Dev.bar0Refuse, Dev.raise_out, Dev.count_out]

@[simp] theorem Dev.protCount_staged (d : Dev) (k : Nat) : (d.protCount k).staged = d.staged := by simp only [Dev.protCount, Dev.satFld_staged]
@[simp] theorem Dev.protCount_applied (d : Dev) (k : Nat) : (d.protCount k).applied = d.applied := by simp only [Dev.protCount, Dev.satFld_applied]
@[simp] theorem Dev.protCount_tb (d : Dev) (k : Nat) : (d.protCount k).tb = d.tb := by simp only [Dev.protCount, Dev.satFld_tb]
@[simp] theorem Dev.protCount_host (d : Dev) (k : Nat) : (d.protCount k).host = d.host := by simp only [Dev.protCount, Dev.satFld_host]
@[simp] theorem Dev.protCount_hostMem (d : Dev) (k : Nat) : (d.protCount k).hostMem = d.hostMem := by simp only [Dev.protCount, Dev.satFld_hostMem]
@[simp] theorem Dev.protCount_dataMem (d : Dev) (k : Nat) : (d.protCount k).dataMem = d.dataMem := by simp only [Dev.protCount, Dev.satFld_dataMem]
@[simp] theorem Dev.protCount_intc (d : Dev) (k : Nat) : (d.protCount k).intc = d.intc := by simp only [Dev.protCount, Dev.satFld_intc]
@[simp] theorem Dev.protCount_fc (d : Dev) (k : Nat) : (d.protCount k).fc = d.fc := by simp only [Dev.protCount, Dev.satFld_fc]
@[simp] theorem Dev.protCount_media (d : Dev) (k : Nat) : (d.protCount k).media = d.media := by simp only [Dev.protCount, Dev.satFld_media]
@[simp] theorem Dev.protCount_dlv (d : Dev) (k : Nat) : (d.protCount k).dlv = d.dlv := by simp only [Dev.protCount, Dev.satFld_dlv]
@[simp] theorem Dev.protCount_eth (d : Dev) (k : Nat) : (d.protCount k).eth = d.eth := by simp only [Dev.protCount, Dev.satFld_eth]
@[simp] theorem Dev.protCount_par (d : Dev) (k : Nat) : (d.protCount k).par = d.par := by simp only [Dev.protCount, Dev.satFld_par]
@[simp] theorem Dev.protCount_qm (d : Dev) (k : Nat) : (d.protCount k).qm = d.qm := by simp only [Dev.protCount, Dev.satFld_qm]
@[simp] theorem Dev.protCount_mem (d : Dev) (k : Nat) : (d.protCount k).mem = d.mem := by simp only [Dev.protCount, Dev.satFld_mem]
@[simp] theorem Dev.protCount_prot (d : Dev) (k : Nat) : (d.protCount k).prot = d.prot := by simp only [Dev.protCount, Dev.satFld_prot]
@[simp] theorem Dev.protCount_bun (d : Dev) (k : Nat) : (d.protCount k).bun = d.bun := by simp only [Dev.protCount, Dev.satFld_bun]
@[simp] theorem Dev.protCount_dma (d : Dev) (k : Nat) : (d.protCount k).dma = d.dma := by simp only [Dev.protCount, Dev.satFld_dma]
@[simp] theorem Dev.protCount_mgmt (d : Dev) (k : Nat) : (d.protCount k).mgmt = d.mgmt := by simp only [Dev.protCount, Dev.satFld_mgmt]
@[simp] theorem Dev.protCount_pm (d : Dev) (k : Nat) : (d.protCount k).pm = d.pm := by simp only [Dev.protCount, Dev.satFld_pm]
@[simp] theorem Dev.protCount_pins (d : Dev) (k : Nat) : (d.protCount k).pins = d.pins := by simp only [Dev.protCount, Dev.satFld_pins]
@[simp] theorem Dev.protCount_freeCtr (d : Dev) (k : Nat) : (d.protCount k).freeCtr = d.freeCtr := by simp only [Dev.protCount, Dev.satFld_freeCtr]
@[simp] theorem Dev.protCount_out (d : Dev) (k : Nat) : (d.protCount k).out = d.out := by simp only [Dev.protCount, Dev.satFld_out]

@[simp] theorem Dev.poisonRead_staged (d : Dev) (a n : Nat) : (d.poisonRead a n).staged = d.staged := by simp only [Dev.poisonRead, apply_ite Dev.staged, Dev.count_staged, ite_self]
@[simp] theorem Dev.poisonRead_applied (d : Dev) (a n : Nat) : (d.poisonRead a n).applied = d.applied := by simp only [Dev.poisonRead, apply_ite Dev.applied, Dev.count_applied, ite_self]
@[simp] theorem Dev.poisonRead_tb (d : Dev) (a n : Nat) : (d.poisonRead a n).tb = d.tb := by simp only [Dev.poisonRead, apply_ite Dev.tb, Dev.count_tb, ite_self]
@[simp] theorem Dev.poisonRead_host (d : Dev) (a n : Nat) : (d.poisonRead a n).host = d.host := by simp only [Dev.poisonRead, apply_ite Dev.host, Dev.count_host, ite_self]
@[simp] theorem Dev.poisonRead_hostMem (d : Dev) (a n : Nat) : (d.poisonRead a n).hostMem = d.hostMem := by simp only [Dev.poisonRead, apply_ite Dev.hostMem, Dev.count_hostMem, ite_self]
@[simp] theorem Dev.poisonRead_dataMem (d : Dev) (a n : Nat) : (d.poisonRead a n).dataMem = d.dataMem := by simp only [Dev.poisonRead, apply_ite Dev.dataMem, Dev.count_dataMem, ite_self]
@[simp] theorem Dev.poisonRead_intc (d : Dev) (a n : Nat) : (d.poisonRead a n).intc = d.intc := by simp only [Dev.poisonRead, apply_ite Dev.intc, Dev.count_intc, ite_self]
@[simp] theorem Dev.poisonRead_fc (d : Dev) (a n : Nat) : (d.poisonRead a n).fc = d.fc := by simp only [Dev.poisonRead, apply_ite Dev.fc, Dev.count_fc, ite_self]
@[simp] theorem Dev.poisonRead_media (d : Dev) (a n : Nat) : (d.poisonRead a n).media = d.media := by simp only [Dev.poisonRead, apply_ite Dev.media, Dev.count_media, ite_self]
@[simp] theorem Dev.poisonRead_dlv (d : Dev) (a n : Nat) : (d.poisonRead a n).dlv = d.dlv := by simp only [Dev.poisonRead, apply_ite Dev.dlv, Dev.count_dlv, ite_self]
@[simp] theorem Dev.poisonRead_eth (d : Dev) (a n : Nat) : (d.poisonRead a n).eth = d.eth := by simp only [Dev.poisonRead, apply_ite Dev.eth, Dev.count_eth, ite_self]
@[simp] theorem Dev.poisonRead_par (d : Dev) (a n : Nat) : (d.poisonRead a n).par = d.par := by simp only [Dev.poisonRead, apply_ite Dev.par, Dev.count_par, ite_self]
@[simp] theorem Dev.poisonRead_qm (d : Dev) (a n : Nat) : (d.poisonRead a n).qm = d.qm := by simp only [Dev.poisonRead, apply_ite Dev.qm, Dev.count_qm, ite_self]
@[simp] theorem Dev.poisonRead_mem (d : Dev) (a n : Nat) : (d.poisonRead a n).mem = d.mem := by simp only [Dev.poisonRead, apply_ite Dev.mem, Dev.count_mem, ite_self]
@[simp] theorem Dev.poisonRead_prot (d : Dev) (a n : Nat) : (d.poisonRead a n).prot = d.prot := by simp only [Dev.poisonRead, apply_ite Dev.prot, Dev.count_prot, ite_self]
@[simp] theorem Dev.poisonRead_bun (d : Dev) (a n : Nat) : (d.poisonRead a n).bun = d.bun := by simp only [Dev.poisonRead, apply_ite Dev.bun, Dev.count_bun, ite_self]
@[simp] theorem Dev.poisonRead_dma (d : Dev) (a n : Nat) : (d.poisonRead a n).dma = d.dma := by simp only [Dev.poisonRead, apply_ite Dev.dma, Dev.count_dma, ite_self]
@[simp] theorem Dev.poisonRead_mgmt (d : Dev) (a n : Nat) : (d.poisonRead a n).mgmt = d.mgmt := by simp only [Dev.poisonRead, apply_ite Dev.mgmt, Dev.count_mgmt, ite_self]
@[simp] theorem Dev.poisonRead_pm (d : Dev) (a n : Nat) : (d.poisonRead a n).pm = d.pm := by simp only [Dev.poisonRead, apply_ite Dev.pm, Dev.count_pm, ite_self]
@[simp] theorem Dev.poisonRead_pins (d : Dev) (a n : Nat) : (d.poisonRead a n).pins = d.pins := by simp only [Dev.poisonRead, apply_ite Dev.pins, Dev.count_pins, ite_self]
@[simp] theorem Dev.poisonRead_freeCtr (d : Dev) (a n : Nat) : (d.poisonRead a n).freeCtr = d.freeCtr := by simp only [Dev.poisonRead, apply_ite Dev.freeCtr, Dev.count_freeCtr, ite_self]
@[simp] theorem Dev.poisonRead_out (d : Dev) (a n : Nat) : (d.poisonRead a n).out = d.out := by simp only [Dev.poisonRead, apply_ite Dev.out, Dev.count_out, ite_self]

@[simp] theorem Dev.setIntStack_regs (d : Dev) (k : Nat) (l : List (Nat × Nat)) : (d.setIntStack k l).regs = d.regs := d.withIntc_regs _
@[simp] theorem Dev.setIntStack_staged (d : Dev) (k : Nat) (l : List (Nat × Nat)) : (d.setIntStack k l).staged = d.staged := d.withIntc_staged _
@[simp] theorem Dev.setIntStack_applied (d : Dev) (k : Nat) (l : List (Nat × Nat)) : (d.setIntStack k l).applied = d.applied := d.withIntc_applied _
@[simp] theorem Dev.setIntStack_tb (d : Dev) (k : Nat) (l : List (Nat × Nat)) : (d.setIntStack k l).tb = d.tb := d.withIntc_tb _
@[simp] theorem Dev.setIntStack_host (d : Dev) (k : Nat) (l : List (Nat × Nat)) : (d.setIntStack k l).host = d.host := d.withIntc_host _
@[simp] theorem Dev.setIntStack_hostMem (d : Dev) (k : Nat) (l : List (Nat × Nat)) : (d.setIntStack k l).hostMem = d.hostMem := d.withIntc_hostMem _
@[simp] theorem Dev.setIntStack_dataMem (d : Dev) (k : Nat) (l : List (Nat × Nat)) : (d.setIntStack k l).dataMem = d.dataMem := d.withIntc_dataMem _
@[simp] theorem Dev.setIntStack_fc (d : Dev) (k : Nat) (l : List (Nat × Nat)) : (d.setIntStack k l).fc = d.fc := d.withIntc_fc _
@[simp] theorem Dev.setIntStack_media (d : Dev) (k : Nat) (l : List (Nat × Nat)) : (d.setIntStack k l).media = d.media := d.withIntc_media _
@[simp] theorem Dev.setIntStack_dlv (d : Dev) (k : Nat) (l : List (Nat × Nat)) : (d.setIntStack k l).dlv = d.dlv := d.withIntc_dlv _
@[simp] theorem Dev.setIntStack_eth (d : Dev) (k : Nat) (l : List (Nat × Nat)) : (d.setIntStack k l).eth = d.eth := d.withIntc_eth _
@[simp] theorem Dev.setIntStack_par (d : Dev) (k : Nat) (l : List (Nat × Nat)) : (d.setIntStack k l).par = d.par := d.withIntc_par _
@[simp] theorem Dev.setIntStack_qm (d : Dev) (k : Nat) (l : List (Nat × Nat)) : (d.setIntStack k l).qm = d.qm := d.withIntc_qm _
@[simp] theorem Dev.setIntStack_mem (d : Dev) (k : Nat) (l : List (Nat × Nat)) : (d.setIntStack k l).mem = d.mem := d.withIntc_mem _
@[simp] theorem Dev.setIntStack_prot (d : Dev) (k : Nat) (l : List (Nat × Nat)) : (d.setIntStack k l).prot = d.prot := d.withIntc_prot _
@[simp] theorem Dev.setIntStack_bun (d : Dev) (k : Nat) (l : List (Nat × Nat)) : (d.setIntStack k l).bun = d.bun := d.withIntc_bun _
@[simp] theorem Dev.setIntStack_dma (d : Dev) (k : Nat) (l : List (Nat × Nat)) : (d.setIntStack k l).dma = d.dma := d.withIntc_dma _
@[simp] theorem Dev.setIntStack_mgmt (d : Dev) (k : Nat) (l : List (Nat × Nat)) : (d.setIntStack k l).mgmt = d.mgmt := d.withIntc_mgmt _
@[simp] theorem Dev.setIntStack_pm (d : Dev) (k : Nat) (l : List (Nat × Nat)) : (d.setIntStack k l).pm = d.pm := d.withIntc_pm _
@[simp] theorem Dev.setIntStack_pins (d : Dev) (k : Nat) (l : List (Nat × Nat)) : (d.setIntStack k l).pins = d.pins := d.withIntc_pins _
@[simp] theorem Dev.setIntStack_freeCtr (d : Dev) (k : Nat) (l : List (Nat × Nat)) : (d.setIntStack k l).freeCtr = d.freeCtr := d.withIntc_freeCtr _
@[simp] theorem Dev.setIntStack_out (d : Dev) (k : Nat) (l : List (Nat × Nat)) : (d.setIntStack k l).out = d.out := d.withIntc_out _

@[simp] theorem Dev.setFn_regs (d : Dev) (f : Nat) (x : FnState) : (d.setFn f x).regs = d.regs := d.withHost_regs _
@[simp] theorem Dev.setFn_staged (d : Dev) (f : Nat) (x : FnState) : (d.setFn f x).staged = d.staged := d.withHost_staged _
@[simp] theorem Dev.setFn_applied (d : Dev) (f : Nat) (x : FnState) : (d.setFn f x).applied = d.applied := d.withHost_applied _
@[simp] theorem Dev.setFn_tb (d : Dev) (f : Nat) (x : FnState) : (d.setFn f x).tb = d.tb := d.withHost_tb _
@[simp] theorem Dev.setFn_hostMem (d : Dev) (f : Nat) (x : FnState) : (d.setFn f x).hostMem = d.hostMem := d.withHost_hostMem _
@[simp] theorem Dev.setFn_dataMem (d : Dev) (f : Nat) (x : FnState) : (d.setFn f x).dataMem = d.dataMem := d.withHost_dataMem _
@[simp] theorem Dev.setFn_intc (d : Dev) (f : Nat) (x : FnState) : (d.setFn f x).intc = d.intc := d.withHost_intc _
@[simp] theorem Dev.setFn_fc (d : Dev) (f : Nat) (x : FnState) : (d.setFn f x).fc = d.fc := d.withHost_fc _
@[simp] theorem Dev.setFn_media (d : Dev) (f : Nat) (x : FnState) : (d.setFn f x).media = d.media := d.withHost_media _
@[simp] theorem Dev.setFn_dlv (d : Dev) (f : Nat) (x : FnState) : (d.setFn f x).dlv = d.dlv := d.withHost_dlv _
@[simp] theorem Dev.setFn_eth (d : Dev) (f : Nat) (x : FnState) : (d.setFn f x).eth = d.eth := d.withHost_eth _
@[simp] theorem Dev.setFn_par (d : Dev) (f : Nat) (x : FnState) : (d.setFn f x).par = d.par := d.withHost_par _
@[simp] theorem Dev.setFn_qm (d : Dev) (f : Nat) (x : FnState) : (d.setFn f x).qm = d.qm := d.withHost_qm _
@[simp] theorem Dev.setFn_mem (d : Dev) (f : Nat) (x : FnState) : (d.setFn f x).mem = d.mem := d.withHost_mem _
@[simp] theorem Dev.setFn_prot (d : Dev) (f : Nat) (x : FnState) : (d.setFn f x).prot = d.prot := d.withHost_prot _
@[simp] theorem Dev.setFn_bun (d : Dev) (f : Nat) (x : FnState) : (d.setFn f x).bun = d.bun := d.withHost_bun _
@[simp] theorem Dev.setFn_dma (d : Dev) (f : Nat) (x : FnState) : (d.setFn f x).dma = d.dma := d.withHost_dma _
@[simp] theorem Dev.setFn_mgmt (d : Dev) (f : Nat) (x : FnState) : (d.setFn f x).mgmt = d.mgmt := d.withHost_mgmt _
@[simp] theorem Dev.setFn_pm (d : Dev) (f : Nat) (x : FnState) : (d.setFn f x).pm = d.pm := d.withHost_pm _
@[simp] theorem Dev.setFn_pins (d : Dev) (f : Nat) (x : FnState) : (d.setFn f x).pins = d.pins := d.withHost_pins _
@[simp] theorem Dev.setFn_freeCtr (d : Dev) (f : Nat) (x : FnState) : (d.setFn f x).freeCtr = d.freeCtr := d.withHost_freeCtr _
@[simp] theorem Dev.setFn_out (d : Dev) (f : Nat) (x : FnState) : (d.setFn f x).out = d.out := d.withHost_out _

@[simp] theorem Dev.setRing_regs (d : Dev) (r : Nat) (x : Ring) : (d.setRing r x).regs = d.regs := d.withHost_regs _
@[simp] theorem Dev.setRing_staged (d : Dev) (r : Nat) (x : Ring) : (d.setRing r x).staged = d.staged := d.withHost_staged _
@[simp] theorem Dev.setRing_applied (d : Dev) (r : Nat) (x : Ring) : (d.setRing r x).applied = d.applied := d.withHost_applied _
@[simp] theorem Dev.setRing_tb (d : Dev) (r : Nat) (x : Ring) : (d.setRing r x).tb = d.tb := d.withHost_tb _
@[simp] theorem Dev.setRing_hostMem (d : Dev) (r : Nat) (x : Ring) : (d.setRing r x).hostMem = d.hostMem := d.withHost_hostMem _
@[simp] theorem Dev.setRing_dataMem (d : Dev) (r : Nat) (x : Ring) : (d.setRing r x).dataMem = d.dataMem := d.withHost_dataMem _
@[simp] theorem Dev.setRing_intc (d : Dev) (r : Nat) (x : Ring) : (d.setRing r x).intc = d.intc := d.withHost_intc _
@[simp] theorem Dev.setRing_fc (d : Dev) (r : Nat) (x : Ring) : (d.setRing r x).fc = d.fc := d.withHost_fc _
@[simp] theorem Dev.setRing_media (d : Dev) (r : Nat) (x : Ring) : (d.setRing r x).media = d.media := d.withHost_media _
@[simp] theorem Dev.setRing_dlv (d : Dev) (r : Nat) (x : Ring) : (d.setRing r x).dlv = d.dlv := d.withHost_dlv _
@[simp] theorem Dev.setRing_eth (d : Dev) (r : Nat) (x : Ring) : (d.setRing r x).eth = d.eth := d.withHost_eth _
@[simp] theorem Dev.setRing_par (d : Dev) (r : Nat) (x : Ring) : (d.setRing r x).par = d.par := d.withHost_par _
@[simp] theorem Dev.setRing_qm (d : Dev) (r : Nat) (x : Ring) : (d.setRing r x).qm = d.qm := d.withHost_qm _
@[simp] theorem Dev.setRing_mem (d : Dev) (r : Nat) (x : Ring) : (d.setRing r x).mem = d.mem := d.withHost_mem _
@[simp] theorem Dev.setRing_prot (d : Dev) (r : Nat) (x : Ring) : (d.setRing r x).prot = d.prot := d.withHost_prot _
@[simp] theorem Dev.setRing_bun (d : Dev) (r : Nat) (x : Ring) : (d.setRing r x).bun = d.bun := d.withHost_bun _
@[simp] theorem Dev.setRing_dma (d : Dev) (r : Nat) (x : Ring) : (d.setRing r x).dma = d.dma := d.withHost_dma _
@[simp] theorem Dev.setRing_mgmt (d : Dev) (r : Nat) (x : Ring) : (d.setRing r x).mgmt = d.mgmt := d.withHost_mgmt _
@[simp] theorem Dev.setRing_pm (d : Dev) (r : Nat) (x : Ring) : (d.setRing r x).pm = d.pm := d.withHost_pm _
@[simp] theorem Dev.setRing_pins (d : Dev) (r : Nat) (x : Ring) : (d.setRing r x).pins = d.pins := d.withHost_pins _
@[simp] theorem Dev.setRing_freeCtr (d : Dev) (r : Nat) (x : Ring) : (d.setRing r x).freeCtr = d.freeCtr := d.withHost_freeCtr _
@[simp] theorem Dev.setRing_out (d : Dev) (r : Nat) (x : Ring) : (d.setRing r x).out = d.out := d.withHost_out _

@[simp] theorem Dev.setCq_regs (d : Dev) (q : Nat) (x : Cq) : (d.setCq q x).regs = d.regs := d.withHost_regs _
@[simp] theorem Dev.setCq_staged (d : Dev) (q : Nat) (x : Cq) : (d.setCq q x).staged = d.staged := d.withHost_staged _
@[simp] theorem Dev.setCq_applied (d : Dev) (q : Nat) (x : Cq) : (d.setCq q x).applied = d.applied := d.withHost_applied _
@[simp] theorem Dev.setCq_tb (d : Dev) (q : Nat) (x : Cq) : (d.setCq q x).tb = d.tb := d.withHost_tb _
@[simp] theorem Dev.setCq_hostMem (d : Dev) (q : Nat) (x : Cq) : (d.setCq q x).hostMem = d.hostMem := d.withHost_hostMem _
@[simp] theorem Dev.setCq_dataMem (d : Dev) (q : Nat) (x : Cq) : (d.setCq q x).dataMem = d.dataMem := d.withHost_dataMem _
@[simp] theorem Dev.setCq_intc (d : Dev) (q : Nat) (x : Cq) : (d.setCq q x).intc = d.intc := d.withHost_intc _
@[simp] theorem Dev.setCq_fc (d : Dev) (q : Nat) (x : Cq) : (d.setCq q x).fc = d.fc := d.withHost_fc _
@[simp] theorem Dev.setCq_media (d : Dev) (q : Nat) (x : Cq) : (d.setCq q x).media = d.media := d.withHost_media _
@[simp] theorem Dev.setCq_dlv (d : Dev) (q : Nat) (x : Cq) : (d.setCq q x).dlv = d.dlv := d.withHost_dlv _
@[simp] theorem Dev.setCq_eth (d : Dev) (q : Nat) (x : Cq) : (d.setCq q x).eth = d.eth := d.withHost_eth _
@[simp] theorem Dev.setCq_par (d : Dev) (q : Nat) (x : Cq) : (d.setCq q x).par = d.par := d.withHost_par _
@[simp] theorem Dev.setCq_qm (d : Dev) (q : Nat) (x : Cq) : (d.setCq q x).qm = d.qm := d.withHost_qm _
@[simp] theorem Dev.setCq_mem (d : Dev) (q : Nat) (x : Cq) : (d.setCq q x).mem = d.mem := d.withHost_mem _
@[simp] theorem Dev.setCq_prot (d : Dev) (q : Nat) (x : Cq) : (d.setCq q x).prot = d.prot := d.withHost_prot _
@[simp] theorem Dev.setCq_bun (d : Dev) (q : Nat) (x : Cq) : (d.setCq q x).bun = d.bun := d.withHost_bun _
@[simp] theorem Dev.setCq_dma (d : Dev) (q : Nat) (x : Cq) : (d.setCq q x).dma = d.dma := d.withHost_dma _
@[simp] theorem Dev.setCq_mgmt (d : Dev) (q : Nat) (x : Cq) : (d.setCq q x).mgmt = d.mgmt := d.withHost_mgmt _
@[simp] theorem Dev.setCq_pm (d : Dev) (q : Nat) (x : Cq) : (d.setCq q x).pm = d.pm := d.withHost_pm _
@[simp] theorem Dev.setCq_pins (d : Dev) (q : Nat) (x : Cq) : (d.setCq q x).pins = d.pins := d.withHost_pins _
@[simp] theorem Dev.setCq_freeCtr (d : Dev) (q : Nat) (x : Cq) : (d.setCq q x).freeCtr = d.freeCtr := d.withHost_freeCtr _
@[simp] theorem Dev.setCq_out (d : Dev) (q : Nat) (x : Cq) : (d.setCq q x).out = d.out := d.withHost_out _

@[simp] theorem Dev.intSetPending_staged (d : Dev) (k : Nat) (on : Bool) : (d.intSetPending k on).staged = d.staged := by simp only [Dev.intSetPending, Dev.setFlag_staged]
@[simp] theorem Dev.intSetPending_applied (d : Dev) (k : Nat) (on : Bool) : (d.intSetPending k on).applied = d.applied := by simp only [Dev.intSetPending, Dev.setFlag_applied]
@[simp] theorem Dev.intSetPending_tb (d : Dev) (k : Nat) (on : Bool) : (d.intSetPending k on).tb = d.tb := by simp only [Dev.intSetPending, Dev.setFlag_tb]
@[simp] theorem Dev.intSetPending_host (d : Dev) (k : Nat) (on : Bool) : (d.intSetPending k on).host = d.host := by simp only [Dev.intSetPending, Dev.setFlag_host]
@[simp] theorem Dev.intSetPending_hostMem (d : Dev) (k : Nat) (on : Bool) : (d.intSetPending k on).hostMem = d.hostMem := by simp only [Dev.intSetPending, Dev.setFlag_hostMem]
@[simp] theorem Dev.intSetPending_dataMem (d : Dev) (k : Nat) (on : Bool) : (d.intSetPending k on).dataMem = d.dataMem := by simp only [Dev.intSetPending, Dev.setFlag_dataMem]
@[simp] theorem Dev.intSetPending_intc (d : Dev) (k : Nat) (on : Bool) : (d.intSetPending k on).intc = d.intc := by simp only [Dev.intSetPending, Dev.setFlag_intc]
@[simp] theorem Dev.intSetPending_fc (d : Dev) (k : Nat) (on : Bool) : (d.intSetPending k on).fc = d.fc := by simp only [Dev.intSetPending, Dev.setFlag_fc]
@[simp] theorem Dev.intSetPending_media (d : Dev) (k : Nat) (on : Bool) : (d.intSetPending k on).media = d.media := by simp only [Dev.intSetPending, Dev.setFlag_media]
@[simp] theorem Dev.intSetPending_dlv (d : Dev) (k : Nat) (on : Bool) : (d.intSetPending k on).dlv = d.dlv := by simp only [Dev.intSetPending, Dev.setFlag_dlv]
@[simp] theorem Dev.intSetPending_eth (d : Dev) (k : Nat) (on : Bool) : (d.intSetPending k on).eth = d.eth := by simp only [Dev.intSetPending, Dev.setFlag_eth]
@[simp] theorem Dev.intSetPending_par (d : Dev) (k : Nat) (on : Bool) : (d.intSetPending k on).par = d.par := by simp only [Dev.intSetPending, Dev.setFlag_par]
@[simp] theorem Dev.intSetPending_qm (d : Dev) (k : Nat) (on : Bool) : (d.intSetPending k on).qm = d.qm := by simp only [Dev.intSetPending, Dev.setFlag_qm]
@[simp] theorem Dev.intSetPending_mem (d : Dev) (k : Nat) (on : Bool) : (d.intSetPending k on).mem = d.mem := by simp only [Dev.intSetPending, Dev.setFlag_mem]
@[simp] theorem Dev.intSetPending_prot (d : Dev) (k : Nat) (on : Bool) : (d.intSetPending k on).prot = d.prot := by simp only [Dev.intSetPending, Dev.setFlag_prot]
@[simp] theorem Dev.intSetPending_bun (d : Dev) (k : Nat) (on : Bool) : (d.intSetPending k on).bun = d.bun := by simp only [Dev.intSetPending, Dev.setFlag_bun]
@[simp] theorem Dev.intSetPending_dma (d : Dev) (k : Nat) (on : Bool) : (d.intSetPending k on).dma = d.dma := by simp only [Dev.intSetPending, Dev.setFlag_dma]
@[simp] theorem Dev.intSetPending_mgmt (d : Dev) (k : Nat) (on : Bool) : (d.intSetPending k on).mgmt = d.mgmt := by simp only [Dev.intSetPending, Dev.setFlag_mgmt]
@[simp] theorem Dev.intSetPending_pm (d : Dev) (k : Nat) (on : Bool) : (d.intSetPending k on).pm = d.pm := by simp only [Dev.intSetPending, Dev.setFlag_pm]
@[simp] theorem Dev.intSetPending_pins (d : Dev) (k : Nat) (on : Bool) : (d.intSetPending k on).pins = d.pins := by simp only [Dev.intSetPending, Dev.setFlag_pins]
@[simp] theorem Dev.intSetPending_freeCtr (d : Dev) (k : Nat) (on : Bool) : (d.intSetPending k on).freeCtr = d.freeCtr := by simp only [Dev.intSetPending, Dev.setFlag_freeCtr]
@[simp] theorem Dev.intSetPending_out (d : Dev) (k : Nat) (on : Bool) : (d.intSetPending k on).out = d.out := by simp only [Dev.intSetPending, Dev.setFlag_out]

end Sys2Proof.Machine
end

