-- ==== Sys2Proof/Laws/Bits.lean ====
section
/-! SUPPORT. Laws of bit fields: what a field reads as after a field, a flag or an event has been written. -/

namespace Sys2Proof

/-- A replaced field as three parts: above, the field, below. -/
theorem putBits_eq (v hi lo x : Nat) (h : lo ≤ hi + 1) :
    putBits v hi lo x = v / 2 ^ (hi + 1) * 2 ^ (hi + 1) + x % 2 ^ (hi + 1 - lo) * 2 ^ lo + v % 2 ^ lo := by
  unfold putBits bits
  have hp : 2 ^ (hi + 1) = 2 ^ (hi + 1 - lo) * 2 ^ lo := by rw [← Nat.pow_add]; congr 1; omega
  generalize 2 ^ (hi + 1 - lo) = K at *
  rw [hp]
  have h1 : v / (K * 2 ^ lo) = v / 2 ^ lo / K := by rw [Nat.mul_comm, Nat.div_div_eq_div_mul]
  have h2 := Nat.div_add_mod (v / 2 ^ lo) K
  have h3 := Nat.div_add_mod v (2 ^ lo)
  rw [h1]
  generalize v / 2 ^ lo / K = A at *
  generalize v / 2 ^ lo % K = B at *
  generalize v % 2 ^ lo = C at *
  have h4 : v = A * (K * 2 ^ lo) + B * 2 ^ lo + C := by rw [← h3, ← h2]; simp only [Nat.mul_add]; ac_rfl
  rw [h4]
  generalize A * (K * 2 ^ lo) = P
  generalize B * 2 ^ lo = Q
  omega

theorem bits_lt (v hi lo : Nat) : bits v hi lo < 2 ^ (hi + 1 - lo) := Nat.mod_lt _ (Nat.two_pow_pos _)

@[simp] theorem bits_putBits_self (v hi lo x : Nat) (h : lo ≤ hi) :
    bits (putBits v hi lo x) hi lo = x % 2 ^ (hi + 1 - lo) := by
  rw [putBits_eq v hi lo x (by omega)]
  unfold bits
  have hp : 2 ^ (hi + 1) = 2 ^ (hi + 1 - lo) * 2 ^ lo := by rw [← Nat.pow_add]; congr 1; omega
  have hK : 0 < 2 ^ (hi + 1 - lo) := Nat.two_pow_pos _
  have hL : 0 < 2 ^ lo := Nat.two_pow_pos lo
  have hC := Nat.mod_lt v hL
  generalize 2 ^ (hi + 1 - lo) = K at *
  rw [hp]
  generalize v / (K * 2 ^ lo) = A
  generalize v % 2 ^ lo = C at *
  have hX := Nat.mod_lt x hK
  generalize x % K = X at *
  rw [show A * (K * 2 ^ lo) + X * 2 ^ lo + C = C + 2 ^ lo * (A * K + X) by simp only [Nat.mul_add]; ac_rfl,
    Nat.add_mul_div_left _ _ hL, Nat.div_eq_of_lt hC, Nat.zero_add, Nat.mul_comm A K, Nat.mul_add_mod,
    Nat.mod_eq_of_lt hX]

theorem bits_putBits_low (v hi lo x hi' lo' : Nat) (h : hi' < lo) (hl : lo ≤ hi + 1) :
    bits (putBits v hi lo x) hi' lo' = bits v hi' lo' := by
  rw [putBits_eq v hi lo x hl]
  by_cases hh : lo' ≤ hi'
  · have key : ∀ w : Nat, bits w hi' lo' = w % 2 ^ lo % 2 ^ (hi' + 1) / 2 ^ lo' := by
      intro w
      unfold bits
      rw [Nat.mod_mod_of_dvd _ (Nat.pow_dvd_pow 2 (by omega)),
        show 2 ^ (hi' + 1) = 2 ^ lo' * 2 ^ (hi' + 1 - lo') by rw [← Nat.pow_add]; congr 1; omega,
        Nat.mod_mul_right_div_self]
    rw [key, key v]
    congr 2
    have hp : 2 ^ (hi + 1) = 2 ^ lo * 2 ^ (hi + 1 - lo) := by rw [← Nat.pow_add]; congr 1; omega
    rw [hp, show v / (2 ^ lo * 2 ^ (hi + 1 - lo)) * (2 ^ lo * 2 ^ (hi + 1 - lo)) + x % 2 ^ (hi + 1 - lo) * 2 ^ lo +
      v % 2 ^ lo = 2 ^ lo * (v / (2 ^ lo * 2 ^ (hi + 1 - lo)) * 2 ^ (hi + 1 - lo) + x % 2 ^ (hi + 1 - lo)) +
      v % 2 ^ lo by simp only [Nat.mul_add]; ac_rfl, Nat.mul_add_mod, Nat.mod_mod]
  · unfold bits
    rw [show hi' + 1 - lo' = 0 by omega]
    simp [Nat.mod_one]

theorem bits_putBits_high (v hi lo x hi' lo' : Nat) (h : hi < lo') (hl : lo ≤ hi + 1) :
    bits (putBits v hi lo x) hi' lo' = bits v hi' lo' := by
  unfold bits
  congr 1
  rw [putBits_eq v hi lo x hl, show 2 ^ lo' = 2 ^ (hi + 1) * 2 ^ (lo' - (hi + 1)) by rw [← Nat.pow_add]; congr 1; omega,
    ← Nat.div_div_eq_div_mul, ← Nat.div_div_eq_div_mul]
  congr 1
  have hp : 2 ^ (hi + 1) = 2 ^ (hi + 1 - lo) * 2 ^ lo := by rw [← Nat.pow_add]; congr 1; omega
  have h1 : x % 2 ^ (hi + 1 - lo) * 2 ^ lo + v % 2 ^ lo < 2 ^ (hi + 1) := by
    have hx := Nat.mod_lt x (Nat.two_pow_pos (hi + 1 - lo))
    have hv := Nat.mod_lt v (Nat.two_pow_pos lo)
    calc _ < x % 2 ^ (hi + 1 - lo) * 2 ^ lo + 2 ^ lo := by omega
      _ = (x % 2 ^ (hi + 1 - lo) + 1) * 2 ^ lo := by simp only [Nat.add_mul, Nat.one_mul]
      _ ≤ 2 ^ (hi + 1 - lo) * 2 ^ lo := Nat.mul_le_mul_right _ hx
      _ = _ := hp.symm
  rw [Nat.add_assoc, Nat.mul_comm, Nat.mul_add_div (Nat.two_pow_pos _), Nat.div_eq_of_lt h1, Nat.add_zero]

/-- A register keeps the low 32 bits, so a field below bit 32 reads as the value's. -/
theorem bits_mod32 (v hi lo : Nat) (h : hi < 32) : bits (v % 2 ^ 32) hi lo = bits v hi lo := by
  by_cases hh : lo ≤ hi
  · unfold bits
    rw [show 2 ^ 32 = 2 ^ lo * 2 ^ (32 - lo) by rw [← Nat.pow_add]; congr 1; omega, Nat.mod_mul_right_div_self,
      Nat.mod_mod_of_dvd _ (Nat.pow_dvd_pow 2 (by omega))]
  · unfold bits
    rw [show hi + 1 - lo = 0 by omega]
    simp [Nat.mod_one]

theorem bit_eq_bits (v b : Nat) : bit v b = (bits v b b == 1) := by
  have h : b + 1 - b = 1 := by omega
  simp [bit, bits, h]

@[simp] theorem b2n_mod (on : Bool) : b2n on % 2 = b2n on := by cases on <;> rfl

end Sys2Proof

namespace Sys2Proof.Machine

theorem Dev.fld_setReg_self (d : Dev) (a v hi lo : Nat) (h : hi < 32) : (d.setReg a v).fld a hi lo = bits v hi lo := by
  unfold Dev.fld
  rw [Dev.reg_setReg_self, bits_mod32 v hi lo h]

theorem Dev.fld_setReg_ne (d : Dev) {a b : Nat} (h : a ≠ b) (v hi lo : Nat) :
    (d.setReg a v).fld b hi lo = d.fld b hi lo := by
  unfold Dev.fld
  rw [Dev.reg_setReg_ne d h]

theorem Dev.flag_setReg_self (d : Dev) (a v b : Nat) (h : b < 32) : (d.setReg a v).flag a b = bit v b := by
  unfold Dev.flag
  rw [Dev.reg_setReg_self, bit_eq_bits, bit_eq_bits, bits_mod32 v b b h]

theorem Dev.flag_setReg_ne (d : Dev) {a b : Nat} (h : a ≠ b) (v k : Nat) : (d.setReg a v).flag b k = d.flag b k := by
  unfold Dev.flag
  rw [Dev.reg_setReg_ne d h]

/-- A field that was written reads as what was written. -/
theorem Dev.fld_setFld_self (d : Dev) (a hi lo x : Nat) (h : lo ≤ hi) (h32 : hi < 32) :
    (d.setFld a hi lo x).fld a hi lo = x % 2 ^ (hi + 1 - lo) := by
  unfold Dev.setFld
  rw [Dev.fld_setReg_self d a _ hi lo h32, bits_putBits_self _ _ _ _ h]

/-- Another field of the register is left alone. -/
theorem Dev.fld_setFld_other (d : Dev) (a hi lo x hi' lo' : Nat) (h : hi' < lo ∨ hi < lo') (hl : lo ≤ hi + 1)
    (h32 : hi' < 32) : (d.setFld a hi lo x).fld a hi' lo' = d.fld a hi' lo' := by
  unfold Dev.setFld
  rw [Dev.fld_setReg_self d a _ hi' lo' h32]
  rcases h with h | h
  · exact bits_putBits_low _ _ _ _ _ _ h hl
  · exact bits_putBits_high _ _ _ _ _ _ h hl

theorem Dev.fld_setFld_ne (d : Dev) {a b : Nat} (h : a ≠ b) (hi lo x hi' lo' : Nat) :
    (d.setFld a hi lo x).fld b hi' lo' = d.fld b hi' lo' := d.fld_setReg_ne h _ _ _

theorem Dev.flag_eq_fld (d : Dev) (a b : Nat) : d.flag a b = (d.fld a b b == 1) := bit_eq_bits _ _

theorem Dev.fld_eq_flag (d : Dev) (a b : Nat) (on : Bool) : d.flag a b = on ↔ d.fld a b b = b2n on := by
  rw [Dev.flag_eq_fld]
  have h := bits_lt (d.reg a) b b
  rw [show b + 1 - b = 1 by omega] at h
  change d.fld a b b < 2 at h
  cases on
  · simp [b2n]; omega
  · simp [b2n]

/-- A flag that was written reads as what was written. -/
theorem Dev.flag_setFlag_self (d : Dev) (a b : Nat) (on : Bool) (h : b < 32) : (d.setFlag a b on).flag a b = on := by
  rw [Dev.fld_eq_flag]
  unfold Dev.setFlag
  rw [Dev.fld_setFld_self d a b b _ (Nat.le_refl b) h, show b + 1 - b = 1 by omega]
  exact b2n_mod on

theorem Dev.flag_setFlag_other (d : Dev) (a b k : Nat) (on : Bool) (h : k ≠ b) (hk : k < 32) :
    (d.setFlag a b on).flag a k = d.flag a k := by
  rw [Dev.flag_eq_fld, Dev.flag_eq_fld]
  unfold Dev.setFlag
  rw [Dev.fld_setFld_other d a b b _ k k (by omega) (by omega) hk]

theorem Dev.flag_setFlag_ne (d : Dev) {a b : Nat} (h : a ≠ b) (k j : Nat) (on : Bool) :
    (d.setFlag a k on).flag b j = d.flag b j := d.flag_setReg_ne h _ _

theorem Dev.fld_setFlag_ne (d : Dev) {a b : Nat} (h : a ≠ b) (k hi lo : Nat) (on : Bool) :
    (d.setFlag a k on).fld b hi lo = d.fld b hi lo := d.fld_setReg_ne h _ _ _

theorem Dev.fld_setEvent_ne (d : Dev) {a b : Nat} (h : a ≠ b) (k hi lo : Nat) :
    (d.setEvent a k).fld b hi lo = d.fld b hi lo := by
  unfold Dev.fld
  rw [Dev.reg_setEvent_ne d h]

theorem Dev.flag_setEvent_ne (d : Dev) {a b : Nat} (h : a ≠ b) (k j : Nat) :
    (d.setEvent a k).flag b j = d.flag b j := by
  unfold Dev.flag
  rw [Dev.reg_setEvent_ne d h]

/-- An event's bit is set. -/
theorem Dev.flag_setEvent_self (d : Dev) (a b : Nat) (h : b < 24) : (d.setEvent a b).flag a b = true := by
  have hb : ∀ r : Nat, bit r b = r.testBit b := by
    intro r
    rw [Nat.testBit_eq_decide_div_mod_eq]
    unfold bit
    by_cases hr : r / 2 ^ b % 2 = 1 <;> simp [hr]
  unfold Dev.setEvent Dev.setEvents
  split
  · rename_i hm
    unfold Dev.flag
    rw [hb]
    have := congrArg (Nat.testBit · b) hm
    simpa [Nat.testBit_and, Nat.testBit_two_pow_self] using this
  · rw [Dev.flag_setReg_self d a _ b (by omega), bit_eq_bits, bits_putBits_low _ _ _ _ _ _ h (by omega), ← bit_eq_bits,
      hb]
    simp [Nat.testBit_or, Nat.testBit_two_pow_self]

theorem Dev.fld_congr {d e : Dev} (h : d.regs = e.regs) (a hi lo : Nat) : d.fld a hi lo = e.fld a hi lo := by
  unfold Dev.fld; rw [Dev.reg_congr h]

theorem Dev.flag_congr {d e : Dev} (h : d.regs = e.regs) (a b : Nat) : d.flag a b = e.flag a b := by
  unfold Dev.flag; rw [Dev.reg_congr h]

end Sys2Proof.Machine
end

