-- ==== Sys2Proof/Laws/Rings.lean ====
section
/-! SUPPORT. What the operations of the Interrupt Hub, of the monitors, of the rings and of completion leave alone, and
what a command taken from a ring does. -/

namespace Sys2Proof.Machine

theorem foldl_keep {α β γ : Type} (P : α → γ) (f : α → β → α) (h : ∀ a b, P (f a b) = P a) :
    ∀ (l : List β) (a : α), P (l.foldl f a) = P a
  | [], _ => rfl
  | b :: l, a => (foldl_keep P f h l (f a b)).trans (h a b)

/-- `e` differs from `d` in the host interface, host memory, registers and staged copies, the Interrupt Hub, the pins,
the monitors and the outputs at most: the state of every other unit is the same. -/
structure Dev.OnlyHost (d e : Dev) : Prop where
  tb : e.tb = d.tb
  dataMem : e.dataMem = d.dataMem
  fc : e.fc = d.fc
  media : e.media = d.media
  dlv : e.dlv = d.dlv
  eth : e.eth = d.eth
  par : e.par = d.par
  qm : e.qm = d.qm
  mem : e.mem = d.mem
  prot : e.prot = d.prot
  bun : e.bun = d.bun
  dma : e.dma = d.dma
  mgmt : e.mgmt = d.mgmt
  freeCtr : e.freeCtr = d.freeCtr
  pins : e.pins = { d.pins with wakeN := e.pins.wakeN }
  /-- registers outside the windows of the Interrupt Hub and of the monitors -/
  reg : ∀ a, a / 0x100000 ≠ 3 → a / 0x100000 ≠ 7 → e.reg a = d.reg a

theorem Dev.OnlyHost.refl (d : Dev) : d.OnlyHost d := by
  constructor <;> intros <;> rfl

theorem Dev.OnlyHost.trans {d e f : Dev} (h : d.OnlyHost e) (g : e.OnlyHost f) : d.OnlyHost f where
  tb := g.tb.trans h.tb
  dataMem := g.dataMem.trans h.dataMem
  fc := g.fc.trans h.fc
  media := g.media.trans h.media
  dlv := g.dlv.trans h.dlv
  eth := g.eth.trans h.eth
  par := g.par.trans h.par
  qm := g.qm.trans h.qm
  mem := g.mem.trans h.mem
  prot := g.prot.trans h.prot
  bun := g.bun.trans h.bun
  dma := g.dma.trans h.dma
  mgmt := g.mgmt.trans h.mgmt
  freeCtr := g.freeCtr.trans h.freeCtr
  pins := by rw [g.pins, h.pins]
  reg a h1 h2 := (g.reg a h1 h2).trans (h.reg a h1 h2)

theorem Dev.OnlyHost.foldl {β : Type} {f : Dev → β → Dev} (h : ∀ e x, Dev.OnlyHost e (f e x)) :
    ∀ (l : List β) (d : Dev), d.OnlyHost (l.foldl f d)
  | [], d => .refl d
  | x :: l, d => (h d x).trans (Dev.OnlyHost.foldl h l (f d x))

theorem Dev.setReg_only (d : Dev) {a : Nat} (h : a / 0x100000 = 3 ∨ a / 0x100000 = 7) (v : Nat) : d.OnlyHost (d.setReg a v) where
  tb := d.setReg_tb a v
  dataMem := d.setReg_dataMem a v
  fc := d.setReg_fc a v
  media := d.setReg_media a v
  dlv := d.setReg_dlv a v
  eth := d.setReg_eth a v
  par := d.setReg_par a v
  qm := d.setReg_qm a v
  mem := d.setReg_mem a v
  prot := d.setReg_prot a v
  bun := d.setReg_bun a v
  dma := d.setReg_dma a v
  mgmt := d.setReg_mgmt a v
  freeCtr := d.setReg_freeCtr a v
  pins := by rw [Dev.setReg_pins]
  reg b h3 h7 := d.reg_setReg_ne (by rintro rfl; omega) v

theorem Dev.setFld_only (d : Dev) {a : Nat} (h : a / 0x100000 = 3 ∨ a / 0x100000 = 7) (hi lo x : Nat) : d.OnlyHost (d.setFld a hi lo x) :=
  d.setReg_only h _

theorem Dev.setFlag_only (d : Dev) {a : Nat} (h : a / 0x100000 = 3 ∨ a / 0x100000 = 7) (b : Nat) (on : Bool) :
    d.OnlyHost (d.setFlag a b on) := d.setFld_only h b b _

theorem Dev.setEvent_only (d : Dev) {a : Nat} (h : a / 0x100000 = 3 ∨ a / 0x100000 = 7) (b : Nat) : d.OnlyHost (d.setEvent a b) where
  tb := d.setEvent_tb a b
  dataMem := d.setEvent_dataMem a b
  fc := d.setEvent_fc a b
  media := d.setEvent_media a b
  dlv := d.setEvent_dlv a b
  eth := d.setEvent_eth a b
  par := d.setEvent_par a b
  qm := d.setEvent_qm a b
  mem := d.setEvent_mem a b
  prot := d.setEvent_prot a b
  bun := d.setEvent_bun a b
  dma := d.setEvent_dma a b
  mgmt := d.setEvent_mgmt a b
  freeCtr := d.setEvent_freeCtr a b
  pins := by rw [Dev.setEvent_pins]
  reg c h3 h7 := d.reg_setEvent_ne (by rintro rfl; omega) b

theorem Dev.countFld_only (d : Dev) {a : Nat} (h : a / 0x100000 = 3 ∨ a / 0x100000 = 7) (hi lo n : Nat) :
    d.OnlyHost (d.countFld a hi lo n) := d.setFld_only h hi lo _

theorem Dev.withStaged_only (d : Dev) (x : SMap W32) : d.OnlyHost { d with staged := x } := by
  constructor <;> intros <;> rfl

theorem Dev.withApplied_only (d : Dev) (x : SMap Bool) : d.OnlyHost { d with applied := x } := by
  constructor <;> intros <;> rfl

theorem Dev.withHost_only (d : Dev) (x : HostIf) : d.OnlyHost { d with host := x } := by
  constructor <;> intros <;> rfl

theorem Dev.withHostMem_only (d : Dev) (x : SMap Byte) : d.OnlyHost { d with hostMem := x } := by
  constructor <;> intros <;> rfl

theorem Dev.withIntc_only (d : Dev) (x : IntcState) : d.OnlyHost { d with intc := x } := by
  constructor <;> intros <;> rfl

theorem Dev.withPm_only (d : Dev) (x : Pm) : d.OnlyHost { d with pm := x } := by
  constructor <;> intros <;> rfl

theorem Dev.withOut_only (d : Dev) (x : List Output) : d.OnlyHost { d with out := x } := by
  constructor <;> intros <;> rfl

theorem Dev.hostWrite_only (d : Dev) (a : Nat) (l : List Byte) : d.OnlyHost (d.hostWrite a l) := d.withHostMem_only _

theorem Dev.bwAdd_only (d : Dev) (a n : Nat) : d.OnlyHost (d.bwAdd a n) := by
  unfold Dev.bwAdd
  split
  · exact d.withPm_only _
  · exact .refl d

theorem Dev.pcieIn_only (d : Dev) (n : Nat) (x : PmAttr) : d.OnlyHost (d.pcieIn n x) := by
  unfold Dev.pcieIn
  split
  · exact (d.bwAdd_only _ _).trans (Dev.withPm_only _ _)
  · exact .refl d

theorem Dev.pcieOut_only (d : Dev) (n : Nat) (x : PmAttr) : d.OnlyHost (d.pcieOut n x) := by
  unfold Dev.pcieOut
  split
  · exact (d.bwAdd_only _ _).trans (Dev.withPm_only _ _)
  · exact .refl d

theorem Dev.hostPut_only (d : Dev) (x : PmAttr) (a : Nat) (l : List Byte) : d.OnlyHost (d.hostPut x a l) :=
  (d.pcieOut_only _ _).trans (Dev.hostWrite_only _ _ _)

theorem Dev.emit_only (d : Dev) (o : Output) : d.OnlyHost (d.emit o) := d.withOut_only _

theorem Dev.setFn_only (d : Dev) (f : Nat) (x : FnState) : d.OnlyHost (d.setFn f x) := d.withHost_only _

theorem Dev.setRing_only (d : Dev) (r : Nat) (x : Ring) : d.OnlyHost (d.setRing r x) := d.withHost_only _

theorem Dev.setCq_only (d : Dev) (q : Nat) (x : Cq) : d.OnlyHost (d.setCq q x) := d.withHost_only _

/-! ### Interrupt Hub and monitors -/

theorem Dev.commitDone3_only (d : Dev) : d.OnlyHost (d.commitDone 3) := by
  unfold Dev.commitDone
  have hb : Reg.BLK_STATE 3 / 0x100000 = 3 ∨ Reg.BLK_STATE 3 / 0x100000 = 7 := .inl rfl
  refine .trans ?_ (.trans (Dev.setFld_only _ hb _ _ _) (Dev.countFld_only _ hb _ _ _))
  refine .trans (e := (d.staged.filter fun e => e.1 / 0x100000 == 3).foldl (fun e x => e.setReg x.1 x.2.toNat) d) ?_ ?_
  · have hl : ∀ x ∈ (d.staged.filter fun e => e.1 / 0x100000 == 3), x.1 / 0x100000 = 3 := by
      intro x hx
      simpa using (List.mem_filter.1 hx).2
    revert hl
    generalize (d.staged.filter fun e => e.1 / 0x100000 == 3) = l
    intro hl
    induction l generalizing d with
    | nil => exact .refl d
    | cons x r ih =>
      exact (d.setReg_only (.inl (hl x (List.mem_cons_self ..))) _).trans
        (ih _ fun y hy => hl y (List.mem_cons_of_mem _ hy))
  · constructor <;> intros <;> rfl

/-- A vector's safe point. -/
theorem Dev.safePoint3_only (d : Dev) (u : Nat) : d.OnlyHost (d.safePoint 3 u) := by
  have h : d.takeUnit 3 u = d := by simp [Dev.takeUnit]
  unfold Dev.safePoint
  rw [h]
  split
  · exact .refl d
  · dsimp only
    split
    · exact .trans (Dev.withApplied_only _ _) (Dev.commitDone3_only _)
    · exact Dev.withApplied_only _ _

theorem Dev.pinWake_only (d : Dev) : d.OnlyHost d.pinWake := by
  constructor <;> intros <;> rfl

theorem Dev.message_only (d : Dev) (f v : Nat) : d.OnlyHost (d.message f v) := by
  unfold Dev.message
  dsimp only
  have h1 := d.withIntc_only { d.intc with msgHeld := SMap.set (fun _ => false) d.intc.msgHeld (32 * f + v) true }
  have h2 : ∀ (e : Dev) (x : FnState), e.OnlyHost (((e.setFn f x).emit (.pme f)).setEvent Reg.INTC_EVENTS 1).pinWake :=
    fun e x => (((e.setFn_only f x).trans (Dev.emit_only _ _)).trans (Dev.setEvent_only _ (.inl rfl) _)).trans (Dev.pinWake_only _)
  split
  · split <;> split
    · exact h1.trans ((Dev.setFn_only _ _ _).trans (h2 _ _))
    · exact h1.trans (h2 _ _)
    · exact h1.trans (Dev.setFn_only _ _ _)
    · exact h1
  · exact .trans (.trans (Dev.withIntc_only d _) (Dev.emit_only _ _)) (Dev.safePoint3_only _ _)

theorem Dev.moderate_only (d : Dev) (f v : Nat) (w : Bool) : d.OnlyHost (d.moderate f v w) := by
  unfold Dev.moderate
  split
  · split
    · split
      · exact .refl d
      · exact d.withIntc_only _
    · exact d.message_only f v
  · exact d.message_only f v

theorem Dev.notice_only (d : Dev) (f v : Nat) (w : Bool) : d.OnlyHost (d.notice f v w) :=
  (d.safePoint3_only _).trans (Dev.moderate_only _ _ _ _)

theorem Dev.mirror_only (d : Dev) (k : Nat) : d.OnlyHost (d.mirror k) := by
  unfold Dev.mirror
  split
  · exact .refl d
  · split
    · exact d.withIntc_only _
    · exact .trans (d.withIntc_only _) (Dev.hostPut_only _ _ _ _)

theorem Dev.announce_only (d : Dev) (s : Nat) (w : Bool) : d.OnlyHost (d.announce s w) := by
  unfold Dev.announce
  split
  · exact .trans (d.mirror_only _) (Dev.notice_only _ _ _ _)
  · exact .refl d

theorem Dev.intSetPending_only (d : Dev) {s : Nat} (h : s < 1024) (on : Bool) : d.OnlyHost (d.intSetPending s on) :=
  d.setFlag_only (.inl (by unfold Reg.INTC_PENDING; omega)) _ _

theorem Dev.intUpdate_only (d0 d : Dev) : d.OnlyHost (Dev.intUpdate d0 d) := by
  unfold Dev.intUpdate
  refine Dev.OnlyHost.foldl (fun e s => ?_) _ d
  split
  · exact e.announce_only s false
  · exact .refl e

theorem Dev.intEdge_only (d : Dev) (s : Nat) (w : Bool) : d.OnlyHost (d.intEdge s w) := by
  unfold Dev.intEdge
  split
  · exact .refl d
  · rename_i hs
    have hs : s < 1024 := by omega
    dsimp only
    split
    · exact .trans (d.intSetPending_only hs true) (Dev.announce_only _ _ _)
    · split
      · exact .trans (d.intSetPending_only hs true) (Dev.message_only _ _ _)
      · exact d.intSetPending_only hs true

theorem Dev.intFollow_only (d : Dev) (s : Nat) : d.OnlyHost (d.intFollow s) := by
  unfold Dev.intFollow
  split
  · rename_i hs
    have hs : s < 1024 := by
      simp only [intIsLevel, Bool.and_eq_true, decide_eq_true_eq] at hs
      omega
    dsimp only
    split
    · exact .trans (d.intSetPending_only hs _) (Dev.intUpdate_only _ _)
    · split
      · exact .trans (d.intSetPending_only hs _) (Dev.mirror_only _ _)
      · exact d.intSetPending_only hs _
  · exact .refl d

theorem Dev.pmAdd_only {u : Nat} (hu : u < 40) : ∀ (n : Nat) (d : Dev) (k x : Nat), d.OnlyHost (d.pmAdd u n k x)
  | 0, d, _, _ => .refl d
  | n + 1, d, k, x => by
    have hr : Reg.PM_OVF u / 0x100000 = 3 ∨ Reg.PM_OVF u / 0x100000 = 7 := .inr (by unfold Reg.PM_OVF; omega)
    unfold Dev.pmAdd
    dsimp only
    split
    · exact d.withPm_only _
    · split
      · exact .trans (.trans (d.withPm_only _) (Dev.setEvent_only _ hr _)) (Dev.pmAdd_only hu n _ _ _)
      · exact .trans (d.withPm_only _) (Dev.setEvent_only _ hr _)

theorem Dev.pmEvent_only (d : Dev) {u : Nat} (hu : u < 40) (c n : Nat) (x : PmAttr) : d.OnlyHost (d.pmEvent u c n x) := by
  unfold Dev.pmEvent
  split
  · refine Dev.OnlyHost.foldl (fun e k => ?_) _ d
    split
    · exact Dev.pmAdd_only hu _ _ _ _
    · exact .refl e
  · exact .refl d

/-! ### Rings -/

theorem Dev.putRing_only (d : Dev) (r : Nat) (x : Ring) : d.OnlyHost (d.putRing r x) :=
  .trans (d.setRing_only r x) (Dev.hostPut_only _ _ _ _)

theorem Dev.hostStores_only : ∀ (l : Stores) (d : Dev), d.OnlyHost (d.hostStores l)
  | [], d => .refl d
  | (a, l) :: r, d => .trans (d.hostWrite_only a l) (Dev.hostStores_only r _)

theorem Dev.pmCompleted_only (d : Dev) (t : Nat) (op : Op) : d.OnlyHost (d.pmCompleted t op) := by
  unfold Dev.pmCompleted
  split
  · exact d.pmEvent_only (by omega) _ _ _
  · split
    · exact d.pmEvent_only (by omega) _ _ _
    · split
      · exact d.pmEvent_only (by omega) _ _ _
      · split
        · exact d.pmEvent_only (by omega) _ _ _
        · exact .refl d

theorem Dev.writeRecord_only (d : Dev) (x : Ring) (q : Cq) (op : Op) (r : Result) :
    d.OnlyHost (d.writeRecord x q op r) := by
  unfold Dev.writeRecord
  have h := ((d.hostPut_only pmSelf (q.base + q.written % 2 ^ q.sizeLog2 * 32) (recordBytes op r d.tb.dt q.phase)).trans
    (Dev.setCq_only _ x.cq { q with written := q.written + 1 })).trans (Dev.pmCompleted_only _ x.type op)
  dsimp only
  split
  · exact h
  · exact h.trans (Dev.intEdge_only _ _ _)

theorem Dev.drain_only : ∀ (l : List Op) (d : Dev) (held : List Nat), d.OnlyHost (d.drain held l).1
  | [], d, _ => .refl d
  | op :: rest, d, held => by
    unfold Dev.drain
    dsimp only
    split
    · exact Dev.drain_only rest _ _
    · split
      · exact Dev.drain_only rest _ _
      · split
        · exact Dev.drain_only rest _ _
        · split
          · exact Dev.drain_only rest _ _
          · split
            · split
              · exact Dev.drain_only rest _ _
              · exact (d.putRing_only _ _).trans (Dev.drain_only rest _ _)
            · exact (d.writeRecord_only _ _ _ _).trans (Dev.drain_only rest _ _)

theorem Dev.settle_only (d : Dev) : d.OnlyHost d.settle :=
  (Dev.drain_only d.host.ops d []).trans (Dev.withHost_only _ _)

/-- Completing an operation changes no unit but the host interface and what announces it. -/
theorem Dev.finish_only (d : Dev) (id : Nat) (r : Result) : d.OnlyHost (d.finish id r) :=
  (d.withHost_only { d.host with ops := setResult id r d.host.ops }).trans (Dev.settle_only _)

theorem Dev.addOp_only (d : Dev) (op : Op) : d.OnlyHost (d.addOp op) := d.withHost_only _

theorem Dev.takeSlots_only (d : Dev) (o : RingOp) (x : Ring) : d.OnlyHost (d.takeSlots o x) :=
  (Dev.pcieIn_only _ _ _).trans (Dev.putRing_only _ _ _)

theorem Dev.fetchNow_only (d : Dev) (o : RingOp) (x : Ring) (key : Op → Nat) : d.OnlyHost (d.fetchNow o x key).1 :=
  (d.takeSlots_only o x).trans (Dev.addOp_only _ _)

/-- Taking a descriptor changes no unit but the host interface. -/
theorem Dev.start_only (d : Dev) (o : RingOp) (k : Op → Nat) : d.OnlyHost (d.start o k).1 := by
  have h := Dev.hostStores_only o.st d
  unfold Dev.start
  dsimp only
  split
  · exact h.trans (Dev.withHost_only _ _)
  · split
    · exact h
    · split
      · exact h
      · split
        · split
          · exact h.trans ((Dev.setRing_only _ _ _).trans (Dev.withHost_only _ _))
          · exact h
        · split
          · exact h
          · exact h.trans (Dev.fetchNow_only _ _ _ _)

@[simp] theorem Dev.finish_tb (d : Dev) (id : Nat) (r : Result) : (d.finish id r).tb = d.tb := (d.finish_only id r).tb
@[simp] theorem Dev.finish_dataMem (d : Dev) (id : Nat) (r : Result) : (d.finish id r).dataMem = d.dataMem := (d.finish_only id r).dataMem
@[simp] theorem Dev.finish_fc (d : Dev) (id : Nat) (r : Result) : (d.finish id r).fc = d.fc := (d.finish_only id r).fc
@[simp] theorem Dev.finish_media (d : Dev) (id : Nat) (r : Result) : (d.finish id r).media = d.media := (d.finish_only id r).media
@[simp] theorem Dev.finish_dlv (d : Dev) (id : Nat) (r : Result) : (d.finish id r).dlv = d.dlv := (d.finish_only id r).dlv
@[simp] theorem Dev.finish_eth (d : Dev) (id : Nat) (r : Result) : (d.finish id r).eth = d.eth := (d.finish_only id r).eth
@[simp] theorem Dev.finish_par (d : Dev) (id : Nat) (r : Result) : (d.finish id r).par = d.par := (d.finish_only id r).par
@[simp] theorem Dev.finish_qm (d : Dev) (id : Nat) (r : Result) : (d.finish id r).qm = d.qm := (d.finish_only id r).qm
@[simp] theorem Dev.finish_mem (d : Dev) (id : Nat) (r : Result) : (d.finish id r).mem = d.mem := (d.finish_only id r).mem
@[simp] theorem Dev.finish_prot (d : Dev) (id : Nat) (r : Result) : (d.finish id r).prot = d.prot := (d.finish_only id r).prot
@[simp] theorem Dev.finish_bun (d : Dev) (id : Nat) (r : Result) : (d.finish id r).bun = d.bun := (d.finish_only id r).bun
@[simp] theorem Dev.finish_dma (d : Dev) (id : Nat) (r : Result) : (d.finish id r).dma = d.dma := (d.finish_only id r).dma
@[simp] theorem Dev.finish_mgmt (d : Dev) (id : Nat) (r : Result) : (d.finish id r).mgmt = d.mgmt := (d.finish_only id r).mgmt
@[simp] theorem Dev.finish_freeCtr (d : Dev) (id : Nat) (r : Result) : (d.finish id r).freeCtr = d.freeCtr := (d.finish_only id r).freeCtr

@[simp] theorem Dev.start_tb (d : Dev) (o : RingOp) (k : Op → Nat) : ((d.start o k).1).tb = d.tb := (d.start_only o k).tb
@[simp] theorem Dev.start_dataMem (d : Dev) (o : RingOp) (k : Op → Nat) : ((d.start o k).1).dataMem = d.dataMem := (d.start_only o k).dataMem
@[simp] theorem Dev.start_fc (d : Dev) (o : RingOp) (k : Op → Nat) : ((d.start o k).1).fc = d.fc := (d.start_only o k).fc
@[simp] theorem Dev.start_media (d : Dev) (o : RingOp) (k : Op → Nat) : ((d.start o k).1).media = d.media := (d.start_only o k).media
@[simp] theorem Dev.start_dlv (d : Dev) (o : RingOp) (k : Op → Nat) : ((d.start o k).1).dlv = d.dlv := (d.start_only o k).dlv
@[simp] theorem Dev.start_eth (d : Dev) (o : RingOp) (k : Op → Nat) : ((d.start o k).1).eth = d.eth := (d.start_only o k).eth
@[simp] theorem Dev.start_par (d : Dev) (o : RingOp) (k : Op → Nat) : ((d.start o k).1).par = d.par := (d.start_only o k).par
@[simp] theorem Dev.start_qm (d : Dev) (o : RingOp) (k : Op → Nat) : ((d.start o k).1).qm = d.qm := (d.start_only o k).qm
@[simp] theorem Dev.start_mem (d : Dev) (o : RingOp) (k : Op → Nat) : ((d.start o k).1).mem = d.mem := (d.start_only o k).mem
@[simp] theorem Dev.start_prot (d : Dev) (o : RingOp) (k : Op → Nat) : ((d.start o k).1).prot = d.prot := (d.start_only o k).prot
@[simp] theorem Dev.start_bun (d : Dev) (o : RingOp) (k : Op → Nat) : ((d.start o k).1).bun = d.bun := (d.start_only o k).bun
@[simp] theorem Dev.start_dma (d : Dev) (o : RingOp) (k : Op → Nat) : ((d.start o k).1).dma = d.dma := (d.start_only o k).dma
@[simp] theorem Dev.start_mgmt (d : Dev) (o : RingOp) (k : Op → Nat) : ((d.start o k).1).mgmt = d.mgmt := (d.start_only o k).mgmt
@[simp] theorem Dev.start_freeCtr (d : Dev) (o : RingOp) (k : Op → Nat) : ((d.start o k).1).freeCtr = d.freeCtr := (d.start_only o k).freeCtr

theorem Dev.finish_reg (d : Dev) (id : Nat) (r : Result) {a : Nat} (h3 : a / 0x100000 ≠ 3) (h7 : a / 0x100000 ≠ 7) :
    (d.finish id r).reg a = d.reg a := (d.finish_only id r).reg a h3 h7

theorem Dev.start_reg (d : Dev) (o : RingOp) (k : Op → Nat) {a : Nat} (h3 : a / 0x100000 ≠ 3)
    (h7 : a / 0x100000 ≠ 7) : (d.start o k).1.reg a = d.reg a := (d.start_only o k).reg a h3 h7

@[simp] theorem Dev.hostStores_epoch : ∀ (l : Stores) (d : Dev), (d.hostStores l).host.epoch = d.host.epoch
  | [], _ => rfl
  | (a, l) :: r, d => Dev.hostStores_epoch r (d.hostWrite a l)

@[simp] theorem Dev.setRing_epoch (d : Dev) (r : Nat) (x : Ring) : (d.setRing r x).host.epoch = d.host.epoch := rfl

@[simp] theorem Dev.putRing_epoch (d : Dev) (r : Nat) (x : Ring) : (d.putRing r x).host.epoch = d.host.epoch := by
  rw [Dev.putRing, Dev.writeStatus, Dev.hostPut_host, Dev.setRing_epoch]

@[simp] theorem Dev.addOp_epoch (d : Dev) (op : Op) : (d.addOp op).host.epoch = d.host.epoch := rfl

@[simp] theorem Dev.takeSlots_epoch (d : Dev) (o : RingOp) (x : Ring) : (d.takeSlots o x).host.epoch = d.host.epoch := by
  unfold Dev.takeSlots
  rw [Dev.putRing_epoch, Dev.pcieIn_host]

@[simp] theorem Dev.fetchNow_epoch (d : Dev) (o : RingOp) (x : Ring) (key : Op → Nat) :
    (d.fetchNow o x key).1.host.epoch = d.host.epoch := by
  show ((d.takeSlots o x).addOp _).host.epoch = _
  rw [Dev.addOp_epoch, Dev.takeSlots_epoch]

/-- Taking a descriptor leaves the protection epoch. -/
@[simp] theorem Dev.start_epoch (d : Dev) (o : RingOp) (key : Op → Nat) :
    (d.start o key).1.host.epoch = d.host.epoch := by
  unfold Dev.start
  dsimp only
  split
  · exact Dev.hostStores_epoch o.st d
  · split
    · exact Dev.hostStores_epoch o.st d
    · split
      · exact Dev.hostStores_epoch o.st d
      · split
        · split <;> exact Dev.hostStores_epoch o.st d
        · split
          · exact Dev.hostStores_epoch o.st d
          · exact (Dev.fetchNow_epoch _ _ _ _).trans (Dev.hostStores_epoch o.st d)

/-- An operation fetched under the rules that hold is checked under them. -/
theorem Dev.asOf_now {α : Type} {d : Dev} {n : Nat} (h : n = d.host.epoch) (g : Dev → Dev × α) : d.asOf n g = g d := by
  unfold Dev.asOf
  rw [if_pos h]

/-- A command that its ring takes, and whose framing earns nothing, does what `f` does, and completes. -/
theorem Dev.runOp_eq {d : Dev} {o : RingOp} {key : Op → Nat} {f : Dev → Op → Dev × Result} {op : Op}
    (h : (d.start o key).2 = some (op, 0)) (he : op.epoch = d.host.epoch) :
    d.runOp o key f = (f (d.start o key).1 op).1.finish op.id (f (d.start o key).1 op).2 := by
  have h1 := Dev.asOf_now (he.trans (d.start_epoch o key).symm) fun e => f e op
  unfold Dev.runOp
  generalize d.start o key = y at h h1 ⊢
  obtain ⟨e, z⟩ := y
  subst h
  simp only [h1]
  rfl

theorem Dev.runAdmin_eq {d : Dev} {o : RingOp} {ok : Op → Bool} {fmt : Desc → Bool} {f : Dev → Op → Dev × Result}
    {op : Op} (hr : d.mgmt.restarting = false) (h : (d.start o adminKey).2 = some (op, 0)) (he : op.epoch = d.host.epoch)
    (hg : (d.start o adminKey).1.gate op 3 (chainedAdmin op.desc) false (fmt op.desc) (ok op) = 0) :
    d.runAdmin o ok fmt f =
      (f (d.start o adminKey).1 op).1.finish op.id (f (d.start o adminKey).1 op).2 := by
  unfold Dev.runAdmin
  rw [if_neg (by simp [hr]), Dev.runOp_eq h he]
  simp only [hg, if_true]

theorem Dev.runLater_eq {d : Dev} {o : RingOp} {key : Op → Nat} {f : Dev → Op → Dev × Option Result} {op : Op}
    (h : (d.start o key).2 = some (op, 0)) (he : op.epoch = d.host.epoch) :
    d.runLater o key f = match (f (d.start o key).1 op).2 with
      | some r => (f (d.start o key).1 op).1.finish op.id r
      | none => (f (d.start o key).1 op).1 := by
  have h1 := Dev.asOf_now (he.trans (d.start_epoch o key).symm) fun e => f e op
  unfold Dev.runLater
  generalize d.start o key = y at h h1 ⊢
  obtain ⟨e, z⟩ := y
  subst h
  simp only [h1]
  rfl

theorem Dev.runAdminLater_eq {d : Dev} {o : RingOp} {ok : Op → Bool} {fmt : Desc → Bool}
    {f : Dev → Op → Dev × Option Result} {op : Op} (hr : d.mgmt.restarting = false)
    (h : (d.start o adminKey).2 = some (op, 0)) (he : op.epoch = d.host.epoch)
    (hg : (d.start o adminKey).1.gate op 3 (chainedAdmin op.desc) false (fmt op.desc) (ok op) = 0) :
    d.runAdminLater o ok fmt f = match (f (d.start o adminKey).1 op).2 with
      | some r => (f (d.start o adminKey).1 op).1.finish op.id r
      | none => (f (d.start o adminKey).1 op).1 := by
  unfold Dev.runAdminLater
  rw [if_neg (by simp [hr]), Dev.runLater_eq h he]
  simp only [hg, if_true]

/-- What a ring takes is the descriptor that the command names. -/
theorem Dev.start_desc {d : Dev} {o : RingOp} {key : Op → Nat} {op : Op} {b : Nat}
    (h : (d.start o key).2 = some (op, b)) : op.desc = o.desc := by
  unfold Dev.start at h
  dsimp only at h
  split at h
  · rename_i x hx
    cases h
    exact eq_of_beq (Option.filter_eq_some_iff.mp hx).2
  · split at h
    · cases h
    · split at h
      · cases h
      · split at h
        · split at h
          · cases h; assumption
          · cases h
        · split at h
          · cases h
          · cases h; rfl

end Sys2Proof.Machine
end

