-- ==== Sys2Proof/Laws/Step.lean ====
section
/-! SUPPORT. What every command has in common: how its effect on the device becomes the next state. -/

namespace Sys2Proof.Machine

/-! ### The device after a command that is no reset -/

@[simp] theorem Dev.under_regs (d e : Dev) : (d.under e).regs = e.regs := rfl
@[simp] theorem Dev.under_staged (d e : Dev) : (d.under e).staged = e.staged := rfl
@[simp] theorem Dev.under_applied (d e : Dev) : (d.under e).applied = e.applied := rfl
@[simp] theorem Dev.under_tb (d e : Dev) : (d.under e).tb = e.tb := rfl
@[simp] theorem Dev.under_host (d e : Dev) : (d.under e).host = e.host := rfl
@[simp] theorem Dev.under_hostMem (d e : Dev) : (d.under e).hostMem = e.hostMem := rfl
@[simp] theorem Dev.under_dataMem (d e : Dev) : (d.under e).dataMem = e.dataMem := rfl
@[simp] theorem Dev.under_intc (d e : Dev) : (d.under e).intc = e.intc := rfl
@[simp] theorem Dev.under_fc (d e : Dev) : (d.under e).fc = e.fc := rfl
@[simp] theorem Dev.under_media (d e : Dev) : (d.under e).media = e.media := rfl
@[simp] theorem Dev.under_dlv (d e : Dev) : (d.under e).dlv = e.dlv := rfl
@[simp] theorem Dev.under_eth (d e : Dev) : (d.under e).eth = e.eth := rfl
@[simp] theorem Dev.under_par (d e : Dev) : (d.under e).par = e.par := rfl
@[simp] theorem Dev.under_qm (d e : Dev) : (d.under e).qm = e.qm := rfl
@[simp] theorem Dev.under_mem (d e : Dev) : (d.under e).mem = e.mem := rfl
@[simp] theorem Dev.under_prot (d e : Dev) : (d.under e).prot = e.prot := rfl
@[simp] theorem Dev.under_bun (d e : Dev) : (d.under e).bun = e.bun := rfl
@[simp] theorem Dev.under_dma (d e : Dev) : (d.under e).dma = e.dma := rfl
@[simp] theorem Dev.under_mgmt (d e : Dev) : (d.under e).mgmt = e.mgmt := rfl
@[simp] theorem Dev.under_pm (d e : Dev) : (d.under e).pm = e.pm := rfl
@[simp] theorem Dev.under_freeCtr (d e : Dev) : (d.under e).freeCtr = e.freeCtr := rfl
@[simp] theorem Dev.under_out (d e : Dev) : (d.under e).out = e.out := rfl
@[simp] theorem Dev.under_reg (d e : Dev) (a : Nat) : (d.under e).reg a = e.reg a := rfl
@[simp] theorem Dev.under_fld (d e : Dev) (a hi lo : Nat) : (d.under e).fld a hi lo = e.fld a hi lo := rfl
@[simp] theorem Dev.under_flag (d e : Dev) (a b : Nat) : (d.under e).flag a b = e.flag a b := rfl
theorem Dev.under_pins (d e : Dev) : (d.under e).pins = d.pins.hold e.pins := rfl
@[simp] theorem Dev.under_porN (d e : Dev) : (d.under e).pins.porN = d.pins.porN := rfl
@[simp] theorem Dev.under_perstN (d e : Dev) : (d.under e).pins.perstN = d.pins.perstN := rfl
@[simp] theorem Dev.under_sysResetN (d e : Dev) : (d.under e).pins.sysResetN = d.pins.sysResetN := rfl
@[simp] theorem Dev.under_inReset (d e : Dev) : (d.under e).pins.inReset = d.pins.inReset := rfl
@[simp] theorem Dev.under_thermalHold (d e : Dev) : (d.under e).pins.thermalHold = d.pins.thermalHold := rfl
@[simp] theorem Dev.under_internal (d e : Dev) : (d.under e).pins.internal = d.pins.internal := rfl
@[simp] theorem Dev.under_fatalStop (d e : Dev) :
    (d.under e).pins.fatalStop = (d.pins.fatalStop || e.pins.fatalStop) := rfl

/-! ### Next states -/

/-- A command of State.keep on a device that is not held in reset. -/
theorem State.keep_up {s : State} (h : s.up) (f : Dev → Dev) :
    s.keep f = .next { s with dev := s.dev.under (f s.dev) } := by
  unfold State.keep State.raw
  dsimp only
  rw [if_neg (by rw [h]; exact Bool.false_ne_true)]

/-- A command of State.act on a device that runs. -/
theorem State.act_live {s : State} (h : s.live) (f : Dev → Dev) :
    s.act f = .next { s with dev := s.dev.under (f s.dev) } := by
  unfold State.act State.raw
  dsimp only
  rw [if_neg (by rw [h.1, h.2]; exact Bool.false_ne_true)]

/-- A command of State.keep runs. -/
theorem completes_keep {i : Instr} {s : State} {p : Dev → Prop} (f : Dev → Dev) (hi : exec i s = s.keep f) (h : s.up)
    (hp : p (s.dev.under (f s.dev))) : Completes i s p :=
  ⟨_, hi.trans (State.keep_up h f), rfl, hp⟩

/-- A command of State.act runs. -/
theorem completes_act {i : Instr} {s : State} {p : Dev → Prop} (f : Dev → Dev) (hi : exec i s = s.act f) (h : s.live)
    (hp : p (s.dev.under (f s.dev))) : Completes i s p :=
  ⟨_, hi.trans (State.act_live h f), rfl, hp⟩

/-- A command of State.raw runs. -/
theorem completes_raw {i : Instr} {s : State} {p : Dev → Prop} (f : Dev → Dev) (hi : exec i s = s.raw f)
    (hp : p (f s.dev)) : Completes i s p := ⟨_, hi, rfl, hp⟩

/-! ### Commands of rings -/

/-- The descriptor that a ring takes is the command's. -/
theorem Dev.takes.desc {d : Dev} {o : RingOp} {key : Op → Nat} {op : Op} (h : d.takes o key op) : op.desc = o.desc :=
  Dev.start_desc h.1

theorem Dev.takes.runOp {d : Dev} {o : RingOp} {key : Op → Nat} {op : Op} (h : d.takes o key op)
    (f : Dev → Op → Dev × Result) :
    d.runOp o key f = (f (d.start o key).1 op).1.finish op.id (f (d.start o key).1 op).2 :=
  Dev.runOp_eq h.1 h.2.1

/-- An admin command that is taken acts and completes. -/
theorem Dev.takesAdmin.run {d : Dev} {o : RingOp} {fmt : Desc → Bool} {ok : Op → Bool} {op : Op}
    (h : d.takesAdmin o fmt ok op) (f : Dev → Op → Dev × Result) :
    d.runAdmin o ok fmt f = (f (d.start o adminKey).1 op).1.finish op.id (f (d.start o adminKey).1 op).2 :=
  Dev.runAdmin_eq h.1 h.2.1.1 h.2.1.2.1 h.2.2

/-- An admin command that is taken acts, and completes now or waits. -/
theorem Dev.takesAdmin.runLater {d : Dev} {o : RingOp} {fmt : Desc → Bool} {ok : Op → Bool} {op : Op}
    (h : d.takesAdmin o fmt ok op) (f : Dev → Op → Dev × Option Result) :
    d.runAdminLater o ok fmt f = match (f (d.start o adminKey).1 op).2 with
      | some r => (f (d.start o adminKey).1 op).1.finish op.id r
      | none => (f (d.start o adminKey).1 op).1 :=
  Dev.runAdminLater_eq h.1 h.2.1.1 h.2.1.2.1 h.2.2

/-! ### Commands that a stop holds back -/

/-- In reset, or in FATAL_STOP, a command of State.act changes nothing. -/
theorem State.act_stopped {s : State} (h : s.dev.pins.inReset = true ∨ s.dev.pins.fatalStop = true) (f : Dev → Dev) :
    s.act f = .next s := by
  unfold State.act State.raw
  dsimp only
  rw [if_pos (by rcases h with h | h <;> simp [h])]

/-- In reset a command of State.keep changes nothing. -/
theorem State.keep_held {s : State} (h : s.dev.pins.inReset = true) (f : Dev → Dev) : s.keep f = .next s := by
  unfold State.keep State.raw
  dsimp only
  rw [if_pos h]

end Sys2Proof.Machine
end

