-- ==== Sys2Proof/Laws/Access.lean ====
section
/-! SUPPORT. A register write by a writer who may make it reaches the register's own rule. -/

namespace Sys2Proof.Machine

/-- A permitted write reaches its window. -/
theorem Dev.access_may {d : Dev} {w : Writer} (h : d.mayWrite w) (hf : d.pins.fatalStop = false) {a : Nat}
    (ha : a % 4 = 0) (hw : a / 0x100000 < 50) (v : Nat) :
    d.access w a v = d.winWrite (isFirmware w) (a / 0x100000) (a % 0x100000) v := by
  rcases h with rfl | ⟨rfl, hl⟩
  · simp only [Dev.access, ha, hf, isFirmware, ne_eq, not_true_eq_false, if_false, Bool.false_eq_true, false_and,
      or_false]
    rw [if_neg (by omega)]
  · simp only [Dev.access, ha, hf, hl, isFirmware, ne_eq, not_true_eq_false, if_false, Bool.false_and,
      Bool.false_eq_true]
    rw [if_neg (by omega), if_neg (by omega), if_neg (by omega)]

/-- A write below the common page of a window that is neither the host interface nor the Interrupt Hub. -/
theorem Dev.winWrite_reg {d : Dev} {fw : Bool} {w off v : Nat} (ho : off < 0x40000) (h1 : w ≠ 1)
    (h3 : w ≠ 3 ∨ off < 0x10000) (hh : w ≠ 10 ∧ w ≠ 11 ∧ w ≠ 15) :
    d.winWrite fw w off v = d.regWrite fw (w * 0x100000 + off) v := by
  unfold Dev.winWrite
  rw [if_neg (by omega), if_neg (by omega), if_neg (by omega), if_neg (by omega), if_neg (by omega),
    if_neg (by omega), if_neg (by omega)]

/-- A permitted write of a register in a window without rules of its own. -/
theorem Dev.access_reg {d : Dev} {w : Writer} (h : d.mayWrite w) (hf : d.pins.fatalStop = false) {a : Nat}
    (ha : a % 4 = 0) (hw : a / 0x100000 < 50) (ho : a % 0x100000 < 0x40000) (h1 : a / 0x100000 ≠ 1)
    (h3 : a / 0x100000 ≠ 3 ∨ a % 0x100000 < 0x10000)
    (hh : a / 0x100000 ≠ 10 ∧ a / 0x100000 ≠ 11 ∧ a / 0x100000 ≠ 15) (v : Nat) :
    d.access w a v = d.regWrite (isFirmware w) a v := by
  rw [Dev.access_may h hf ha hw, Dev.winWrite_reg ho h1 h3 hh, Nat.mul_comm, Nat.div_add_mod]

/-- A register with a row. -/
theorem Dev.regWrite_row {d : Dev} {fw : Bool} {a v : Nat} {row : RegRow} {ix : List Nat}
    (h : regRow a = some (row, ix)) : d.regWrite fw a v = d.rowWrite fw (regWin a) row ix a v := by
  unfold Dev.regWrite
  rw [h]

end Sys2Proof.Machine
end

