-- ==== Sys2Proof/Laws/Host.lean ====
section
/-! SUPPORT. What completing an operation keeps of the host interface itself: the functions but for held notices, the
rings but for CQ_WAIT, the completion queues but for how many records they hold. -/

namespace Sys2Proof.Machine

/-- A function's set-up without what a held notice changes. -/
def FnState.core (x : FnState) : FnState := { x with pba := 0, pmeStatus := false }

/-- A ring without CQ_WAIT. -/
def Ring.core (x : Ring) : Ring := { x with cqWait := false }

/-- A completion queue without its record count. -/
def Cq.core (q : Cq) : Cq := { q with written := 0 }

/-- What completing an operation keeps of the host interface. -/
structure Dev.HostKeep (d e : Dev) : Prop where
  epoch : e.host.epoch = d.host.epoch
  nextOp : e.host.nextOp = d.host.nextOp
  numVfs : e.host.numVfs = d.host.numVfs
  ready : e.host.ready = d.host.ready
  fn : ∀ f, (e.fn f).core = (d.fn f).core
  ring : ∀ r, (e.ring r).map Ring.core = (d.ring r).map Ring.core
  cq : ∀ c, (e.cq c).map Cq.core = (d.cq c).map Cq.core

theorem Dev.HostKeep.refl (d : Dev) : d.HostKeep d := by constructor <;> intros <;> rfl

theorem Dev.HostKeep.trans {d e f : Dev} (h : d.HostKeep e) (g : e.HostKeep f) : d.HostKeep f where
  epoch := g.epoch.trans h.epoch
  nextOp := g.nextOp.trans h.nextOp
  numVfs := g.numVfs.trans h.numVfs
  ready := g.ready.trans h.ready
  fn k := (g.fn k).trans (h.fn k)
  ring r := (g.ring r).trans (h.ring r)
  cq c := (g.cq c).trans (h.cq c)

theorem Dev.HostKeep.foldl {β : Type} {f : Dev → β → Dev} (h : ∀ e x, Dev.HostKeep e (f e x)) :
    ∀ (l : List β) (d : Dev), d.HostKeep (l.foldl f d)
  | [], d => .refl d
  | x :: l, d => (h d x).trans (Dev.HostKeep.foldl h l (f d x))

/-- An update that leaves the host interface alone. -/
theorem Dev.HostKeep.of_host {d e : Dev} (h : e.host = d.host) : d.HostKeep e := by
  constructor <;> intros <;> simp only [Dev.fn, Dev.ring, Dev.cq, h]

theorem Dev.HostKeep.setFn {d : Dev} {f : Nat} {x : FnState} (h : x.core = (d.fn f).core) : d.HostKeep (d.setFn f x) where
  epoch := rfl
  nextOp := rfl
  numVfs := rfl
  ready := rfl
  fn k := by
    by_cases hk : f = k
    · subst hk
      unfold Dev.fn Dev.setFn
      rw [SMap.get_set_self]
      exact h
    · unfold Dev.fn Dev.setFn
      rw [SMap.get_set_ne _ _ hk]
  ring _ := rfl
  cq _ := rfl

theorem Dev.HostKeep.setRing {d : Dev} {r : Nat} {x y : Ring} (hx : d.ring r = some x) (h : y.core = x.core) :
    d.HostKeep (d.setRing r y) where
  epoch := rfl
  nextOp := rfl
  numVfs := rfl
  ready := rfl
  fn _ := rfl
  ring k := by
    by_cases hk : r = k
    · subst hk
      rw [hx]
      unfold Dev.ring Dev.setRing
      rw [SMap.find_insert_self]
      exact congrArg some h
    · unfold Dev.ring Dev.setRing
      rw [SMap.find_insert_ne _ hk]
  cq _ := rfl

theorem Dev.HostKeep.setCq {d : Dev} {c : Nat} {x y : Cq} (hx : d.cq c = some x) (h : y.core = x.core) :
    d.HostKeep (d.setCq c y) where
  epoch := rfl
  nextOp := rfl
  numVfs := rfl
  ready := rfl
  fn _ := rfl
  ring _ := rfl
  cq k := by
    by_cases hk : c = k
    · subst hk
      rw [hx]
      unfold Dev.cq Dev.setCq
      rw [SMap.find_insert_self]
      exact congrArg some h
    · unfold Dev.cq Dev.setCq
      rw [SMap.find_insert_ne _ hk]

theorem Dev.commitDone_host (d : Dev) (w : Nat) : (d.commitDone w).host = d.host := by
  unfold Dev.commitDone
  rw [Dev.countFld_host, Dev.setFld_host]
  exact foldl_keep Dev.host _ (fun e x => e.setReg_host _ _) _ d

theorem Dev.safePoint3_host (d : Dev) (u : Nat) : (d.safePoint 3 u).host = d.host := by
  have h : d.takeUnit 3 u = d := by simp [Dev.takeUnit]
  unfold Dev.safePoint
  rw [h]
  split
  · rfl
  · dsimp only
    split
    · rw [Dev.commitDone_host]
    · rfl

theorem Dev.message_keep (d : Dev) (f v : Nat) : d.HostKeep (d.message f v) := by
  unfold Dev.message
  dsimp only
  have hw : ∀ e : Dev, e.HostKeep e.pinWake := fun e => .of_host rfl
  have h1 : d.HostKeep { d with intc := { d.intc with msgHeld := SMap.set (fun _ => false) d.intc.msgHeld (32 * f + v) true } } :=
    .of_host rfl
  have h2 : ∀ (e : Dev), e.HostKeep
      (((e.setFn f { e.fn f with pmeStatus := true }).emit (.pme f)).setEvent Reg.INTC_EVENTS 1).pinWake := fun e =>
    (Dev.HostKeep.setFn (x := { e.fn f with pmeStatus := true }) rfl).trans (.of_host (by
      show ((((e.setFn f _).emit _).setEvent _ _)).host = _
      rw [Dev.setEvent_host, Dev.emit_host]))
  have h3 : ∀ (e : Dev) (n : Nat), (e.fn f) = (d.fn f) → e.HostKeep (e.setFn f { d.fn f with pba := n }) := fun e n he =>
    .setFn (by rw [he]; rfl)
  split
  · have h4 : Dev.fn { d with intc := { d.intc with msgHeld := SMap.set (fun _ => false) d.intc.msgHeld (32 * f + v) true } } f =
      d.fn f := rfl
    generalize ({ d with intc := { d.intc with msgHeld := SMap.set (fun _ => false) d.intc.msgHeld (32 * f + v) true } } :
      Dev) = d1 at h1 h4 ⊢
    split <;> split
    · exact h1.trans ((h3 d1 _ h4).trans (h2 _))
    · exact h1.trans (h2 d1)
    · exact h1.trans (h3 d1 _ h4)
    · exact h1
  · exact .of_host (by rw [Dev.safePoint3_host, Dev.emit_host])

theorem Dev.moderate_keep (d : Dev) (f v : Nat) (w : Bool) : d.HostKeep (d.moderate f v w) := by
  unfold Dev.moderate
  split
  · split
    · split
      · exact .refl d
      · exact .of_host rfl
    · exact d.message_keep f v
  · exact d.message_keep f v

theorem Dev.notice_keep (d : Dev) (f v : Nat) (w : Bool) : d.HostKeep (d.notice f v w) :=
  (Dev.HostKeep.of_host (d.safePoint3_host _)).trans (Dev.moderate_keep _ _ _ _)

theorem Dev.mirror_host (d : Dev) (k : Nat) : (d.mirror k).host = d.host := by
  unfold Dev.mirror
  split
  · rfl
  · split
    · rfl
    · rw [Dev.hostPut_host]

theorem Dev.announce_keep (d : Dev) (s : Nat) (w : Bool) : d.HostKeep (d.announce s w) := by
  unfold Dev.announce
  split
  · exact (Dev.HostKeep.of_host (d.mirror_host _)).trans (Dev.notice_keep _ _ _ _)
  · exact .refl d

theorem Dev.intUpdate_keep (d0 d : Dev) : d.HostKeep (Dev.intUpdate d0 d) := by
  unfold Dev.intUpdate
  refine Dev.HostKeep.foldl (fun e s => ?_) _ d
  split
  · exact e.announce_keep s false
  · exact .refl e

theorem Dev.intEdge_keep (d : Dev) (s : Nat) (w : Bool) : d.HostKeep (d.intEdge s w) := by
  unfold Dev.intEdge
  split
  · exact .refl d
  · have h : d.HostKeep (d.intSetPending s true) := .of_host (Dev.intSetPending_host _ _ _)
    dsimp only
    split
    · exact h.trans (Dev.announce_keep _ _ _)
    · split
      · exact h.trans (Dev.message_keep _ _ _)
      · exact h

theorem Dev.pmAdd_host : ∀ (n : Nat) (d : Dev) (u k x : Nat), (d.pmAdd u n k x).host = d.host
  | 0, _, _, _, _ => rfl
  | n + 1, d, u, k, x => by
    unfold Dev.pmAdd
    dsimp only
    split
    · rfl
    · split
      · rw [Dev.pmAdd_host n, Dev.setEvent_host]
      · rw [Dev.setEvent_host]

theorem Dev.pmEvent_host (d : Dev) (u c n : Nat) (x : PmAttr) : (d.pmEvent u c n x).host = d.host := by
  unfold Dev.pmEvent
  split
  · refine foldl_keep Dev.host _ (fun e k => ?_) _ _
    split
    · rw [Dev.pmAdd_host]
    · rfl
  · rfl

theorem Dev.pmCompleted_host (d : Dev) (t : Nat) (op : Op) : (d.pmCompleted t op).host = d.host := by
  unfold Dev.pmCompleted
  split
  · rw [Dev.pmEvent_host]
  · split
    · rw [Dev.pmEvent_host]
    · split
      · rw [Dev.pmEvent_host]
      · split
        · rw [Dev.pmEvent_host]
        · rfl

theorem Dev.writeRecord_keep {d : Dev} {x : Ring} {q : Cq} (hq : d.cq x.cq = some q) (op : Op) (r : Result) :
    d.HostKeep (d.writeRecord x q op r) := by
  unfold Dev.writeRecord
  have h : d.HostKeep (((d.hostPut pmSelf (q.base + q.written % 2 ^ q.sizeLog2 * 32)
      (recordBytes op r d.tb.dt q.phase)).setCq x.cq { q with written := q.written + 1 }).pmCompleted x.type op) :=
    ((Dev.HostKeep.of_host (Dev.hostPut_host d _ _ _)).trans
      (.setCq (x := q) (y := { q with written := q.written + 1 })
        (by rw [Dev.cq, Dev.hostPut_host]; exact hq) rfl)).trans
      (.of_host (Dev.pmCompleted_host _ _ _))
  dsimp only
  split
  · exact h
  · exact h.trans (Dev.intEdge_keep _ _ _)

theorem Dev.putRing_keep {d : Dev} {r : Nat} {x y : Ring} (hx : d.ring r = some x) (h : y.core = x.core) :
    d.HostKeep (d.putRing r y) := (Dev.HostKeep.setRing hx h).trans (.of_host (Dev.hostPut_host _ _ _ _))

theorem Dev.drain_keep : ∀ (l : List Op) (d : Dev) (held : List Nat), d.HostKeep (d.drain held l).1
  | [], d, _ => .refl d
  | op :: rest, d, held => by
    unfold Dev.drain
    dsimp only
    split
    · exact Dev.drain_keep rest _ _
    · split
      · exact Dev.drain_keep rest _ _
      · split
        · exact Dev.drain_keep rest _ _
        · rename_i x hx
          split
          · exact Dev.drain_keep rest _ _
          · rename_i hq
            split
            · split
              · exact Dev.drain_keep rest _ _
              · exact (Dev.putRing_keep (y := { x with cqWait := true }) hx rfl).trans (Dev.drain_keep rest _ _)
            · exact (Dev.writeRecord_keep hq _ _).trans (Dev.drain_keep rest _ _)

theorem Dev.settle_keep (d : Dev) : d.HostKeep d.settle := by
  have h := Dev.drain_keep d.host.ops d []
  exact ⟨h.epoch, h.nextOp, h.numVfs, h.ready, h.fn, h.ring, h.cq⟩

/-- Completing an operation keeps the host interface but for records, CQ_WAIT and held notices. -/
theorem Dev.finish_keep (d : Dev) (id : Nat) (r : Result) : d.HostKeep (d.finish id r) := by
  have h := Dev.settle_keep { d with host := { d.host with ops := setResult id r d.host.ops } }
  exact ⟨h.epoch, h.nextOp, h.numVfs, h.ready, h.fn, h.ring, h.cq⟩

end Sys2Proof.Machine
end

