-- ==== Sys2Proof/Laws/Memory.lean ====
section
/-! SUPPORT. Laws of host memory and of the data space: reads after writes, bytes outside a write, and the canonical
form, which every operation over a memory keeps. -/

namespace Sys2Proof.Machine

/-- A write of bytes keeps the canonical form. -/
theorem putBytes_wf : ∀ (l : List Byte) (m : SMap Byte) (a : Nat), Memory.wf m = true → Memory.wf (putBytes m a l) = true
  | [], _, _, h => h
  | b :: r, _, a, h => putBytes_wf r _ _ (SMap.wf_set _ h a b)

/-- Bytes outside a write read as before. -/
theorem putBytes_get_out : ∀ (l : List Byte) (m : SMap Byte) (a k : Nat), k < a ∨ a + l.length ≤ k →
    SMap.get (fun _ => 0) (putBytes m a l) k = SMap.get (fun _ => 0) m k
  | [], _, _, _, _ => rfl
  | b :: r, m, a, k, h => by
    simp only [List.length_cons] at h
    rw [putBytes, putBytes_get_out r _ (a + 1) k (by omega), SMap.get_set_ne _ _ (by omega)]

/-- A byte that a write stores reads as it was written. -/
theorem putBytes_get_in : ∀ (l : List Byte) (m : SMap Byte) (a i : Nat) (h : i < l.length),
    SMap.get (fun _ => 0) (putBytes m a l) (a + i) = l[i]
  | b :: r, m, a, 0, _ => by
    show SMap.get _ (putBytes (SMap.set _ m a b) (a + 1) r) a = b
    rw [putBytes_get_out r _ (a + 1) a (by omega), SMap.get_set_self]
  | b :: r, m, a, i + 1, h => by
    have h' : i < r.length := by simpa using h
    rw [putBytes, show a + (i + 1) = a + 1 + i by omega, putBytes_get_in r _ (a + 1) i h']; rfl

/-- Host memory keeps its canonical form under a write. -/
theorem Dev.hostWrite_wf (d : Dev) (a : Nat) (l : List Byte) (h : Memory.wf d.hostMem = true) :
    Memory.wf (d.hostWrite a l).hostMem = true := putBytes_wf l _ a h

/-- A write of no POISONED page keeps the data space's canonical form. -/
theorem Dev.dataPut_wf (d : Dev) (a : Nat) (l : List Byte) (h : Memory.wf d.dataMem = true) :
    Memory.wf (d.dataPut a l).dataMem = true := putBytes_wf l _ a h

theorem Dev.dataPutClean_wf : ∀ (l : List Byte) (d : Dev) (a : Nat), Memory.wf d.dataMem = true →
    Memory.wf (d.dataPutClean a l).dataMem = true
  | [], _, _, h => h
  | b :: r, d, a, h => by
    unfold Dev.dataPutClean
    apply Dev.dataPutClean_wf r
    split
    · exact h
    · exact SMap.wf_set _ h a b

/-- A write to the data space keeps its canonical form. -/
theorem Dev.dataWrite_wf (d : Dev) (a : Nat) (l : List Byte) (h : Memory.wf d.dataMem = true) :
    Memory.wf (d.dataWrite a l).dataMem = true := by
  unfold Dev.dataWrite
  split
  · rw [Dev.count_dataMem]; exact Dev.dataPutClean_wf l d a h
  · exact d.dataPut_wf a l h

/-- What software stores keeps host memory's canonical form. -/
theorem Dev.hostStores_wf : ∀ (l : Stores) (d : Dev), Memory.wf d.hostMem = true → Memory.wf (d.hostStores l).hostMem = true
  | [], _, h => h
  | (a, l) :: r, d, h => Dev.hostStores_wf r _ (d.hostWrite_wf a l h)

/-- After reset both memories are in their canonical form. -/
theorem reset_memories_wf : Memory.wf State.reset.dev.hostMem = true ∧ Memory.wf State.reset.dev.dataMem = true :=
  ⟨rfl, rfl⟩

/-- Data-space bytes read after they were written, where no page is POISONED. -/
theorem Dev.dataRead_dataPut (d : Dev) (a : Nat) (l : List Byte) : (d.dataPut a l).dataRead a l.length = l := by
  apply List.ext_getElem
  · simp [Dev.dataRead]
  · intro i h1 h2
    simp only [Dev.dataRead, List.getElem_map, List.getElem_range]
    exact putBytes_get_in l d.dataMem a i h2

/-- Host bytes read after they were written. -/
theorem Dev.hostRead_hostWrite (d : Dev) (a : Nat) (l : List Byte) : (d.hostWrite a l).hostRead a l.length = l := by
  apply List.ext_getElem
  · simp [Dev.hostRead]
  · intro i h1 h2
    simp only [Dev.hostRead, List.getElem_map, List.getElem_range]
    exact putBytes_get_in l d.hostMem a i h2

end Sys2Proof.Machine
end

