-- ==== Sys2Proof/Laws/Packet.lean ====
section
/-! SUPPORT. Lengths of the packets that flows send (spec/11_packaging_delivery.md R289, R290). -/

namespace Sys2Proof.Machine

/-- Replacing bytes keeps a list's length. -/
@[simp] theorem poke_length (l : List Byte) (k : Nat) (b : List Byte) : (poke l k b).length = l.length := by
  simp only [poke, List.length_append, List.length_take, List.length_drop]
  omega

@[simp] theorem Flow.fillIp_length (x : Flow) (h : List Byte) (n : Nat) : (x.fillIp h n).length = h.length := by
  simp only [Flow.fillIp]
  split <;> simp

/-- A TCP packet is its template and its payload. -/
theorem Flow.tcpPacket_length (x : Flow) (now seq flags : Nat) (body : List Byte) :
    (x.tcpPacket now seq flags body).length = x.template.length + body.length := by
  simp only [Flow.tcpPacket, List.length_append, poke_length]
  split <;> simp

/-- A UDP packet is its template and its payload. -/
theorem Flow.udpPacket_length (x : Flow) (body : List Byte) :
    (x.udpPacket body).length = x.template.length + body.length := by
  simp [Flow.udpPacket]

/-- Sealing adds the 16-byte tag. -/
@[simp] theorem Flow.seal_length (x : Flow) (key iv seq : Nat) (aad text : List Byte) :
    (x.seal key iv seq aad text).length = text.length + 16 := by
  simp [Flow.seal]

/-- A record adds 22 bytes to its text (R289). -/
theorem Flow.tlsRecord_length (x : Flow) (key iv seq inner : Nat) (text : List Byte) :
    (x.tlsRecord key iv seq inner text).length = text.length + 22 := by
  simp [Flow.tlsRecord, beBytes, leBytes]

/-- TCP bytes `a` to `b - 1` are at most `b - a`. -/
theorem Dev.tcpSlice_length_le (d : Dev) (fl : Flow) (x : Desc) (a b : Nat) : (d.tcpSlice fl x a b).length ≤ b - a := by
  simp only [Dev.tcpSlice, List.length_take]
  omega

/-- A SEND's or RESEND's TCP packet is at most its template and the bytes it takes. -/
theorem Dev.sendPacket_length_le (d : Dev) (fl : Flow) (x : Desc) (n : Nat) (h : fl.mode = 0) :
    (d.sendPacket fl x n).length ≤ fl.template.length + n := by
  simp only [Dev.sendPacket, if_pos h, Flow.tcpPacket_length]
  have := d.tcpSlice_length_le fl x (fl.startOf x + fl.sent) (fl.startOf x + fl.sent + n)
  omega

end Sys2Proof.Machine
end

