-- ==== Sys2Proof/Laws/Parts.lean ====
section
/-! SUPPORT. The records a unit keeps by number (contexts, pairs, streams, flows, queues, buffers and so on): what
replacing one of them leaves alone, and what reads back. -/

namespace Sys2Proof.Machine

/-! ### One part of the device replaced -/

theorem Dev.withDlv_regs (d : Dev) (x : Delivery) : ({ d with dlv := x } : Dev).regs = d.regs := rfl
theorem Dev.withDlv_staged (d : Dev) (x : Delivery) : ({ d with dlv := x } : Dev).staged = d.staged := rfl
theorem Dev.withDlv_applied (d : Dev) (x : Delivery) : ({ d with dlv := x } : Dev).applied = d.applied := rfl
theorem Dev.withDlv_tb (d : Dev) (x : Delivery) : ({ d with dlv := x } : Dev).tb = d.tb := rfl
theorem Dev.withDlv_host (d : Dev) (x : Delivery) : ({ d with dlv := x } : Dev).host = d.host := rfl
theorem Dev.withDlv_hostMem (d : Dev) (x : Delivery) : ({ d with dlv := x } : Dev).hostMem = d.hostMem := rfl
theorem Dev.withDlv_dataMem (d : Dev) (x : Delivery) : ({ d with dlv := x } : Dev).dataMem = d.dataMem := rfl
theorem Dev.withDlv_intc (d : Dev) (x : Delivery) : ({ d with dlv := x } : Dev).intc = d.intc := rfl
theorem Dev.withDlv_fc (d : Dev) (x : Delivery) : ({ d with dlv := x } : Dev).fc = d.fc := rfl
theorem Dev.withDlv_media (d : Dev) (x : Delivery) : ({ d with dlv := x } : Dev).media = d.media := rfl
theorem Dev.withDlv_eth (d : Dev) (x : Delivery) : ({ d with dlv := x } : Dev).eth = d.eth := rfl
theorem Dev.withDlv_par (d : Dev) (x : Delivery) : ({ d with dlv := x } : Dev).par = d.par := rfl
theorem Dev.withDlv_qm (d : Dev) (x : Delivery) : ({ d with dlv := x } : Dev).qm = d.qm := rfl
theorem Dev.withDlv_mem (d : Dev) (x : Delivery) : ({ d with dlv := x } : Dev).mem = d.mem := rfl
theorem Dev.withDlv_prot (d : Dev) (x : Delivery) : ({ d with dlv := x } : Dev).prot = d.prot := rfl
theorem Dev.withDlv_bun (d : Dev) (x : Delivery) : ({ d with dlv := x } : Dev).bun = d.bun := rfl
theorem Dev.withDlv_dma (d : Dev) (x : Delivery) : ({ d with dlv := x } : Dev).dma = d.dma := rfl
theorem Dev.withDlv_mgmt (d : Dev) (x : Delivery) : ({ d with dlv := x } : Dev).mgmt = d.mgmt := rfl
theorem Dev.withDlv_pm (d : Dev) (x : Delivery) : ({ d with dlv := x } : Dev).pm = d.pm := rfl
theorem Dev.withDlv_pins (d : Dev) (x : Delivery) : ({ d with dlv := x } : Dev).pins = d.pins := rfl
theorem Dev.withDlv_freeCtr (d : Dev) (x : Delivery) : ({ d with dlv := x } : Dev).freeCtr = d.freeCtr := rfl
theorem Dev.withDlv_out (d : Dev) (x : Delivery) : ({ d with dlv := x } : Dev).out = d.out := rfl

theorem Dev.withEth_regs (d : Dev) (x : Eth) : ({ d with eth := x } : Dev).regs = d.regs := rfl
theorem Dev.withEth_staged (d : Dev) (x : Eth) : ({ d with eth := x } : Dev).staged = d.staged := rfl
theorem Dev.withEth_applied (d : Dev) (x : Eth) : ({ d with eth := x } : Dev).applied = d.applied := rfl
theorem Dev.withEth_tb (d : Dev) (x : Eth) : ({ d with eth := x } : Dev).tb = d.tb := rfl
theorem Dev.withEth_host (d : Dev) (x : Eth) : ({ d with eth := x } : Dev).host = d.host := rfl
theorem Dev.withEth_hostMem (d : Dev) (x : Eth) : ({ d with eth := x } : Dev).hostMem = d.hostMem := rfl
theorem Dev.withEth_dataMem (d : Dev) (x : Eth) : ({ d with eth := x } : Dev).dataMem = d.dataMem := rfl
theorem Dev.withEth_intc (d : Dev) (x : Eth) : ({ d with eth := x } : Dev).intc = d.intc := rfl
theorem Dev.withEth_fc (d : Dev) (x : Eth) : ({ d with eth := x } : Dev).fc = d.fc := rfl
theorem Dev.withEth_media (d : Dev) (x : Eth) : ({ d with eth := x } : Dev).media = d.media := rfl
theorem Dev.withEth_dlv (d : Dev) (x : Eth) : ({ d with eth := x } : Dev).dlv = d.dlv := rfl
theorem Dev.withEth_par (d : Dev) (x : Eth) : ({ d with eth := x } : Dev).par = d.par := rfl
theorem Dev.withEth_qm (d : Dev) (x : Eth) : ({ d with eth := x } : Dev).qm = d.qm := rfl
theorem Dev.withEth_mem (d : Dev) (x : Eth) : ({ d with eth := x } : Dev).mem = d.mem := rfl
theorem Dev.withEth_prot (d : Dev) (x : Eth) : ({ d with eth := x } : Dev).prot = d.prot := rfl
theorem Dev.withEth_bun (d : Dev) (x : Eth) : ({ d with eth := x } : Dev).bun = d.bun := rfl
theorem Dev.withEth_dma (d : Dev) (x : Eth) : ({ d with eth := x } : Dev).dma = d.dma := rfl
theorem Dev.withEth_mgmt (d : Dev) (x : Eth) : ({ d with eth := x } : Dev).mgmt = d.mgmt := rfl
theorem Dev.withEth_pm (d : Dev) (x : Eth) : ({ d with eth := x } : Dev).pm = d.pm := rfl
theorem Dev.withEth_pins (d : Dev) (x : Eth) : ({ d with eth := x } : Dev).pins = d.pins := rfl
theorem Dev.withEth_freeCtr (d : Dev) (x : Eth) : ({ d with eth := x } : Dev).freeCtr = d.freeCtr := rfl
theorem Dev.withEth_out (d : Dev) (x : Eth) : ({ d with eth := x } : Dev).out = d.out := rfl

theorem Dev.withPar_regs (d : Dev) (x : Parser) : ({ d with par := x } : Dev).regs = d.regs := rfl
theorem Dev.withPar_staged (d : Dev) (x : Parser) : ({ d with par := x } : Dev).staged = d.staged := rfl
theorem Dev.withPar_applied (d : Dev) (x : Parser) : ({ d with par := x } : Dev).applied = d.applied := rfl
theorem Dev.withPar_tb (d : Dev) (x : Parser) : ({ d with par := x } : Dev).tb = d.tb := rfl
theorem Dev.withPar_host (d : Dev) (x : Parser) : ({ d with par := x } : Dev).host = d.host := rfl
theorem Dev.withPar_hostMem (d : Dev) (x : Parser) : ({ d with par := x } : Dev).hostMem = d.hostMem := rfl
theorem Dev.withPar_dataMem (d : Dev) (x : Parser) : ({ d with par := x } : Dev).dataMem = d.dataMem := rfl
theorem Dev.withPar_intc (d : Dev) (x : Parser) : ({ d with par := x } : Dev).intc = d.intc := rfl
theorem Dev.withPar_fc (d : Dev) (x : Parser) : ({ d with par := x } : Dev).fc = d.fc := rfl
theorem Dev.withPar_media (d : Dev) (x : Parser) : ({ d with par := x } : Dev).media = d.media := rfl
theorem Dev.withPar_dlv (d : Dev) (x : Parser) : ({ d with par := x } : Dev).dlv = d.dlv := rfl
theorem Dev.withPar_eth (d : Dev) (x : Parser) : ({ d with par := x } : Dev).eth = d.eth := rfl
theorem Dev.withPar_qm (d : Dev) (x : Parser) : ({ d with par := x } : Dev).qm = d.qm := rfl
theorem Dev.withPar_mem (d : Dev) (x : Parser) : ({ d with par := x } : Dev).mem = d.mem := rfl
theorem Dev.withPar_prot (d : Dev) (x : Parser) : ({ d with par := x } : Dev).prot = d.prot := rfl
theorem Dev.withPar_bun (d : Dev) (x : Parser) : ({ d with par := x } : Dev).bun = d.bun := rfl
theorem Dev.withPar_dma (d : Dev) (x : Parser) : ({ d with par := x } : Dev).dma = d.dma := rfl
theorem Dev.withPar_mgmt (d : Dev) (x : Parser) : ({ d with par := x } : Dev).mgmt = d.mgmt := rfl
theorem Dev.withPar_pm (d : Dev) (x : Parser) : ({ d with par := x } : Dev).pm = d.pm := rfl
theorem Dev.withPar_pins (d : Dev) (x : Parser) : ({ d with par := x } : Dev).pins = d.pins := rfl
theorem Dev.withPar_freeCtr (d : Dev) (x : Parser) : ({ d with par := x } : Dev).freeCtr = d.freeCtr := rfl
theorem Dev.withPar_out (d : Dev) (x : Parser) : ({ d with par := x } : Dev).out = d.out := rfl

theorem Dev.withQm_regs (d : Dev) (x : Queues) : ({ d with qm := x } : Dev).regs = d.regs := rfl
theorem Dev.withQm_staged (d : Dev) (x : Queues) : ({ d with qm := x } : Dev).staged = d.staged := rfl
theorem Dev.withQm_applied (d : Dev) (x : Queues) : ({ d with qm := x } : Dev).applied = d.applied := rfl
theorem Dev.withQm_tb (d : Dev) (x : Queues) : ({ d with qm := x } : Dev).tb = d.tb := rfl
theorem Dev.withQm_host (d : Dev) (x : Queues) : ({ d with qm := x } : Dev).host = d.host := rfl
theorem Dev.withQm_hostMem (d : Dev) (x : Queues) : ({ d with qm := x } : Dev).hostMem = d.hostMem := rfl
theorem Dev.withQm_dataMem (d : Dev) (x : Queues) : ({ d with qm := x } : Dev).dataMem = d.dataMem := rfl
theorem Dev.withQm_intc (d : Dev) (x : Queues) : ({ d with qm := x } : Dev).intc = d.intc := rfl
theorem Dev.withQm_fc (d : Dev) (x : Queues) : ({ d with qm := x } : Dev).fc = d.fc := rfl
theorem Dev.withQm_media (d : Dev) (x : Queues) : ({ d with qm := x } : Dev).media = d.media := rfl
theorem Dev.withQm_dlv (d : Dev) (x : Queues) : ({ d with qm := x } : Dev).dlv = d.dlv := rfl
theorem Dev.withQm_eth (d : Dev) (x : Queues) : ({ d with qm := x } : Dev).eth = d.eth := rfl
theorem Dev.withQm_par (d : Dev) (x : Queues) : ({ d with qm := x } : Dev).par = d.par := rfl
theorem Dev.withQm_mem (d : Dev) (x : Queues) : ({ d with qm := x } : Dev).mem = d.mem := rfl
theorem Dev.withQm_prot (d : Dev) (x : Queues) : ({ d with qm := x } : Dev).prot = d.prot := rfl
theorem Dev.withQm_bun (d : Dev) (x : Queues) : ({ d with qm := x } : Dev).bun = d.bun := rfl
theorem Dev.withQm_dma (d : Dev) (x : Queues) : ({ d with qm := x } : Dev).dma = d.dma := rfl
theorem Dev.withQm_mgmt (d : Dev) (x : Queues) : ({ d with qm := x } : Dev).mgmt = d.mgmt := rfl
theorem Dev.withQm_pm (d : Dev) (x : Queues) : ({ d with qm := x } : Dev).pm = d.pm := rfl
theorem Dev.withQm_pins (d : Dev) (x : Queues) : ({ d with qm := x } : Dev).pins = d.pins := rfl
theorem Dev.withQm_freeCtr (d : Dev) (x : Queues) : ({ d with qm := x } : Dev).freeCtr = d.freeCtr := rfl
theorem Dev.withQm_out (d : Dev) (x : Queues) : ({ d with qm := x } : Dev).out = d.out := rfl

theorem Dev.withBun_regs (d : Dev) (x : Bunting) : ({ d with bun := x } : Dev).regs = d.regs := rfl
theorem Dev.withBun_staged (d : Dev) (x : Bunting) : ({ d with bun := x } : Dev).staged = d.staged := rfl
theorem Dev.withBun_applied (d : Dev) (x : Bunting) : ({ d with bun := x } : Dev).applied = d.applied := rfl
theorem Dev.withBun_tb (d : Dev) (x : Bunting) : ({ d with bun := x } : Dev).tb = d.tb := rfl
theorem Dev.withBun_host (d : Dev) (x : Bunting) : ({ d with bun := x } : Dev).host = d.host := rfl
theorem Dev.withBun_hostMem (d : Dev) (x : Bunting) : ({ d with bun := x } : Dev).hostMem = d.hostMem := rfl
theorem Dev.withBun_dataMem (d : Dev) (x : Bunting) : ({ d with bun := x } : Dev).dataMem = d.dataMem := rfl
theorem Dev.withBun_intc (d : Dev) (x : Bunting) : ({ d with bun := x } : Dev).intc = d.intc := rfl
theorem Dev.withBun_fc (d : Dev) (x : Bunting) : ({ d with bun := x } : Dev).fc = d.fc := rfl
theorem Dev.withBun_media (d : Dev) (x : Bunting) : ({ d with bun := x } : Dev).media = d.media := rfl
theorem Dev.withBun_dlv (d : Dev) (x : Bunting) : ({ d with bun := x } : Dev).dlv = d.dlv := rfl
theorem Dev.withBun_eth (d : Dev) (x : Bunting) : ({ d with bun := x } : Dev).eth = d.eth := rfl
theorem Dev.withBun_par (d : Dev) (x : Bunting) : ({ d with bun := x } : Dev).par = d.par := rfl
theorem Dev.withBun_qm (d : Dev) (x : Bunting) : ({ d with bun := x } : Dev).qm = d.qm := rfl
theorem Dev.withBun_mem (d : Dev) (x : Bunting) : ({ d with bun := x } : Dev).mem = d.mem := rfl
theorem Dev.withBun_prot (d : Dev) (x : Bunting) : ({ d with bun := x } : Dev).prot = d.prot := rfl
theorem Dev.withBun_dma (d : Dev) (x : Bunting) : ({ d with bun := x } : Dev).dma = d.dma := rfl
theorem Dev.withBun_mgmt (d : Dev) (x : Bunting) : ({ d with bun := x } : Dev).mgmt = d.mgmt := rfl
theorem Dev.withBun_pm (d : Dev) (x : Bunting) : ({ d with bun := x } : Dev).pm = d.pm := rfl
theorem Dev.withBun_pins (d : Dev) (x : Bunting) : ({ d with bun := x } : Dev).pins = d.pins := rfl
theorem Dev.withBun_freeCtr (d : Dev) (x : Bunting) : ({ d with bun := x } : Dev).freeCtr = d.freeCtr := rfl
theorem Dev.withBun_out (d : Dev) (x : Bunting) : ({ d with bun := x } : Dev).out = d.out := rfl

theorem Dev.withDma_regs (d : Dev) (x : Dma) : ({ d with dma := x } : Dev).regs = d.regs := rfl
theorem Dev.withDma_staged (d : Dev) (x : Dma) : ({ d with dma := x } : Dev).staged = d.staged := rfl
theorem Dev.withDma_applied (d : Dev) (x : Dma) : ({ d with dma := x } : Dev).applied = d.applied := rfl
theorem Dev.withDma_tb (d : Dev) (x : Dma) : ({ d with dma := x } : Dev).tb = d.tb := rfl
theorem Dev.withDma_host (d : Dev) (x : Dma) : ({ d with dma := x } : Dev).host = d.host := rfl
theorem Dev.withDma_hostMem (d : Dev) (x : Dma) : ({ d with dma := x } : Dev).hostMem = d.hostMem := rfl
theorem Dev.withDma_dataMem (d : Dev) (x : Dma) : ({ d with dma := x } : Dev).dataMem = d.dataMem := rfl
theorem Dev.withDma_intc (d : Dev) (x : Dma) : ({ d with dma := x } : Dev).intc = d.intc := rfl
theorem Dev.withDma_fc (d : Dev) (x : Dma) : ({ d with dma := x } : Dev).fc = d.fc := rfl
theorem Dev.withDma_media (d : Dev) (x : Dma) : ({ d with dma := x } : Dev).media = d.media := rfl
theorem Dev.withDma_dlv (d : Dev) (x : Dma) : ({ d with dma := x } : Dev).dlv = d.dlv := rfl
theorem Dev.withDma_eth (d : Dev) (x : Dma) : ({ d with dma := x } : Dev).eth = d.eth := rfl
theorem Dev.withDma_par (d : Dev) (x : Dma) : ({ d with dma := x } : Dev).par = d.par := rfl
theorem Dev.withDma_qm (d : Dev) (x : Dma) : ({ d with dma := x } : Dev).qm = d.qm := rfl
theorem Dev.withDma_mem (d : Dev) (x : Dma) : ({ d with dma := x } : Dev).mem = d.mem := rfl
theorem Dev.withDma_prot (d : Dev) (x : Dma) : ({ d with dma := x } : Dev).prot = d.prot := rfl
theorem Dev.withDma_bun (d : Dev) (x : Dma) : ({ d with dma := x } : Dev).bun = d.bun := rfl
theorem Dev.withDma_mgmt (d : Dev) (x : Dma) : ({ d with dma := x } : Dev).mgmt = d.mgmt := rfl
theorem Dev.withDma_pm (d : Dev) (x : Dma) : ({ d with dma := x } : Dev).pm = d.pm := rfl
theorem Dev.withDma_pins (d : Dev) (x : Dma) : ({ d with dma := x } : Dev).pins = d.pins := rfl
theorem Dev.withDma_freeCtr (d : Dev) (x : Dma) : ({ d with dma := x } : Dev).freeCtr = d.freeCtr := rfl
theorem Dev.withDma_out (d : Dev) (x : Dma) : ({ d with dma := x } : Dev).out = d.out := rfl

theorem Dev.withMgmt_regs (d : Dev) (x : Mgmt) : ({ d with mgmt := x } : Dev).regs = d.regs := rfl
theorem Dev.withMgmt_staged (d : Dev) (x : Mgmt) : ({ d with mgmt := x } : Dev).staged = d.staged := rfl
theorem Dev.withMgmt_applied (d : Dev) (x : Mgmt) : ({ d with mgmt := x } : Dev).applied = d.applied := rfl
theorem Dev.withMgmt_tb (d : Dev) (x : Mgmt) : ({ d with mgmt := x } : Dev).tb = d.tb := rfl
theorem Dev.withMgmt_host (d : Dev) (x : Mgmt) : ({ d with mgmt := x } : Dev).host = d.host := rfl
theorem Dev.withMgmt_hostMem (d : Dev) (x : Mgmt) : ({ d with mgmt := x } : Dev).hostMem = d.hostMem := rfl
theorem Dev.withMgmt_dataMem (d : Dev) (x : Mgmt) : ({ d with mgmt := x } : Dev).dataMem = d.dataMem := rfl
theorem Dev.withMgmt_intc (d : Dev) (x : Mgmt) : ({ d with mgmt := x } : Dev).intc = d.intc := rfl
theorem Dev.withMgmt_fc (d : Dev) (x : Mgmt) : ({ d with mgmt := x } : Dev).fc = d.fc := rfl
theorem Dev.withMgmt_media (d : Dev) (x : Mgmt) : ({ d with mgmt := x } : Dev).media = d.media := rfl
theorem Dev.withMgmt_dlv (d : Dev) (x : Mgmt) : ({ d with mgmt := x } : Dev).dlv = d.dlv := rfl
theorem Dev.withMgmt_eth (d : Dev) (x : Mgmt) : ({ d with mgmt := x } : Dev).eth = d.eth := rfl
theorem Dev.withMgmt_par (d : Dev) (x : Mgmt) : ({ d with mgmt := x } : Dev).par = d.par := rfl
theorem Dev.withMgmt_qm (d : Dev) (x : Mgmt) : ({ d with mgmt := x } : Dev).qm = d.qm := rfl
theorem Dev.withMgmt_mem (d : Dev) (x : Mgmt) : ({ d with mgmt := x } : Dev).mem = d.mem := rfl
theorem Dev.withMgmt_prot (d : Dev) (x : Mgmt) : ({ d with mgmt := x } : Dev).prot = d.prot := rfl
theorem Dev.withMgmt_bun (d : Dev) (x : Mgmt) : ({ d with mgmt := x } : Dev).bun = d.bun := rfl
theorem Dev.withMgmt_dma (d : Dev) (x : Mgmt) : ({ d with mgmt := x } : Dev).dma = d.dma := rfl
theorem Dev.withMgmt_pm (d : Dev) (x : Mgmt) : ({ d with mgmt := x } : Dev).pm = d.pm := rfl
theorem Dev.withMgmt_pins (d : Dev) (x : Mgmt) : ({ d with mgmt := x } : Dev).pins = d.pins := rfl
theorem Dev.withMgmt_freeCtr (d : Dev) (x : Mgmt) : ({ d with mgmt := x } : Dev).freeCtr = d.freeCtr := rfl
theorem Dev.withMgmt_out (d : Dev) (x : Mgmt) : ({ d with mgmt := x } : Dev).out = d.out := rfl

/-! ### One record replaced: the other parts of the device are as before -/

@[simp] theorem Dev.setCtx_regs (d : Dev) (c : Nat) (x : Ctx) : (d.setCtx c x).regs = d.regs := d.withMedia_regs _
@[simp] theorem Dev.setCtx_staged (d : Dev) (c : Nat) (x : Ctx) : (d.setCtx c x).staged = d.staged := d.withMedia_staged _
@[simp] theorem Dev.setCtx_applied (d : Dev) (c : Nat) (x : Ctx) : (d.setCtx c x).applied = d.applied := d.withMedia_applied _
@[simp] theorem Dev.setCtx_tb (d : Dev) (c : Nat) (x : Ctx) : (d.setCtx c x).tb = d.tb := d.withMedia_tb _
@[simp] theorem Dev.setCtx_host (d : Dev) (c : Nat) (x : Ctx) : (d.setCtx c x).host = d.host := d.withMedia_host _
@[simp] theorem Dev.setCtx_hostMem (d : Dev) (c : Nat) (x : Ctx) : (d.setCtx c x).hostMem = d.hostMem := d.withMedia_hostMem _
@[simp] theorem Dev.setCtx_dataMem (d : Dev) (c : Nat) (x : Ctx) : (d.setCtx c x).dataMem = d.dataMem := d.withMedia_dataMem _
@[simp] theorem Dev.setCtx_intc (d : Dev) (c : Nat) (x : Ctx) : (d.setCtx c x).intc = d.intc := d.withMedia_intc _
@[simp] theorem Dev.setCtx_fc (d : Dev) (c : Nat) (x : Ctx) : (d.setCtx c x).fc = d.fc := d.withMedia_fc _
@[simp] theorem Dev.setCtx_dlv (d : Dev) (c : Nat) (x : Ctx) : (d.setCtx c x).dlv = d.dlv := d.withMedia_dlv _
@[simp] theorem Dev.setCtx_eth (d : Dev) (c : Nat) (x : Ctx) : (d.setCtx c x).eth = d.eth := d.withMedia_eth _
@[simp] theorem Dev.setCtx_par (d : Dev) (c : Nat) (x : Ctx) : (d.setCtx c x).par = d.par := d.withMedia_par _
@[simp] theorem Dev.setCtx_qm (d : Dev) (c : Nat) (x : Ctx) : (d.setCtx c x).qm = d.qm := d.withMedia_qm _
@[simp] theorem Dev.setCtx_mem (d : Dev) (c : Nat) (x : Ctx) : (d.setCtx c x).mem = d.mem := d.withMedia_mem _
@[simp] theorem Dev.setCtx_prot (d : Dev) (c : Nat) (x : Ctx) : (d.setCtx c x).prot = d.prot := d.withMedia_prot _
@[simp] theorem Dev.setCtx_bun (d : Dev) (c : Nat) (x : Ctx) : (d.setCtx c x).bun = d.bun := d.withMedia_bun _
@[simp] theorem Dev.setCtx_dma (d : Dev) (c : Nat) (x : Ctx) : (d.setCtx c x).dma = d.dma := d.withMedia_dma _
@[simp] theorem Dev.setCtx_mgmt (d : Dev) (c : Nat) (x : Ctx) : (d.setCtx c x).mgmt = d.mgmt := d.withMedia_mgmt _
@[simp] theorem Dev.setCtx_pm (d : Dev) (c : Nat) (x : Ctx) : (d.setCtx c x).pm = d.pm := d.withMedia_pm _
@[simp] theorem Dev.setCtx_pins (d : Dev) (c : Nat) (x : Ctx) : (d.setCtx c x).pins = d.pins := d.withMedia_pins _
@[simp] theorem Dev.setCtx_freeCtr (d : Dev) (c : Nat) (x : Ctx) : (d.setCtx c x).freeCtr = d.freeCtr := d.withMedia_freeCtr _
@[simp] theorem Dev.setCtx_out (d : Dev) (c : Nat) (x : Ctx) : (d.setCtx c x).out = d.out := d.withMedia_out _

@[simp] theorem Dev.setGroup_regs (d : Dev) (g : Nat) (x : Group) : (d.setGroup g x).regs = d.regs := d.withMedia_regs _
@[simp] theorem Dev.setGroup_staged (d : Dev) (g : Nat) (x : Group) : (d.setGroup g x).staged = d.staged := d.withMedia_staged _
@[simp] theorem Dev.setGroup_applied (d : Dev) (g : Nat) (x : Group) : (d.setGroup g x).applied = d.applied := d.withMedia_applied _
@[simp] theorem Dev.setGroup_tb (d : Dev) (g : Nat) (x : Group) : (d.setGroup g x).tb = d.tb := d.withMedia_tb _
@[simp] theorem Dev.setGroup_host (d : Dev) (g : Nat) (x : Group) : (d.setGroup g x).host = d.host := d.withMedia_host _
@[simp] theorem Dev.setGroup_hostMem (d : Dev) (g : Nat) (x : Group) : (d.setGroup g x).hostMem = d.hostMem := d.withMedia_hostMem _
@[simp] theorem Dev.setGroup_dataMem (d : Dev) (g : Nat) (x : Group) : (d.setGroup g x).dataMem = d.dataMem := d.withMedia_dataMem _
@[simp] theorem Dev.setGroup_intc (d : Dev) (g : Nat) (x : Group) : (d.setGroup g x).intc = d.intc := d.withMedia_intc _
@[simp] theorem Dev.setGroup_fc (d : Dev) (g : Nat) (x : Group) : (d.setGroup g x).fc = d.fc := d.withMedia_fc _
@[simp] theorem Dev.setGroup_dlv (d : Dev) (g : Nat) (x : Group) : (d.setGroup g x).dlv = d.dlv := d.withMedia_dlv _
@[simp] theorem Dev.setGroup_eth (d : Dev) (g : Nat) (x : Group) : (d.setGroup g x).eth = d.eth := d.withMedia_eth _
@[simp] theorem Dev.setGroup_par (d : Dev) (g : Nat) (x : Group) : (d.setGroup g x).par = d.par := d.withMedia_par _
@[simp] theorem Dev.setGroup_qm (d : Dev) (g : Nat) (x : Group) : (d.setGroup g x).qm = d.qm := d.withMedia_qm _
@[simp] theorem Dev.setGroup_mem (d : Dev) (g : Nat) (x : Group) : (d.setGroup g x).mem = d.mem := d.withMedia_mem _
@[simp] theorem Dev.setGroup_prot (d : Dev) (g : Nat) (x : Group) : (d.setGroup g x).prot = d.prot := d.withMedia_prot _
@[simp] theorem Dev.setGroup_bun (d : Dev) (g : Nat) (x : Group) : (d.setGroup g x).bun = d.bun := d.withMedia_bun _
@[simp] theorem Dev.setGroup_dma (d : Dev) (g : Nat) (x : Group) : (d.setGroup g x).dma = d.dma := d.withMedia_dma _
@[simp] theorem Dev.setGroup_mgmt (d : Dev) (g : Nat) (x : Group) : (d.setGroup g x).mgmt = d.mgmt := d.withMedia_mgmt _
@[simp] theorem Dev.setGroup_pm (d : Dev) (g : Nat) (x : Group) : (d.setGroup g x).pm = d.pm := d.withMedia_pm _
@[simp] theorem Dev.setGroup_pins (d : Dev) (g : Nat) (x : Group) : (d.setGroup g x).pins = d.pins := d.withMedia_pins _
@[simp] theorem Dev.setGroup_freeCtr (d : Dev) (g : Nat) (x : Group) : (d.setGroup g x).freeCtr = d.freeCtr := d.withMedia_freeCtr _
@[simp] theorem Dev.setGroup_out (d : Dev) (g : Nat) (x : Group) : (d.setGroup g x).out = d.out := d.withMedia_out _

@[simp] theorem Dev.setPair_regs (d : Dev) (k : Nat) (x : Pair) : (d.setPair k x).regs = d.regs := d.withMedia_regs _
@[simp] theorem Dev.setPair_staged (d : Dev) (k : Nat) (x : Pair) : (d.setPair k x).staged = d.staged := d.withMedia_staged _
@[simp] theorem Dev.setPair_applied (d : Dev) (k : Nat) (x : Pair) : (d.setPair k x).applied = d.applied := d.withMedia_applied _
@[simp] theorem Dev.setPair_tb (d : Dev) (k : Nat) (x : Pair) : (d.setPair k x).tb = d.tb := d.withMedia_tb _
@[simp] theorem Dev.setPair_host (d : Dev) (k : Nat) (x : Pair) : (d.setPair k x).host = d.host := d.withMedia_host _
@[simp] theorem Dev.setPair_hostMem (d : Dev) (k : Nat) (x : Pair) : (d.setPair k x).hostMem = d.hostMem := d.withMedia_hostMem _
@[simp] theorem Dev.setPair_dataMem (d : Dev) (k : Nat) (x : Pair) : (d.setPair k x).dataMem = d.dataMem := d.withMedia_dataMem _
@[simp] theorem Dev.setPair_intc (d : Dev) (k : Nat) (x : Pair) : (d.setPair k x).intc = d.intc := d.withMedia_intc _
@[simp] theorem Dev.setPair_fc (d : Dev) (k : Nat) (x : Pair) : (d.setPair k x).fc = d.fc := d.withMedia_fc _
@[simp] theorem Dev.setPair_dlv (d : Dev) (k : Nat) (x : Pair) : (d.setPair k x).dlv = d.dlv := d.withMedia_dlv _
@[simp] theorem Dev.setPair_eth (d : Dev) (k : Nat) (x : Pair) : (d.setPair k x).eth = d.eth := d.withMedia_eth _
@[simp] theorem Dev.setPair_par (d : Dev) (k : Nat) (x : Pair) : (d.setPair k x).par = d.par := d.withMedia_par _
@[simp] theorem Dev.setPair_qm (d : Dev) (k : Nat) (x : Pair) : (d.setPair k x).qm = d.qm := d.withMedia_qm _
@[simp] theorem Dev.setPair_mem (d : Dev) (k : Nat) (x : Pair) : (d.setPair k x).mem = d.mem := d.withMedia_mem _
@[simp] theorem Dev.setPair_prot (d : Dev) (k : Nat) (x : Pair) : (d.setPair k x).prot = d.prot := d.withMedia_prot _
@[simp] theorem Dev.setPair_bun (d : Dev) (k : Nat) (x : Pair) : (d.setPair k x).bun = d.bun := d.withMedia_bun _
@[simp] theorem Dev.setPair_dma (d : Dev) (k : Nat) (x : Pair) : (d.setPair k x).dma = d.dma := d.withMedia_dma _
@[simp] theorem Dev.setPair_mgmt (d : Dev) (k : Nat) (x : Pair) : (d.setPair k x).mgmt = d.mgmt := d.withMedia_mgmt _
@[simp] theorem Dev.setPair_pm (d : Dev) (k : Nat) (x : Pair) : (d.setPair k x).pm = d.pm := d.withMedia_pm _
@[simp] theorem Dev.setPair_pins (d : Dev) (k : Nat) (x : Pair) : (d.setPair k x).pins = d.pins := d.withMedia_pins _
@[simp] theorem Dev.setPair_freeCtr (d : Dev) (k : Nat) (x : Pair) : (d.setPair k x).freeCtr = d.freeCtr := d.withMedia_freeCtr _
@[simp] theorem Dev.setPair_out (d : Dev) (k : Nat) (x : Pair) : (d.setPair k x).out = d.out := d.withMedia_out _

@[simp] theorem Dev.setStream_regs (d : Dev) (n : Nat) (x : Stream) : (d.setStream n x).regs = d.regs := d.withDlv_regs _
@[simp] theorem Dev.setStream_staged (d : Dev) (n : Nat) (x : Stream) : (d.setStream n x).staged = d.staged := d.withDlv_staged _
@[simp] theorem Dev.setStream_applied (d : Dev) (n : Nat) (x : Stream) : (d.setStream n x).applied = d.applied := d.withDlv_applied _
@[simp] theorem Dev.setStream_tb (d : Dev) (n : Nat) (x : Stream) : (d.setStream n x).tb = d.tb := d.withDlv_tb _
@[simp] theorem Dev.setStream_host (d : Dev) (n : Nat) (x : Stream) : (d.setStream n x).host = d.host := d.withDlv_host _
@[simp] theorem Dev.setStream_hostMem (d : Dev) (n : Nat) (x : Stream) : (d.setStream n x).hostMem = d.hostMem := d.withDlv_hostMem _
@[simp] theorem Dev.setStream_dataMem (d : Dev) (n : Nat) (x : Stream) : (d.setStream n x).dataMem = d.dataMem := d.withDlv_dataMem _
@[simp] theorem Dev.setStream_intc (d : Dev) (n : Nat) (x : Stream) : (d.setStream n x).intc = d.intc := d.withDlv_intc _
@[simp] theorem Dev.setStream_fc (d : Dev) (n : Nat) (x : Stream) : (d.setStream n x).fc = d.fc := d.withDlv_fc _
@[simp] theorem Dev.setStream_media (d : Dev) (n : Nat) (x : Stream) : (d.setStream n x).media = d.media := d.withDlv_media _
@[simp] theorem Dev.setStream_eth (d : Dev) (n : Nat) (x : Stream) : (d.setStream n x).eth = d.eth := d.withDlv_eth _
@[simp] theorem Dev.setStream_par (d : Dev) (n : Nat) (x : Stream) : (d.setStream n x).par = d.par := d.withDlv_par _
@[simp] theorem Dev.setStream_qm (d : Dev) (n : Nat) (x : Stream) : (d.setStream n x).qm = d.qm := d.withDlv_qm _
@[simp] theorem Dev.setStream_mem (d : Dev) (n : Nat) (x : Stream) : (d.setStream n x).mem = d.mem := d.withDlv_mem _
@[simp] theorem Dev.setStream_prot (d : Dev) (n : Nat) (x : Stream) : (d.setStream n x).prot = d.prot := d.withDlv_prot _
@[simp] theorem Dev.setStream_bun (d : Dev) (n : Nat) (x : Stream) : (d.setStream n x).bun = d.bun := d.withDlv_bun _
@[simp] theorem Dev.setStream_dma (d : Dev) (n : Nat) (x : Stream) : (d.setStream n x).dma = d.dma := d.withDlv_dma _
@[simp] theorem Dev.setStream_mgmt (d : Dev) (n : Nat) (x : Stream) : (d.setStream n x).mgmt = d.mgmt := d.withDlv_mgmt _
@[simp] theorem Dev.setStream_pm (d : Dev) (n : Nat) (x : Stream) : (d.setStream n x).pm = d.pm := d.withDlv_pm _
@[simp] theorem Dev.setStream_pins (d : Dev) (n : Nat) (x : Stream) : (d.setStream n x).pins = d.pins := d.withDlv_pins _
@[simp] theorem Dev.setStream_freeCtr (d : Dev) (n : Nat) (x : Stream) : (d.setStream n x).freeCtr = d.freeCtr := d.withDlv_freeCtr _
@[simp] theorem Dev.setStream_out (d : Dev) (n : Nat) (x : Stream) : (d.setStream n x).out = d.out := d.withDlv_out _

@[simp] theorem Dev.setFlow_regs (d : Dev) (f : Nat) (x : Flow) : (d.setFlow f x).regs = d.regs := d.withDlv_regs _
@[simp] theorem Dev.setFlow_staged (d : Dev) (f : Nat) (x : Flow) : (d.setFlow f x).staged = d.staged := d.withDlv_staged _
@[simp] theorem Dev.setFlow_applied (d : Dev) (f : Nat) (x : Flow) : (d.setFlow f x).applied = d.applied := d.withDlv_applied _
@[simp] theorem Dev.setFlow_tb (d : Dev) (f : Nat) (x : Flow) : (d.setFlow f x).tb = d.tb := d.withDlv_tb _
@[simp] theorem Dev.setFlow_host (d : Dev) (f : Nat) (x : Flow) : (d.setFlow f x).host = d.host := d.withDlv_host _
@[simp] theorem Dev.setFlow_hostMem (d : Dev) (f : Nat) (x : Flow) : (d.setFlow f x).hostMem = d.hostMem := d.withDlv_hostMem _
@[simp] theorem Dev.setFlow_dataMem (d : Dev) (f : Nat) (x : Flow) : (d.setFlow f x).dataMem = d.dataMem := d.withDlv_dataMem _
@[simp] theorem Dev.setFlow_intc (d : Dev) (f : Nat) (x : Flow) : (d.setFlow f x).intc = d.intc := d.withDlv_intc _
@[simp] theorem Dev.setFlow_fc (d : Dev) (f : Nat) (x : Flow) : (d.setFlow f x).fc = d.fc := d.withDlv_fc _
@[simp] theorem Dev.setFlow_media (d : Dev) (f : Nat) (x : Flow) : (d.setFlow f x).media = d.media := d.withDlv_media _
@[simp] theorem Dev.setFlow_eth (d : Dev) (f : Nat) (x : Flow) : (d.setFlow f x).eth = d.eth := d.withDlv_eth _
@[simp] theorem Dev.setFlow_par (d : Dev) (f : Nat) (x : Flow) : (d.setFlow f x).par = d.par := d.withDlv_par _
@[simp] theorem Dev.setFlow_qm (d : Dev) (f : Nat) (x : Flow) : (d.setFlow f x).qm = d.qm := d.withDlv_qm _
@[simp] theorem Dev.setFlow_mem (d : Dev) (f : Nat) (x : Flow) : (d.setFlow f x).mem = d.mem := d.withDlv_mem _
@[simp] theorem Dev.setFlow_prot (d : Dev) (f : Nat) (x : Flow) : (d.setFlow f x).prot = d.prot := d.withDlv_prot _
@[simp] theorem Dev.setFlow_bun (d : Dev) (f : Nat) (x : Flow) : (d.setFlow f x).bun = d.bun := d.withDlv_bun _
@[simp] theorem Dev.setFlow_dma (d : Dev) (f : Nat) (x : Flow) : (d.setFlow f x).dma = d.dma := d.withDlv_dma _
@[simp] theorem Dev.setFlow_mgmt (d : Dev) (f : Nat) (x : Flow) : (d.setFlow f x).mgmt = d.mgmt := d.withDlv_mgmt _
@[simp] theorem Dev.setFlow_pm (d : Dev) (f : Nat) (x : Flow) : (d.setFlow f x).pm = d.pm := d.withDlv_pm _
@[simp] theorem Dev.setFlow_pins (d : Dev) (f : Nat) (x : Flow) : (d.setFlow f x).pins = d.pins := d.withDlv_pins _
@[simp] theorem Dev.setFlow_freeCtr (d : Dev) (f : Nat) (x : Flow) : (d.setFlow f x).freeCtr = d.freeCtr := d.withDlv_freeCtr _
@[simp] theorem Dev.setFlow_out (d : Dev) (f : Nat) (x : Flow) : (d.setFlow f x).out = d.out := d.withDlv_out _

@[simp] theorem Dev.setPort_regs (d : Dev) (p : Nat) (x : Port) : (d.setPort p x).regs = d.regs := d.withEth_regs _
@[simp] theorem Dev.setPort_staged (d : Dev) (p : Nat) (x : Port) : (d.setPort p x).staged = d.staged := d.withEth_staged _
@[simp] theorem Dev.setPort_applied (d : Dev) (p : Nat) (x : Port) : (d.setPort p x).applied = d.applied := d.withEth_applied _
@[simp] theorem Dev.setPort_tb (d : Dev) (p : Nat) (x : Port) : (d.setPort p x).tb = d.tb := d.withEth_tb _
@[simp] theorem Dev.setPort_host (d : Dev) (p : Nat) (x : Port) : (d.setPort p x).host = d.host := d.withEth_host _
@[simp] theorem Dev.setPort_hostMem (d : Dev) (p : Nat) (x : Port) : (d.setPort p x).hostMem = d.hostMem := d.withEth_hostMem _
@[simp] theorem Dev.setPort_dataMem (d : Dev) (p : Nat) (x : Port) : (d.setPort p x).dataMem = d.dataMem := d.withEth_dataMem _
@[simp] theorem Dev.setPort_intc (d : Dev) (p : Nat) (x : Port) : (d.setPort p x).intc = d.intc := d.withEth_intc _
@[simp] theorem Dev.setPort_fc (d : Dev) (p : Nat) (x : Port) : (d.setPort p x).fc = d.fc := d.withEth_fc _
@[simp] theorem Dev.setPort_media (d : Dev) (p : Nat) (x : Port) : (d.setPort p x).media = d.media := d.withEth_media _
@[simp] theorem Dev.setPort_dlv (d : Dev) (p : Nat) (x : Port) : (d.setPort p x).dlv = d.dlv := d.withEth_dlv _
@[simp] theorem Dev.setPort_par (d : Dev) (p : Nat) (x : Port) : (d.setPort p x).par = d.par := d.withEth_par _
@[simp] theorem Dev.setPort_qm (d : Dev) (p : Nat) (x : Port) : (d.setPort p x).qm = d.qm := d.withEth_qm _
@[simp] theorem Dev.setPort_mem (d : Dev) (p : Nat) (x : Port) : (d.setPort p x).mem = d.mem := d.withEth_mem _
@[simp] theorem Dev.setPort_prot (d : Dev) (p : Nat) (x : Port) : (d.setPort p x).prot = d.prot := d.withEth_prot _
@[simp] theorem Dev.setPort_bun (d : Dev) (p : Nat) (x : Port) : (d.setPort p x).bun = d.bun := d.withEth_bun _
@[simp] theorem Dev.setPort_dma (d : Dev) (p : Nat) (x : Port) : (d.setPort p x).dma = d.dma := d.withEth_dma _
@[simp] theorem Dev.setPort_mgmt (d : Dev) (p : Nat) (x : Port) : (d.setPort p x).mgmt = d.mgmt := d.withEth_mgmt _
@[simp] theorem Dev.setPort_pm (d : Dev) (p : Nat) (x : Port) : (d.setPort p x).pm = d.pm := d.withEth_pm _
@[simp] theorem Dev.setPort_pins (d : Dev) (p : Nat) (x : Port) : (d.setPort p x).pins = d.pins := d.withEth_pins _
@[simp] theorem Dev.setPort_freeCtr (d : Dev) (p : Nat) (x : Port) : (d.setPort p x).freeCtr = d.freeCtr := d.withEth_freeCtr _
@[simp] theorem Dev.setPort_out (d : Dev) (p : Nat) (x : Port) : (d.setPort p x).out = d.out := d.withEth_out _

@[simp] theorem Dev.setIngest_regs (d : Dev) (n : Nat) (x : Ingest) : (d.setIngest n x).regs = d.regs := d.withPar_regs _
@[simp] theorem Dev.setIngest_staged (d : Dev) (n : Nat) (x : Ingest) : (d.setIngest n x).staged = d.staged := d.withPar_staged _
@[simp] theorem Dev.setIngest_applied (d : Dev) (n : Nat) (x : Ingest) : (d.setIngest n x).applied = d.applied := d.withPar_applied _
@[simp] theorem Dev.setIngest_tb (d : Dev) (n : Nat) (x : Ingest) : (d.setIngest n x).tb = d.tb := d.withPar_tb _
@[simp] theorem Dev.setIngest_host (d : Dev) (n : Nat) (x : Ingest) : (d.setIngest n x).host = d.host := d.withPar_host _
@[simp] theorem Dev.setIngest_hostMem (d : Dev) (n : Nat) (x : Ingest) : (d.setIngest n x).hostMem = d.hostMem := d.withPar_hostMem _
@[simp] theorem Dev.setIngest_dataMem (d : Dev) (n : Nat) (x : Ingest) : (d.setIngest n x).dataMem = d.dataMem := d.withPar_dataMem _
@[simp] theorem Dev.setIngest_intc (d : Dev) (n : Nat) (x : Ingest) : (d.setIngest n x).intc = d.intc := d.withPar_intc _
@[simp] theorem Dev.setIngest_fc (d : Dev) (n : Nat) (x : Ingest) : (d.setIngest n x).fc = d.fc := d.withPar_fc _
@[simp] theorem Dev.setIngest_media (d : Dev) (n : Nat) (x : Ingest) : (d.setIngest n x).media = d.media := d.withPar_media _
@[simp] theorem Dev.setIngest_dlv (d : Dev) (n : Nat) (x : Ingest) : (d.setIngest n x).dlv = d.dlv := d.withPar_dlv _
@[simp] theorem Dev.setIngest_eth (d : Dev) (n : Nat) (x : Ingest) : (d.setIngest n x).eth = d.eth := d.withPar_eth _
@[simp] theorem Dev.setIngest_qm (d : Dev) (n : Nat) (x : Ingest) : (d.setIngest n x).qm = d.qm := d.withPar_qm _
@[simp] theorem Dev.setIngest_mem (d : Dev) (n : Nat) (x : Ingest) : (d.setIngest n x).mem = d.mem := d.withPar_mem _
@[simp] theorem Dev.setIngest_prot (d : Dev) (n : Nat) (x : Ingest) : (d.setIngest n x).prot = d.prot := d.withPar_prot _
@[simp] theorem Dev.setIngest_bun (d : Dev) (n : Nat) (x : Ingest) : (d.setIngest n x).bun = d.bun := d.withPar_bun _
@[simp] theorem Dev.setIngest_dma (d : Dev) (n : Nat) (x : Ingest) : (d.setIngest n x).dma = d.dma := d.withPar_dma _
@[simp] theorem Dev.setIngest_mgmt (d : Dev) (n : Nat) (x : Ingest) : (d.setIngest n x).mgmt = d.mgmt := d.withPar_mgmt _
@[simp] theorem Dev.setIngest_pm (d : Dev) (n : Nat) (x : Ingest) : (d.setIngest n x).pm = d.pm := d.withPar_pm _
@[simp] theorem Dev.setIngest_pins (d : Dev) (n : Nat) (x : Ingest) : (d.setIngest n x).pins = d.pins := d.withPar_pins _
@[simp] theorem Dev.setIngest_freeCtr (d : Dev) (n : Nat) (x : Ingest) : (d.setIngest n x).freeCtr = d.freeCtr := d.withPar_freeCtr _
@[simp] theorem Dev.setIngest_out (d : Dev) (n : Nat) (x : Ingest) : (d.setIngest n x).out = d.out := d.withPar_out _

@[simp] theorem Dev.setRules_regs (d : Dev) (b : Bool) (x : SMap Rule) : (d.setRules b x).regs = d.regs := d.withPar_regs _
@[simp] theorem Dev.setRules_staged (d : Dev) (b : Bool) (x : SMap Rule) : (d.setRules b x).staged = d.staged := d.withPar_staged _
@[simp] theorem Dev.setRules_applied (d : Dev) (b : Bool) (x : SMap Rule) : (d.setRules b x).applied = d.applied := d.withPar_applied _
@[simp] theorem Dev.setRules_tb (d : Dev) (b : Bool) (x : SMap Rule) : (d.setRules b x).tb = d.tb := d.withPar_tb _
@[simp] theorem Dev.setRules_host (d : Dev) (b : Bool) (x : SMap Rule) : (d.setRules b x).host = d.host := d.withPar_host _
@[simp] theorem Dev.setRules_hostMem (d : Dev) (b : Bool) (x : SMap Rule) : (d.setRules b x).hostMem = d.hostMem := d.withPar_hostMem _
@[simp] theorem Dev.setRules_dataMem (d : Dev) (b : Bool) (x : SMap Rule) : (d.setRules b x).dataMem = d.dataMem := d.withPar_dataMem _
@[simp] theorem Dev.setRules_intc (d : Dev) (b : Bool) (x : SMap Rule) : (d.setRules b x).intc = d.intc := d.withPar_intc _
@[simp] theorem Dev.setRules_fc (d : Dev) (b : Bool) (x : SMap Rule) : (d.setRules b x).fc = d.fc := d.withPar_fc _
@[simp] theorem Dev.setRules_media (d : Dev) (b : Bool) (x : SMap Rule) : (d.setRules b x).media = d.media := d.withPar_media _
@[simp] theorem Dev.setRules_dlv (d : Dev) (b : Bool) (x : SMap Rule) : (d.setRules b x).dlv = d.dlv := d.withPar_dlv _
@[simp] theorem Dev.setRules_eth (d : Dev) (b : Bool) (x : SMap Rule) : (d.setRules b x).eth = d.eth := d.withPar_eth _
@[simp] theorem Dev.setRules_qm (d : Dev) (b : Bool) (x : SMap Rule) : (d.setRules b x).qm = d.qm := d.withPar_qm _
@[simp] theorem Dev.setRules_mem (d : Dev) (b : Bool) (x : SMap Rule) : (d.setRules b x).mem = d.mem := d.withPar_mem _
@[simp] theorem Dev.setRules_prot (d : Dev) (b : Bool) (x : SMap Rule) : (d.setRules b x).prot = d.prot := d.withPar_prot _
@[simp] theorem Dev.setRules_bun (d : Dev) (b : Bool) (x : SMap Rule) : (d.setRules b x).bun = d.bun := d.withPar_bun _
@[simp] theorem Dev.setRules_dma (d : Dev) (b : Bool) (x : SMap Rule) : (d.setRules b x).dma = d.dma := d.withPar_dma _
@[simp] theorem Dev.setRules_mgmt (d : Dev) (b : Bool) (x : SMap Rule) : (d.setRules b x).mgmt = d.mgmt := d.withPar_mgmt _
@[simp] theorem Dev.setRules_pm (d : Dev) (b : Bool) (x : SMap Rule) : (d.setRules b x).pm = d.pm := d.withPar_pm _
@[simp] theorem Dev.setRules_pins (d : Dev) (b : Bool) (x : SMap Rule) : (d.setRules b x).pins = d.pins := d.withPar_pins _
@[simp] theorem Dev.setRules_freeCtr (d : Dev) (b : Bool) (x : SMap Rule) : (d.setRules b x).freeCtr = d.freeCtr := d.withPar_freeCtr _
@[simp] theorem Dev.setRules_out (d : Dev) (b : Bool) (x : SMap Rule) : (d.setRules b x).out = d.out := d.withPar_out _

@[simp] theorem Dev.setTokens_regs (d : Dev) (c n : Nat) : (d.setTokens c n).regs = d.regs := d.withPar_regs _
@[simp] theorem Dev.setTokens_staged (d : Dev) (c n : Nat) : (d.setTokens c n).staged = d.staged := d.withPar_staged _
@[simp] theorem Dev.setTokens_applied (d : Dev) (c n : Nat) : (d.setTokens c n).applied = d.applied := d.withPar_applied _
@[simp] theorem Dev.setTokens_tb (d : Dev) (c n : Nat) : (d.setTokens c n).tb = d.tb := d.withPar_tb _
@[simp] theorem Dev.setTokens_host (d : Dev) (c n : Nat) : (d.setTokens c n).host = d.host := d.withPar_host _
@[simp] theorem Dev.setTokens_hostMem (d : Dev) (c n : Nat) : (d.setTokens c n).hostMem = d.hostMem := d.withPar_hostMem _
@[simp] theorem Dev.setTokens_dataMem (d : Dev) (c n : Nat) : (d.setTokens c n).dataMem = d.dataMem := d.withPar_dataMem _
@[simp] theorem Dev.setTokens_intc (d : Dev) (c n : Nat) : (d.setTokens c n).intc = d.intc := d.withPar_intc _
@[simp] theorem Dev.setTokens_fc (d : Dev) (c n : Nat) : (d.setTokens c n).fc = d.fc := d.withPar_fc _
@[simp] theorem Dev.setTokens_media (d : Dev) (c n : Nat) : (d.setTokens c n).media = d.media := d.withPar_media _
@[simp] theorem Dev.setTokens_dlv (d : Dev) (c n : Nat) : (d.setTokens c n).dlv = d.dlv := d.withPar_dlv _
@[simp] theorem Dev.setTokens_eth (d : Dev) (c n : Nat) : (d.setTokens c n).eth = d.eth := d.withPar_eth _
@[simp] theorem Dev.setTokens_qm (d : Dev) (c n : Nat) : (d.setTokens c n).qm = d.qm := d.withPar_qm _
@[simp] theorem Dev.setTokens_mem (d : Dev) (c n : Nat) : (d.setTokens c n).mem = d.mem := d.withPar_mem _
@[simp] theorem Dev.setTokens_prot (d : Dev) (c n : Nat) : (d.setTokens c n).prot = d.prot := d.withPar_prot _
@[simp] theorem Dev.setTokens_bun (d : Dev) (c n : Nat) : (d.setTokens c n).bun = d.bun := d.withPar_bun _
@[simp] theorem Dev.setTokens_dma (d : Dev) (c n : Nat) : (d.setTokens c n).dma = d.dma := d.withPar_dma _
@[simp] theorem Dev.setTokens_mgmt (d : Dev) (c n : Nat) : (d.setTokens c n).mgmt = d.mgmt := d.withPar_mgmt _
@[simp] theorem Dev.setTokens_pm (d : Dev) (c n : Nat) : (d.setTokens c n).pm = d.pm := d.withPar_pm _
@[simp] theorem Dev.setTokens_pins (d : Dev) (c n : Nat) : (d.setTokens c n).pins = d.pins := d.withPar_pins _
@[simp] theorem Dev.setTokens_freeCtr (d : Dev) (c n : Nat) : (d.setTokens c n).freeCtr = d.freeCtr := d.withPar_freeCtr _
@[simp] theorem Dev.setTokens_out (d : Dev) (c n : Nat) : (d.setTokens c n).out = d.out := d.withPar_out _

@[simp] theorem Dev.setQueue_regs (d : Dev) (q : Nat) (x : Queue) : (d.setQueue q x).regs = d.regs := d.withQm_regs _
@[simp] theorem Dev.setQueue_staged (d : Dev) (q : Nat) (x : Queue) : (d.setQueue q x).staged = d.staged := d.withQm_staged _
@[simp] theorem Dev.setQueue_applied (d : Dev) (q : Nat) (x : Queue) : (d.setQueue q x).applied = d.applied := d.withQm_applied _
@[simp] theorem Dev.setQueue_tb (d : Dev) (q : Nat) (x : Queue) : (d.setQueue q x).tb = d.tb := d.withQm_tb _
@[simp] theorem Dev.setQueue_host (d : Dev) (q : Nat) (x : Queue) : (d.setQueue q x).host = d.host := d.withQm_host _
@[simp] theorem Dev.setQueue_hostMem (d : Dev) (q : Nat) (x : Queue) : (d.setQueue q x).hostMem = d.hostMem := d.withQm_hostMem _
@[simp] theorem Dev.setQueue_dataMem (d : Dev) (q : Nat) (x : Queue) : (d.setQueue q x).dataMem = d.dataMem := d.withQm_dataMem _
@[simp] theorem Dev.setQueue_intc (d : Dev) (q : Nat) (x : Queue) : (d.setQueue q x).intc = d.intc := d.withQm_intc _
@[simp] theorem Dev.setQueue_fc (d : Dev) (q : Nat) (x : Queue) : (d.setQueue q x).fc = d.fc := d.withQm_fc _
@[simp] theorem Dev.setQueue_media (d : Dev) (q : Nat) (x : Queue) : (d.setQueue q x).media = d.media := d.withQm_media _
@[simp] theorem Dev.setQueue_dlv (d : Dev) (q : Nat) (x : Queue) : (d.setQueue q x).dlv = d.dlv := d.withQm_dlv _
@[simp] theorem Dev.setQueue_eth (d : Dev) (q : Nat) (x : Queue) : (d.setQueue q x).eth = d.eth := d.withQm_eth _
@[simp] theorem Dev.setQueue_par (d : Dev) (q : Nat) (x : Queue) : (d.setQueue q x).par = d.par := d.withQm_par _
@[simp] theorem Dev.setQueue_mem (d : Dev) (q : Nat) (x : Queue) : (d.setQueue q x).mem = d.mem := d.withQm_mem _
@[simp] theorem Dev.setQueue_prot (d : Dev) (q : Nat) (x : Queue) : (d.setQueue q x).prot = d.prot := d.withQm_prot _
@[simp] theorem Dev.setQueue_bun (d : Dev) (q : Nat) (x : Queue) : (d.setQueue q x).bun = d.bun := d.withQm_bun _
@[simp] theorem Dev.setQueue_dma (d : Dev) (q : Nat) (x : Queue) : (d.setQueue q x).dma = d.dma := d.withQm_dma _
@[simp] theorem Dev.setQueue_mgmt (d : Dev) (q : Nat) (x : Queue) : (d.setQueue q x).mgmt = d.mgmt := d.withQm_mgmt _
@[simp] theorem Dev.setQueue_pm (d : Dev) (q : Nat) (x : Queue) : (d.setQueue q x).pm = d.pm := d.withQm_pm _
@[simp] theorem Dev.setQueue_pins (d : Dev) (q : Nat) (x : Queue) : (d.setQueue q x).pins = d.pins := d.withQm_pins _
@[simp] theorem Dev.setQueue_freeCtr (d : Dev) (q : Nat) (x : Queue) : (d.setQueue q x).freeCtr = d.freeCtr := d.withQm_freeCtr _
@[simp] theorem Dev.setQueue_out (d : Dev) (q : Nat) (x : Queue) : (d.setQueue q x).out = d.out := d.withQm_out _

@[simp] theorem Dev.setBuf_regs (d : Dev) (h : Nat) (x : Buffer) : (d.setBuf h x).regs = d.regs := d.withBun_regs _
@[simp] theorem Dev.setBuf_staged (d : Dev) (h : Nat) (x : Buffer) : (d.setBuf h x).staged = d.staged := d.withBun_staged _
@[simp] theorem Dev.setBuf_applied (d : Dev) (h : Nat) (x : Buffer) : (d.setBuf h x).applied = d.applied := d.withBun_applied _
@[simp] theorem Dev.setBuf_tb (d : Dev) (h : Nat) (x : Buffer) : (d.setBuf h x).tb = d.tb := d.withBun_tb _
@[simp] theorem Dev.setBuf_host (d : Dev) (h : Nat) (x : Buffer) : (d.setBuf h x).host = d.host := d.withBun_host _
@[simp] theorem Dev.setBuf_hostMem (d : Dev) (h : Nat) (x : Buffer) : (d.setBuf h x).hostMem = d.hostMem := d.withBun_hostMem _
@[simp] theorem Dev.setBuf_dataMem (d : Dev) (h : Nat) (x : Buffer) : (d.setBuf h x).dataMem = d.dataMem := d.withBun_dataMem _
@[simp] theorem Dev.setBuf_intc (d : Dev) (h : Nat) (x : Buffer) : (d.setBuf h x).intc = d.intc := d.withBun_intc _
@[simp] theorem Dev.setBuf_fc (d : Dev) (h : Nat) (x : Buffer) : (d.setBuf h x).fc = d.fc := d.withBun_fc _
@[simp] theorem Dev.setBuf_media (d : Dev) (h : Nat) (x : Buffer) : (d.setBuf h x).media = d.media := d.withBun_media _
@[simp] theorem Dev.setBuf_dlv (d : Dev) (h : Nat) (x : Buffer) : (d.setBuf h x).dlv = d.dlv := d.withBun_dlv _
@[simp] theorem Dev.setBuf_eth (d : Dev) (h : Nat) (x : Buffer) : (d.setBuf h x).eth = d.eth := d.withBun_eth _
@[simp] theorem Dev.setBuf_par (d : Dev) (h : Nat) (x : Buffer) : (d.setBuf h x).par = d.par := d.withBun_par _
@[simp] theorem Dev.setBuf_qm (d : Dev) (h : Nat) (x : Buffer) : (d.setBuf h x).qm = d.qm := d.withBun_qm _
@[simp] theorem Dev.setBuf_mem (d : Dev) (h : Nat) (x : Buffer) : (d.setBuf h x).mem = d.mem := d.withBun_mem _
@[simp] theorem Dev.setBuf_prot (d : Dev) (h : Nat) (x : Buffer) : (d.setBuf h x).prot = d.prot := d.withBun_prot _
@[simp] theorem Dev.setBuf_dma (d : Dev) (h : Nat) (x : Buffer) : (d.setBuf h x).dma = d.dma := d.withBun_dma _
@[simp] theorem Dev.setBuf_mgmt (d : Dev) (h : Nat) (x : Buffer) : (d.setBuf h x).mgmt = d.mgmt := d.withBun_mgmt _
@[simp] theorem Dev.setBuf_pm (d : Dev) (h : Nat) (x : Buffer) : (d.setBuf h x).pm = d.pm := d.withBun_pm _
@[simp] theorem Dev.setBuf_pins (d : Dev) (h : Nat) (x : Buffer) : (d.setBuf h x).pins = d.pins := d.withBun_pins _
@[simp] theorem Dev.setBuf_freeCtr (d : Dev) (h : Nat) (x : Buffer) : (d.setBuf h x).freeCtr = d.freeCtr := d.withBun_freeCtr _
@[simp] theorem Dev.setBuf_out (d : Dev) (h : Nat) (x : Buffer) : (d.setBuf h x).out = d.out := d.withBun_out _

@[simp] theorem Dev.setDmaChan_regs (d : Dev) (c : Nat) (x : DmaChan) : (d.setDmaChan c x).regs = d.regs := d.withDma_regs _
@[simp] theorem Dev.setDmaChan_staged (d : Dev) (c : Nat) (x : DmaChan) : (d.setDmaChan c x).staged = d.staged := d.withDma_staged _
@[simp] theorem Dev.setDmaChan_applied (d : Dev) (c : Nat) (x : DmaChan) : (d.setDmaChan c x).applied = d.applied := d.withDma_applied _
@[simp] theorem Dev.setDmaChan_tb (d : Dev) (c : Nat) (x : DmaChan) : (d.setDmaChan c x).tb = d.tb := d.withDma_tb _
@[simp] theorem Dev.setDmaChan_host (d : Dev) (c : Nat) (x : DmaChan) : (d.setDmaChan c x).host = d.host := d.withDma_host _
@[simp] theorem Dev.setDmaChan_hostMem (d : Dev) (c : Nat) (x : DmaChan) : (d.setDmaChan c x).hostMem = d.hostMem := d.withDma_hostMem _
@[simp] theorem Dev.setDmaChan_dataMem (d : Dev) (c : Nat) (x : DmaChan) : (d.setDmaChan c x).dataMem = d.dataMem := d.withDma_dataMem _
@[simp] theorem Dev.setDmaChan_intc (d : Dev) (c : Nat) (x : DmaChan) : (d.setDmaChan c x).intc = d.intc := d.withDma_intc _
@[simp] theorem Dev.setDmaChan_fc (d : Dev) (c : Nat) (x : DmaChan) : (d.setDmaChan c x).fc = d.fc := d.withDma_fc _
@[simp] theorem Dev.setDmaChan_media (d : Dev) (c : Nat) (x : DmaChan) : (d.setDmaChan c x).media = d.media := d.withDma_media _
@[simp] theorem Dev.setDmaChan_dlv (d : Dev) (c : Nat) (x : DmaChan) : (d.setDmaChan c x).dlv = d.dlv := d.withDma_dlv _
@[simp] theorem Dev.setDmaChan_eth (d : Dev) (c : Nat) (x : DmaChan) : (d.setDmaChan c x).eth = d.eth := d.withDma_eth _
@[simp] theorem Dev.setDmaChan_par (d : Dev) (c : Nat) (x : DmaChan) : (d.setDmaChan c x).par = d.par := d.withDma_par _
@[simp] theorem Dev.setDmaChan_qm (d : Dev) (c : Nat) (x : DmaChan) : (d.setDmaChan c x).qm = d.qm := d.withDma_qm _
@[simp] theorem Dev.setDmaChan_mem (d : Dev) (c : Nat) (x : DmaChan) : (d.setDmaChan c x).mem = d.mem := d.withDma_mem _
@[simp] theorem Dev.setDmaChan_prot (d : Dev) (c : Nat) (x : DmaChan) : (d.setDmaChan c x).prot = d.prot := d.withDma_prot _
@[simp] theorem Dev.setDmaChan_bun (d : Dev) (c : Nat) (x : DmaChan) : (d.setDmaChan c x).bun = d.bun := d.withDma_bun _
@[simp] theorem Dev.setDmaChan_mgmt (d : Dev) (c : Nat) (x : DmaChan) : (d.setDmaChan c x).mgmt = d.mgmt := d.withDma_mgmt _
@[simp] theorem Dev.setDmaChan_pm (d : Dev) (c : Nat) (x : DmaChan) : (d.setDmaChan c x).pm = d.pm := d.withDma_pm _
@[simp] theorem Dev.setDmaChan_pins (d : Dev) (c : Nat) (x : DmaChan) : (d.setDmaChan c x).pins = d.pins := d.withDma_pins _
@[simp] theorem Dev.setDmaChan_freeCtr (d : Dev) (c : Nat) (x : DmaChan) : (d.setDmaChan c x).freeCtr = d.freeCtr := d.withDma_freeCtr _
@[simp] theorem Dev.setDmaChan_out (d : Dev) (c : Nat) (x : DmaChan) : (d.setDmaChan c x).out = d.out := d.withDma_out _

@[simp] theorem Dev.setSlot_regs (d : Dev) (b : Bool) (x : FwSlot) : (d.setSlot b x).regs = d.regs := d.withMgmt_regs _
@[simp] theorem Dev.setSlot_staged (d : Dev) (b : Bool) (x : FwSlot) : (d.setSlot b x).staged = d.staged := d.withMgmt_staged _
@[simp] theorem Dev.setSlot_applied (d : Dev) (b : Bool) (x : FwSlot) : (d.setSlot b x).applied = d.applied := d.withMgmt_applied _
@[simp] theorem Dev.setSlot_tb (d : Dev) (b : Bool) (x : FwSlot) : (d.setSlot b x).tb = d.tb := d.withMgmt_tb _
@[simp] theorem Dev.setSlot_host (d : Dev) (b : Bool) (x : FwSlot) : (d.setSlot b x).host = d.host := d.withMgmt_host _
@[simp] theorem Dev.setSlot_hostMem (d : Dev) (b : Bool) (x : FwSlot) : (d.setSlot b x).hostMem = d.hostMem := d.withMgmt_hostMem _
@[simp] theorem Dev.setSlot_dataMem (d : Dev) (b : Bool) (x : FwSlot) : (d.setSlot b x).dataMem = d.dataMem := d.withMgmt_dataMem _
@[simp] theorem Dev.setSlot_intc (d : Dev) (b : Bool) (x : FwSlot) : (d.setSlot b x).intc = d.intc := d.withMgmt_intc _
@[simp] theorem Dev.setSlot_fc (d : Dev) (b : Bool) (x : FwSlot) : (d.setSlot b x).fc = d.fc := d.withMgmt_fc _
@[simp] theorem Dev.setSlot_media (d : Dev) (b : Bool) (x : FwSlot) : (d.setSlot b x).media = d.media := d.withMgmt_media _
@[simp] theorem Dev.setSlot_dlv (d : Dev) (b : Bool) (x : FwSlot) : (d.setSlot b x).dlv = d.dlv := d.withMgmt_dlv _
@[simp] theorem Dev.setSlot_eth (d : Dev) (b : Bool) (x : FwSlot) : (d.setSlot b x).eth = d.eth := d.withMgmt_eth _
@[simp] theorem Dev.setSlot_par (d : Dev) (b : Bool) (x : FwSlot) : (d.setSlot b x).par = d.par := d.withMgmt_par _
@[simp] theorem Dev.setSlot_qm (d : Dev) (b : Bool) (x : FwSlot) : (d.setSlot b x).qm = d.qm := d.withMgmt_qm _
@[simp] theorem Dev.setSlot_mem (d : Dev) (b : Bool) (x : FwSlot) : (d.setSlot b x).mem = d.mem := d.withMgmt_mem _
@[simp] theorem Dev.setSlot_prot (d : Dev) (b : Bool) (x : FwSlot) : (d.setSlot b x).prot = d.prot := d.withMgmt_prot _
@[simp] theorem Dev.setSlot_bun (d : Dev) (b : Bool) (x : FwSlot) : (d.setSlot b x).bun = d.bun := d.withMgmt_bun _
@[simp] theorem Dev.setSlot_dma (d : Dev) (b : Bool) (x : FwSlot) : (d.setSlot b x).dma = d.dma := d.withMgmt_dma _
@[simp] theorem Dev.setSlot_pm (d : Dev) (b : Bool) (x : FwSlot) : (d.setSlot b x).pm = d.pm := d.withMgmt_pm _
@[simp] theorem Dev.setSlot_pins (d : Dev) (b : Bool) (x : FwSlot) : (d.setSlot b x).pins = d.pins := d.withMgmt_pins _
@[simp] theorem Dev.setSlot_freeCtr (d : Dev) (b : Bool) (x : FwSlot) : (d.setSlot b x).freeCtr = d.freeCtr := d.withMgmt_freeCtr _
@[simp] theorem Dev.setSlot_out (d : Dev) (b : Bool) (x : FwSlot) : (d.setSlot b x).out = d.out := d.withMgmt_out _

@[simp] theorem Dev.setInactive_regs (d : Dev) (x : FwSlot) : (d.setInactive x).regs = d.regs := d.withMgmt_regs _
@[simp] theorem Dev.setInactive_staged (d : Dev) (x : FwSlot) : (d.setInactive x).staged = d.staged := d.withMgmt_staged _
@[simp] theorem Dev.setInactive_applied (d : Dev) (x : FwSlot) : (d.setInactive x).applied = d.applied := d.withMgmt_applied _
@[simp] theorem Dev.setInactive_tb (d : Dev) (x : FwSlot) : (d.setInactive x).tb = d.tb := d.withMgmt_tb _
@[simp] theorem Dev.setInactive_host (d : Dev) (x : FwSlot) : (d.setInactive x).host = d.host := d.withMgmt_host _
@[simp] theorem Dev.setInactive_hostMem (d : Dev) (x : FwSlot) : (d.setInactive x).hostMem = d.hostMem := d.withMgmt_hostMem _
@[simp] theorem Dev.setInactive_dataMem (d : Dev) (x : FwSlot) : (d.setInactive x).dataMem = d.dataMem := d.withMgmt_dataMem _
@[simp] theorem Dev.setInactive_intc (d : Dev) (x : FwSlot) : (d.setInactive x).intc = d.intc := d.withMgmt_intc _
@[simp] theorem Dev.setInactive_fc (d : Dev) (x : FwSlot) : (d.setInactive x).fc = d.fc := d.withMgmt_fc _
@[simp] theorem Dev.setInactive_media (d : Dev) (x : FwSlot) : (d.setInactive x).media = d.media := d.withMgmt_media _
@[simp] theorem Dev.setInactive_dlv (d : Dev) (x : FwSlot) : (d.setInactive x).dlv = d.dlv := d.withMgmt_dlv _
@[simp] theorem Dev.setInactive_eth (d : Dev) (x : FwSlot) : (d.setInactive x).eth = d.eth := d.withMgmt_eth _
@[simp] theorem Dev.setInactive_par (d : Dev) (x : FwSlot) : (d.setInactive x).par = d.par := d.withMgmt_par _
@[simp] theorem Dev.setInactive_qm (d : Dev) (x : FwSlot) : (d.setInactive x).qm = d.qm := d.withMgmt_qm _
@[simp] theorem Dev.setInactive_mem (d : Dev) (x : FwSlot) : (d.setInactive x).mem = d.mem := d.withMgmt_mem _
@[simp] theorem Dev.setInactive_prot (d : Dev) (x : FwSlot) : (d.setInactive x).prot = d.prot := d.withMgmt_prot _
@[simp] theorem Dev.setInactive_bun (d : Dev) (x : FwSlot) : (d.setInactive x).bun = d.bun := d.withMgmt_bun _
@[simp] theorem Dev.setInactive_dma (d : Dev) (x : FwSlot) : (d.setInactive x).dma = d.dma := d.withMgmt_dma _
@[simp] theorem Dev.setInactive_pm (d : Dev) (x : FwSlot) : (d.setInactive x).pm = d.pm := d.withMgmt_pm _
@[simp] theorem Dev.setInactive_pins (d : Dev) (x : FwSlot) : (d.setInactive x).pins = d.pins := d.withMgmt_pins _
@[simp] theorem Dev.setInactive_freeCtr (d : Dev) (x : FwSlot) : (d.setInactive x).freeCtr = d.freeCtr := d.withMgmt_freeCtr _
@[simp] theorem Dev.setInactive_out (d : Dev) (x : FwSlot) : (d.setInactive x).out = d.out := d.withMgmt_out _

@[simp] theorem Dev.setOrder_regs (d : Dev) (x : Option Order) : (d.setOrder x).regs = d.regs := d.withMgmt_regs _
@[simp] theorem Dev.setOrder_staged (d : Dev) (x : Option Order) : (d.setOrder x).staged = d.staged := d.withMgmt_staged _
@[simp] theorem Dev.setOrder_applied (d : Dev) (x : Option Order) : (d.setOrder x).applied = d.applied := d.withMgmt_applied _
@[simp] theorem Dev.setOrder_tb (d : Dev) (x : Option Order) : (d.setOrder x).tb = d.tb := d.withMgmt_tb _
@[simp] theorem Dev.setOrder_host (d : Dev) (x : Option Order) : (d.setOrder x).host = d.host := d.withMgmt_host _
@[simp] theorem Dev.setOrder_hostMem (d : Dev) (x : Option Order) : (d.setOrder x).hostMem = d.hostMem := d.withMgmt_hostMem _
@[simp] theorem Dev.setOrder_dataMem (d : Dev) (x : Option Order) : (d.setOrder x).dataMem = d.dataMem := d.withMgmt_dataMem _
@[simp] theorem Dev.setOrder_intc (d : Dev) (x : Option Order) : (d.setOrder x).intc = d.intc := d.withMgmt_intc _
@[simp] theorem Dev.setOrder_fc (d : Dev) (x : Option Order) : (d.setOrder x).fc = d.fc := d.withMgmt_fc _
@[simp] theorem Dev.setOrder_media (d : Dev) (x : Option Order) : (d.setOrder x).media = d.media := d.withMgmt_media _
@[simp] theorem Dev.setOrder_dlv (d : Dev) (x : Option Order) : (d.setOrder x).dlv = d.dlv := d.withMgmt_dlv _
@[simp] theorem Dev.setOrder_eth (d : Dev) (x : Option Order) : (d.setOrder x).eth = d.eth := d.withMgmt_eth _
@[simp] theorem Dev.setOrder_par (d : Dev) (x : Option Order) : (d.setOrder x).par = d.par := d.withMgmt_par _
@[simp] theorem Dev.setOrder_qm (d : Dev) (x : Option Order) : (d.setOrder x).qm = d.qm := d.withMgmt_qm _
@[simp] theorem Dev.setOrder_mem (d : Dev) (x : Option Order) : (d.setOrder x).mem = d.mem := d.withMgmt_mem _
@[simp] theorem Dev.setOrder_prot (d : Dev) (x : Option Order) : (d.setOrder x).prot = d.prot := d.withMgmt_prot _
@[simp] theorem Dev.setOrder_bun (d : Dev) (x : Option Order) : (d.setOrder x).bun = d.bun := d.withMgmt_bun _
@[simp] theorem Dev.setOrder_dma (d : Dev) (x : Option Order) : (d.setOrder x).dma = d.dma := d.withMgmt_dma _
@[simp] theorem Dev.setOrder_pm (d : Dev) (x : Option Order) : (d.setOrder x).pm = d.pm := d.withMgmt_pm _
@[simp] theorem Dev.setOrder_pins (d : Dev) (x : Option Order) : (d.setOrder x).pins = d.pins := d.withMgmt_pins _
@[simp] theorem Dev.setOrder_freeCtr (d : Dev) (x : Option Order) : (d.setOrder x).freeCtr = d.freeCtr := d.withMgmt_freeCtr _
@[simp] theorem Dev.setOrder_out (d : Dev) (x : Option Order) : (d.setOrder x).out = d.out := d.withMgmt_out _

/-! ### What reads back -/

@[simp] theorem Dev.tile_setTile (d : Dev) (t : Nat) (x : Tile) : (d.setTile t x).tile t = x := SMap.get_set_self ..

theorem Dev.tile_setTile_ne (d : Dev) {t j : Nat} (h : t ≠ j) (x : Tile) : (d.setTile t x).tile j = d.tile j :=
  SMap.get_set_ne _ _ h x

@[simp] theorem Dev.ctl_setCtl (d : Dev) (k : Nat) (x : MemCtl) : (d.setCtl k x).ctl k = x := SMap.get_set_self ..

theorem Dev.ctl_setCtl_ne (d : Dev) {k j : Nat} (h : k ≠ j) (x : MemCtl) : (d.setCtl k x).ctl j = d.ctl j :=
  SMap.get_set_ne _ _ h x

@[simp] theorem Dev.fn_setFn (d : Dev) (f : Nat) (x : FnState) : (d.setFn f x).fn f = x := SMap.get_set_self ..

theorem Dev.fn_setFn_ne (d : Dev) {f j : Nat} (h : f ≠ j) (x : FnState) : (d.setFn f x).fn j = d.fn j :=
  SMap.get_set_ne _ _ h x

@[simp] theorem Dev.intStack_setIntStack (d : Dev) (k : Nat) (x : List (Nat × Nat)) : (d.setIntStack k x).intStack k = x := SMap.get_set_self ..

theorem Dev.intStack_setIntStack_ne (d : Dev) {k j : Nat} (h : k ≠ j) (x : List (Nat × Nat)) : (d.setIntStack k x).intStack j = d.intStack j :=
  SMap.get_set_ne _ _ h x

@[simp] theorem Dev.pair_setPair (d : Dev) (k : Nat) (x : Pair) : (d.setPair k x).pair k = x := SMap.get_set_self ..

theorem Dev.pair_setPair_ne (d : Dev) {k j : Nat} (h : k ≠ j) (x : Pair) : (d.setPair k x).pair j = d.pair j :=
  SMap.get_set_ne _ _ h x

@[simp] theorem Dev.buf_setBuf (d : Dev) (b : Nat) (x : Buffer) : (d.setBuf b x).buf b = x := SMap.get_set_self ..

theorem Dev.buf_setBuf_ne (d : Dev) {b j : Nat} (h : b ≠ j) (x : Buffer) : (d.setBuf b x).buf j = d.buf j :=
  SMap.get_set_ne _ _ h x

@[simp] theorem Dev.dmaChan_setDmaChan (d : Dev) (c : Nat) (x : DmaChan) : (d.setDmaChan c x).dmaChan c = x := SMap.get_set_self ..

theorem Dev.dmaChan_setDmaChan_ne (d : Dev) {c j : Nat} (h : c ≠ j) (x : DmaChan) : (d.setDmaChan c x).dmaChan j = d.dmaChan j :=
  SMap.get_set_ne _ _ h x

@[simp] theorem Dev.ingest_setIngest (d : Dev) (n : Nat) (x : Ingest) : (d.setIngest n x).ingest n = x := SMap.get_set_self ..

theorem Dev.ingest_setIngest_ne (d : Dev) {n j : Nat} (h : n ≠ j) (x : Ingest) : (d.setIngest n x).ingest j = d.ingest j :=
  SMap.get_set_ne _ _ h x

@[simp] theorem Dev.port_setPort (d : Dev) (p : Nat) (x : Port) : (d.setPort p x).port p = x := SMap.get_set_self ..

theorem Dev.port_setPort_ne (d : Dev) {p j : Nat} (h : p ≠ j) (x : Port) : (d.setPort p x).port j = d.port j :=
  SMap.get_set_ne _ _ h x

@[simp] theorem Dev.queue_setQueue (d : Dev) (q : Nat) (x : Queue) : (d.setQueue q x).queue q = x := SMap.get_set_self ..

theorem Dev.queue_setQueue_ne (d : Dev) {q j : Nat} (h : q ≠ j) (x : Queue) : (d.setQueue q x).queue j = d.queue j :=
  SMap.get_set_ne _ _ h x

@[simp] theorem Dev.ring_setRing (d : Dev) (r : Nat) (x : Ring) : (d.setRing r x).ring r = some x := SMap.find_insert_self ..

theorem Dev.ring_setRing_ne (d : Dev) {r j : Nat} (h : r ≠ j) (x : Ring) : (d.setRing r x).ring j = d.ring j :=
  SMap.find_insert_ne x h _

@[simp] theorem Dev.cq_setCq (d : Dev) (q : Nat) (x : Cq) : (d.setCq q x).cq q = some x := SMap.find_insert_self ..

theorem Dev.cq_setCq_ne (d : Dev) {q j : Nat} (h : q ≠ j) (x : Cq) : (d.setCq q x).cq j = d.cq j :=
  SMap.find_insert_ne x h _

@[simp] theorem Dev.ctx_setCtx (d : Dev) (c : Nat) (x : Ctx) : (d.setCtx c x).ctx c = some x := SMap.find_insert_self ..

theorem Dev.ctx_setCtx_ne (d : Dev) {c j : Nat} (h : c ≠ j) (x : Ctx) : (d.setCtx c x).ctx j = d.ctx j :=
  SMap.find_insert_ne x h _

@[simp] theorem Dev.group_setGroup (d : Dev) (g : Nat) (x : Group) : (d.setGroup g x).group g = some x := SMap.find_insert_self ..

theorem Dev.group_setGroup_ne (d : Dev) {g j : Nat} (h : g ≠ j) (x : Group) : (d.setGroup g x).group j = d.group j :=
  SMap.find_insert_ne x h _

@[simp] theorem Dev.stream_setStream (d : Dev) (n : Nat) (x : Stream) : (d.setStream n x).stream n = some x := SMap.find_insert_self ..

theorem Dev.stream_setStream_ne (d : Dev) {n j : Nat} (h : n ≠ j) (x : Stream) : (d.setStream n x).stream j = d.stream j :=
  SMap.find_insert_ne x h _

@[simp] theorem Dev.flow_setFlow (d : Dev) (f : Nat) (x : Flow) : (d.setFlow f x).flow f = some x := SMap.find_insert_self ..

theorem Dev.flow_setFlow_ne (d : Dev) {f j : Nat} (h : f ≠ j) (x : Flow) : (d.setFlow f x).flow j = d.flow j :=
  SMap.find_insert_ne x h _

@[simp] theorem Dev.slot_setSlot (d : Dev) (b : Bool) (x : FwSlot) : (d.setSlot b x).slot b = x := by cases b <;> rfl

@[simp] theorem Dev.slot_setSlot_not (d : Dev) (b : Bool) (x : FwSlot) : (d.setSlot b x).slot (!b) = d.slot (!b) := by
  cases b <;> rfl

@[simp] theorem Dev.ruleSet_setRules (d : Dev) (b : Bool) (x : SMap Rule) : (d.setRules b x).ruleSet b = x := by
  cases b <;> rfl

@[simp] theorem Dev.ruleSet_setRules_not (d : Dev) (b : Bool) (x : SMap Rule) :
    (d.setRules b x).ruleSet (!b) = d.ruleSet (!b) := by cases b <;> rfl

@[simp] theorem Dev.order_setOrder (d : Dev) (x : Option Order) : (d.setOrder x).mgmt.order = x := rfl

end Sys2Proof.Machine
end

