-- ==== Sys2Proof/WellFormed.lean ====
section
/-! DEFINITION. Which commands the world outside can form: numbers within the ranges that the device gives its units, and
descriptors and records that carry the opcode of their row. The device's step does not rest on it. -/

namespace Sys2Proof

/-- A number within its range. -/
def below (v n : Nat) : Bool := decide (v < n)

/-- A descriptor's opcode (R68): byte 0. -/
def Desc.opcode (d : Desc) : Nat := d.toNat % 256

/-- A command of a ring: a ring of R59 and a descriptor of the row's opcode. -/
def opWf (code : Nat) (o : RingOp) : Bool := below o.ring 4096 && Desc.opcode o.desc == code

/-- ACTION of an SO_CONTROL (R503). -/
def actionIs (a : Nat) (o : RingOp) : Bool := o.desc.toNat / 2 ^ 64 % 256 == a

/-- A writer that is a driver of a virtual function names one. -/
def Writer.wf : Writer → Bool
  | .pf => true
  | .firmware => true
  | .vf fn => below 0 fn && below fn 64

def PtpMsg.wf (m : PtpMsg) : Bool := below m.port 128 && below m.domain 256 && below m.transport 3

def CfgAccess.wf : CfgAccess → Bool
  | .vecMask vec _ => below vec 32
  | .numVfs n => below n 64
  | .read _ => true
  | .busMaster _ => true
  | .d3hot _ => true
  | .fnMask _ => true
  | .relaxedOrdering _ => true
  | .maxPayload c => below c 8
  | .maxReadReq c => below c 8
  | .msixEnable _ => true
  | .aspmL1 _ => true
  | .aer _ _ => true
  | .clearPme => true
  | .other _ _ => true

def RowDone.wf (r : RowDone) : Bool := below r.ctx 4096 && below r.region 16

def SrcRef.wf : SrcRef → Bool
  | .group g => below g 512
  | .ctx c => below c 4096

/-- A record is whole: at least its header. -/
def RecIn.wf (r : RecIn) : Bool := below r.tile 4 && below r.pair 16 && below 0 r.words.length

/-- A record's type (R185, R186, R220): bits 31 to 24 of its header. -/
def opcodeIs (k : Nat) (r : RecIn) : Bool := (r.words.headD 0).toNat / 2 ^ 24 == k

def RxFrame.wf (f : RxFrame) : Bool := below f.port 128

def ReleaseRef.wf : ReleaseRef → Bool
  | .flow f => below f 262144
  | .frame ring => below ring 4096

/-- A request lies in one page, whose frame it reads or writes (R371, R386). -/
def MemIn.wf (q : MemIn) : Bool :=
  below q.stack 8 && (!q.write || q.data.length == q.len) && decide (q.addr % 4096 + q.len ≤ 4096)

def BurstResp.wf (r : BurstResp) : Bool := below r.ch 64 && below r.kind 6 && below r.phase 3

def Sensors.wf (x : Sensors) : Bool :=
  x.temps.length == 24 && x.volts.length == 16 && x.rails.length == 7 && x.stackTemps.length == 8

def TimeoutRef.wf : TimeoutRef → Bool
  | .dmaBurst ch _ => below ch 64
  | .dmaFetch ch _ => below ch 64
  | .op ring => below ring 4096

/-- Whether a command is well formed. -/
def Instr.wf : Instr → Bool
  | .tbEnableSet w _ => w.wf
  | .tbEnableClear w _ => w.wf
  | .ppsOutEnable w _ => w.wf
  | .timePpsOutEdge => true
  | .timePpsInEdge _ => true
  | .ptpMessage m => m.wf
  | .ppsSourceLoss _ => true
  | .ptpSourceLoss _ => true
  | .snap w _ => w.wf
  | .dtStep o => opWf 0x28 o
  | .setTod o => opWf 0x29 o
  | .configRequest fn c => below fn 64 && c.wf
  | .linkTrained _ _ => true
  | .vfFlr fn => below fn 64 && below 0 fn
  | .vfFlrComplete fn => below fn 64
  | .pfFlr => true
  | .vfDisable n => below n 64
  | .bar2Write fn _ _ => below fn 64
  | .bar2Read fn _ _ => below fn 64
  | .fnEnableSet fn _ => below fn 64
  | .fnEnableClear fn _ => below fn 64
  | .adminQuiesceDone fn => below fn 64
  | .clrRejected fn _ => below fn 64
  | .ringPoll ring _ => below ring 4096
  | .ringIdleTimeout ring => below ring 4096
  | .sleepRecheck ring _ => below ring 4096
  | .wakeWrite fn _ _ _ => below fn 64
  | .cqHeadRead cq _ => below cq 2048
  | .nop o => opWf 0x00 o
  | .negotiate o => opWf 0x10 o
  | .createCq o => opWf 0x11 o
  | .createRing o => opWf 0x12 o
  | .destroyRing o => opWf 0x13 o
  | .destroyRingDone ring => below ring 4096
  | .destroyCq o => opWf 0x14 o
  | .setProtection o => opWf 0x18 o
  | .epochDrain o => opWf 0x19 o
  | .epochDrainDone fn => below fn 64
  | .flush o => opWf 0x1A o
  | .flushDone fn => below fn 64
  | .registerWrite w _ _ => w.wf
  | .bar0Refused fn _ _ _ => below fn 64
  | .blockEnableSet w win _ => w.wf && below win 52
  | .blockEnableClear w win _ => w.wf && below win 52
  | .blockQuiesced win => below win 52
  | .commit w win _ => w.wf && below win 52
  | .discard w win _ => w.wf && below win 52
  | .safePointApply win _ => below win 52
  | .sqcClear w _ _ => w.wf
  | .aliasWrite w _ _ => w.wf
  | .powerOnReset _ straps => below straps 256
  | .warmReset cause => below cause 8
  | .resetRelease _ => true
  | .deviceReady b => below b.cause 6
  | .createContext o => opWf 0x20 o
  | .destroyContext o => opWf 0x21 o
  | .contextDrained ctx => below ctx 4096
  | .createGroup o => opWf 0x22 o
  | .destroyGroup o => opWf 0x23 o
  | .keyNow o => opWf 0x24 o
  | .setRateControl o => opWf 0x26 o
  | .picture o => opWf 0x30 o
  | .bitstream o => opWf 0x31 o
  | .getAu o => opWf 0x32 o
  | .produce o => opWf 0x38 o
  | .pictureDispatch tile => below tile 4
  | .rowComplete r => r.wf
  | .seamFilter ctx seam => below ctx 4096 && below seam 15
  | .pictureComplete p => below p.ctx 4096
  | .dvfsChange tile point _ => below tile 4 && below point 3
  | .pictureAnalysis src => src.wf
  | .rungScale ctx _ => below ctx 4096
  | .pairHandover tile pair => below tile 4 && below pair 16
  | .pad r => r.wf && opcodeIs 0 r
  | .picStart r => r.wf && opcodeIs 1 r
  | .rowStart r => r.wf && opcodeIs 2 r
  | .ctb r => r.wf && opcodeIs 3 r
  | .cu r => r.wf && opcodeIs 4 r
  | .intra r => r.wf && opcodeIs 5 r
  | .inter r => r.wf && opcodeIs 6 r
  | .residual r => r.wf && opcodeIs 7 r
  | .rowEnd r => r.wf && opcodeIs 9 r
  | .picEnd r => r.wf && opcodeIs 10 r
  | .avcMb r => r.wf && opcodeIs 64 r
  | .avcSubmb r => r.wf && opcodeIs 65 r
  | .predWeight r => r.wf && (opcodeIs 0x42 r || opcodeIs 0x45 r)
  | .sao r => r.wf && opcodeIs 64 r
  | .hevcCuExt r => r.wf && opcodeIs 65 r
  | .av1Cdef r => r.wf && opcodeIs 64 r
  | .av1Lr r => r.wf && opcodeIs 65 r
  | .av1Compound r => r.wf && opcodeIs 66 r
  | .av1Motion r => r.wf && opcodeIs 67 r
  | .av1Palette r => r.wf && opcodeIs 68 r
  | .av1Delta r => r.wf && opcodeIs 69 r
  | .vvcAlf r => r.wf && opcodeIs 65 r
  | .vvcAffine r => r.wf && opcodeIs 66 r
  | .vvcGpm r => r.wf && opcodeIs 67 r
  | .vvcInterExt r => r.wf && opcodeIs 68 r
  | .microword tile pair _ => below tile 4 && below pair 16
  | .preemptionRequest tile pair => below tile 4 && below pair 16
  | .routineWatchdog tile pair => below tile 4 && below pair 16
  | .budgetOut ctx region => below ctx 4096 && below region 16
  | .stallTimeout ctx => below ctx 4096
  | .loadPatch o => opWf 0x48 o
  | .patchTake tile pair => below tile 4 && below pair 16
  | .streamCreate o => opWf 0x50 o
  | .streamDestroy o => opWf 0x51 o
  | .streamKey o => opWf 0x52 o
  | .audio o => opWf 0x58 o
  | .segNext o => opWf 0x59 o
  | .segDrop o => opWf 0x5A o
  | .accessUnitPackage stream => below stream 8192
  | .audioWaitTimeout stream => below stream 8192
  | .openFlow o => opWf 0x44 o
  | .send o _ => opWf 0x40 o
  | .resend o _ => opWf 0x41 o
  | .setRate o _ => opWf 0x42 o
  | .rekey o _ => opWf 0x45 o
  | .closeFlow o _ => opWf 0x43 o
  | .flowCloseDone flow => below flow 262144
  | .flowCacheEntryFree flow _ => below flow 262144
  | .rxFrame f => f.wf
  | .pauseRx f => f.wf
  | .pfcRx f => f.wf
  | .pauseExpire port cls => below port 128 && below cls 9
  | .pauseRefresh port => below port 128
  | .linkUp port => below port 128
  | .linkDown port => below port 128
  | .anResolve port _ _ _ => below port 128
  | .ltComplete lane => below lane 128
  | .ltFail lane _ => below lane 128
  | .lgCntSnap w lg _ => w.wf && below lg 8
  | .skewTimeout stream => below stream 8192
  | .decapRecirculate => true
  | .fragmentAgeOut _ => true
  | .rxBuffer o => opWf 0x70 o
  | .hostRxDelivery ring => below ring 4096
  | .rulesWrite o => opWf 0x60 o
  | .rulesSwap o => opWf 0x61 o
  | .ruleSetDrained => true
  | .hoistRelease r => r.wf
  | .egressSelect port => below port 128
  | .frameTxEnd port => below port 128
  | .txFrame o => opWf 0x80 o
  | .gateEntryAdvance port => below port 128
  | .gateCycleBoundary port => below port 128
  | .gateListStart port => below port 128
  | .memRequest q => q.wf
  | .refreshDue stack sid => below stack 8 && below sid 4
  | .stackTempRead stack _ => below stack 8
  | .urgencyReport stack port _ _ => below stack 8 && below port 8
  | .panicLong stack port => below stack 8 && below port 8
  | .powerDownEntry stack _ => below stack 8
  | .selfRefreshEntry stack _ _ => below stack 8
  | .selfRefreshExit stack => below stack 8
  | .arm w stack _ => w.wf && below stack 8
  | .cancel w stack _ => w.wf && below stack 8
  | .freqChangeStart stack => below stack 8
  | .pllRelock stack _ => below stack 8
  | .phyTrainingDone stack _ => below stack 8
  | .mapEnable w _ => w.wf
  | .selfTest stack _ => below stack 8
  | .patrolScrub stack e => below stack 8 && below e.pchs 4294967296
  | .migrationCopy e _ => below e.pchs 4294967296
  | .retirePage o => opWf 0x68 o
  | .retireBank o => opWf 0x69 o
  | .declareErasure o => opWf 0x6A o
  | .poisonClear o => opWf 0x6B o
  | .allocation _ _ => true
  | .hold _ _ => true
  | .release _ _ => true
  | .free _ _ level => below level 4
  | .bufQuery o => opWf 0x78 o
  | .buntingEnable w _ => w.wf
  | .dmaRingPoll ch _ => below ch 64
  | .copy ch d => below ch 64 && Desc.opcode d == 0x90
  | .fill ch d => below ch 64 && Desc.opcode d == 0x91
  | .dmaBurstGrant => true
  | .dmaBurstResponse r => r.wf
  | .dmaEngineStopped => true
  | .dmaRestart w _ => w.wf
  | .dreqEdge line => below line 8
  | .dmaTimerFire k => below k 16
  | .dmaTimerWrite w k _ => w.wf && below k 16
  | .dmaSwreq w _ _ => w.wf
  | .dmaChannelEnable w ch _ => w.wf && below ch 64
  | .dmaChannelDisable w ch _ => w.wf && below ch 64
  | .intSourceEvent src => below src 1024
  | .intLevelChange src => below src 1024
  | .modMaxExpire fn vec => below fn 64 && below vec 32
  | .intHoldRelease fn => below fn 64
  | .claim w target _ => w.wf && below target 66
  | .complete w target _ => w.wf && below target 66
  | .thresholdWrite w target _ => w.wf && below target 66
  | .maskSet w target _ => w.wf && below target 66
  | .maskClr w target _ => w.wf && below target 66
  | .pendSet w target _ => w.wf && below target 66
  | .pendClr w target _ => w.wf && below target 66
  | .clockMonitorTrip dom _ => below dom 24
  | .halyardTimeout tile i => below i (if tile then 4 else 8)
  | .conditionReraise src => below src 640
  | .fcMhRearm w _ => w.wf
  | .fcForce w _ => w.wf
  | .faultEventTake => true
  | .flashLogWrite => true
  | .logRead o => opWf 0x7C o
  | .heartbeat _ => true
  | .heartbeatMissed => true
  | .mgmtCoreRestart => true
  | .getChallenge o => opWf 0x20 o
  | .claimAdmin o => opWf 0x21 o
  | .releaseAdmin o => opWf 0x22 o
  | .challengeLapse => true
  | .ownerSet o => opWf 0x23 o
  | .watchdog o => opWf 0x2C o
  | .hostWatchdog => true
  | .hostWaitExpiry => true
  | .soEgressDatagram _ => true
  | .fwWrite o => opWf 0x30 o
  | .fwActivate o => opWf 0x31 o
  | .fwCommit o => opWf 0x32 o
  | .configStore o => opWf 0x33 o
  | .soStore o => opWf 0x34 o
  | .soStop o => opWf 0x35 o && actionIs 0 o
  | .soAdopt o => opWf 0x35 o && actionIs 1 o
  | .soClear o => opWf 0x35 o && actionIs 2 o
  | .keyLoad o => opWf 0x38 o
  | .keyClear o => opWf 0x39 o
  | .attest o => opWf 0x3C o
  | .getCert o => opWf 0x3D o
  | .reset o => opWf 0x3F o
  | .resetDelayExpire => true
  | .sensorRefresh x => x.wf
  | .smbStatusRead port => below port 2
  | .smbFwWrite port _ _ data => below port 2 && below data.length 129
  | .smbFwActivate port b => below port 2 && below b 256
  | .smbReset port b => below port 2 && below b 256
  | .pmClear w unit _ => w.wf && below unit 40
  | .pmCounterLoRead path unit k => below path 66 && below unit 40 && below k 9
  | .pmOverflow unit k _ => below unit 40 && below k 8
  | .bwWindowEnd => true
  | .railFault rail => below rail 6
  | .thermalHold => true
  | .thermalHoldExit _ => true
  | .bypass _ _ => true
  | .idcode => true
  | .samplePreload _ _ => true
  | .extest _ _ => true
  | .highz => true
  | .clamp => true
  | .completionTimeout r => r.wf
  | .coreRestartDone => true
  | .delayReq _ => true

end Sys2Proof
end

