-- ==== Sys2Proof/Tests/Slice0.lean ====
section
/-! SUPPORT. The model's own tests: terms that WellFormed refuses, single steps with results from the spec, and for each
statement's parts a state and operands that meet the hypotheses of their clauses. -/

namespace Sys2Proof.Tests
open Sys2Proof Sys2Proof.Machine
set_option Elab.async false

/-! ### Small states -/

/-- A ring of function 0 with 64 entries. -/
def ringOf (type cq : Nat) : Ring :=
  ⟨type, 0, 6, 0x10000, 0x20000, cq, 0, false, 0, 0, 0, 0, 0, 0, false, false, false, false, false, false, false, 0, []⟩

/-- A completion queue of function 0 with 64 entries and no interrupt. -/
def cqOf : Cq := ⟨0, 6, 0x30000, 0x40000, 0xFFFF, 0, 0⟩

/-- A device whose driver holds level 1: an Admin ring 0, and rings 64 to 67 of the other types. -/
def devOf : Dev :=
  { (devReset.setFlag (Reg.FN_STATUS 0) 1 true) with
    host := { devReset.host with
      rings := [(0, ringOf 3 0), (64, ringOf 0 1), (65, ringOf 1 1), (66, ringOf 2 1), (67, ringOf 4 1)],
      cqs := [(0, cqOf), (1, cqOf)], ready := true } }

/-- That device changed by `f`, with no command waiting. -/
def st (f : Dev → Dev) : State := { dev := f devOf, pending := [] }

/-- A descriptor: its opcode, and values at byte offsets. -/
def desc (op : Nat) (l : List (Nat × Nat)) : Desc :=
  BitVec.ofNat 512 (l.foldl (fun n e => n + e.2 * 2 ^ (8 * e.1)) op)

/-- A command of ring `r`. -/
def onRing (r op : Nat) (l : List (Nat × Nat)) : RingOp := ⟨r, desc op l, [], []⟩

/-- The operation that a ring takes a command as. -/
def opOf (s : State) (o : RingOp) (key : Op → Nat) : Op :=
  match (s.dev.start o key).2 with
  | some x => x.1
  | none => ⟨0, 0, 0, 0, 0, 0, 0, 0, [], none, 0⟩

/-- The Admin ring takes command `o`. -/
abbrev admin (s : State) (o : RingOp) (fmt : Desc → Bool) (ok : Op → Bool) : Prop :=
  s.dev.takesAdmin o fmt ok (opOf s o adminKey)

/-- The state after command `i`. -/
def after (i : Instr) (s : State) : State :=
  match exec i s with
  | .next t => t
  | _ => s

/-- The function state of function `f` changed. -/
def withFn (f : Nat) (g : FnState → FnState) (d : Dev) : Dev := d.setFn f (g (d.fn f))

/-! ### Commands that WellFormed refuses, one for each check -/

/-- A frame, a record, a request and the like out of the range of one field. -/
def badRing : RingOp := onRing 4096 0x00 []

/-- A descriptor of another row's opcode. -/
def badCode : RingOp := onRing 0 0x01 []

def recWith (tile pair op : Nat) (empty : Bool) : RecIn :=
  ⟨tile, pair, if empty then [] else [BitVec.ofNat 32 (op * 2 ^ 24 + 1)], (0, 0)⟩

theorem test_ring_out_of_range_refused : (Instr.nop badRing).wf = false := by decide +kernel
theorem test_other_opcode_refused : (Instr.nop badCode).wf = false := by decide +kernel
theorem test_well_formed_nop : (Instr.nop (onRing 0 0x00 [])).wf = true := by decide +kernel

/-- SO_STOP, SO_ADOPT and SO_CLEAR are the three ACTIONs of one descriptor (R503). -/
theorem test_other_action_refused :
    (Instr.soStop (onRing 0 0x35 [(8, 1)])).wf = false ∧ (Instr.soAdopt (onRing 0 0x35 [(8, 2)])).wf = false ∧
    (Instr.soClear (onRing 0 0x35 [(8, 0)])).wf = false ∧ (Instr.soClear (onRing 0 0x35 [(8, 2)])).wf = true := by
  decide +kernel

theorem test_writer_refused :
    (Instr.registerWrite (.vf 0) 0 0).wf = false ∧ (Instr.registerWrite (.vf 64) 0 0).wf = false ∧
    (Instr.registerWrite (.vf 63) 0 0).wf = true := by decide +kernel

theorem test_ptp_message_refused :
    (Instr.ptpMessage ⟨128, .sync, 0, 127, 0, 0⟩).wf = false ∧ (Instr.ptpMessage ⟨0, .sync, 0, 256, 0, 0⟩).wf = false ∧
    (Instr.ptpMessage ⟨0, .sync, 3, 0, 0, 0⟩).wf = false := by
  decide +kernel

theorem test_config_request_refused :
    (Instr.configRequest 64 .clearPme).wf = false ∧ (Instr.configRequest 0 (.vecMask 32 true)).wf = false ∧
    (Instr.configRequest 0 (.maxPayload 8)).wf = false ∧ (Instr.configRequest 0 (.maxReadReq 8)).wf = false ∧
    (Instr.configRequest 0 (.numVfs 64)).wf = false ∧ (Instr.configRequest 0 (.numVfs 63)).wf = true := by decide +kernel

theorem test_row_refused : (Instr.rowComplete ⟨4096, 0, 0, [], 0, 0⟩).wf = false ∧
    (Instr.rowComplete ⟨0, 16, 0, [], 0, 0⟩).wf = false := by decide +kernel

theorem test_source_refused :
    (Instr.pictureAnalysis (.group 512)).wf = false ∧ (Instr.pictureAnalysis (.ctx 4096)).wf = false := by decide +kernel

theorem test_record_refused :
    (Instr.ctb (recWith 4 0 3 false)).wf = false ∧ (Instr.ctb (recWith 0 16 3 false)).wf = false ∧
    (Instr.ctb (recWith 0 0 3 true)).wf = false ∧ (Instr.ctb (recWith 0 0 4 false)).wf = false ∧
    (Instr.ctb (recWith 0 0 3 false)).wf = true := by decide +kernel

/-- PRED_WEIGHT has two OPCODEs (R219, R220). -/
theorem test_pred_weight_codes :
    (Instr.predWeight (recWith 0 0 0x42 false)).wf = true ∧ (Instr.predWeight (recWith 0 0 0x45 false)).wf = true ∧
    (Instr.predWeight (recWith 0 0 0x43 false)).wf = false := by decide +kernel

theorem test_frame_refused : (Instr.rxFrame ⟨128, [], true, 0⟩).wf = false := by decide +kernel

theorem test_release_refused :
    (Instr.hoistRelease (.flow 262144)).wf = false ∧ (Instr.hoistRelease (.frame 4096)).wf = false := by decide +kernel

theorem test_memory_request_refused :
    (Instr.memRequest ⟨8, 0, false, 0, 0, [], ⟨0, 0, false⟩, 0⟩).wf = false ∧
    (Instr.memRequest ⟨0, 0, true, 0, 2, [1], ⟨0, 0, false⟩, 0⟩).wf = false ∧
    (Instr.memRequest ⟨0, 0, false, 4095, 2, [], ⟨0, 0, false⟩, 0⟩).wf = false ∧
    (Instr.memRequest ⟨0, 0, true, 4095, 1, [1], ⟨0, 0, false⟩, 0⟩).wf = true := by decide +kernel

theorem test_burst_response_refused :
    (Instr.dmaBurstResponse ⟨64, 0, 0, 0, [], 0⟩).wf = false ∧ (Instr.dmaBurstResponse ⟨0, 6, 0, 0, [], 0⟩).wf = false ∧
    (Instr.dmaBurstResponse ⟨0, 0, 3, 0, [], 0⟩).wf = false := by decide +kernel

theorem test_sensors_refused :
    (Instr.sensorRefresh ⟨[], List.replicate 16 none, List.replicate 7 none, List.replicate 8 0, 0⟩).wf = false ∧
    (Instr.sensorRefresh ⟨List.replicate 24 none, [], List.replicate 7 none, List.replicate 8 0, 0⟩).wf = false ∧
    (Instr.sensorRefresh ⟨List.replicate 24 none, List.replicate 16 none, [], List.replicate 8 0, 0⟩).wf = false ∧
    (Instr.sensorRefresh ⟨List.replicate 24 none, List.replicate 16 none, List.replicate 7 none, [], 0⟩).wf = false := by
  decide +kernel

theorem test_timeout_refused :
    (Instr.completionTimeout (.dmaBurst 64 0)).wf = false ∧ (Instr.completionTimeout (.dmaFetch 64 0)).wf = false ∧
    (Instr.completionTimeout (.op 4096)).wf = false := by decide +kernel

/-- Numbers out of the range of their unit. -/
theorem test_numbers_refused :
    ([Instr.vfFlr 0, .vfFlr 64, .ringPoll 4096 [], .cqHeadRead 2048 [], .blockQuiesced 52, .contextDrained 4096,
      .pictureDispatch 4, .seamFilter 0 15, .dvfsChange 0 3 0, .microword 0 16 0, .accessUnitPackage 8192,
      .flowCloseDone 262144, .pauseExpire 0 9, .linkUp 128, .lgCntSnap .pf 8 0, .refreshDue 0 4, .urgencyReport 0 8 0 0,
      .free 0 0 4, .copy 64 (desc 0x90 []), .fill 0 (desc 0x90 []), .dreqEdge 8, .dmaTimerFire 16, .intSourceEvent 1024,
      .modMaxExpire 0 32, .claim .pf 66 0, .clockMonitorTrip 24 false, .halyardTimeout true 4, .conditionReraise 640,
      .smbStatusRead 2, .smbFwActivate 0 256, .pmCounterLoRead 66 0 0, .pmClear .pf 40 0, .pmOverflow 0 8 0, .railFault 6,
      .powerOnReset false 256, .warmReset 8].any Instr.wf) = false := by decide +kernel

/-! ### States that meet the hypotheses of the statements -/

def sTbIdle : State := st fun d => { d with tb := { d.tb with ptpValid := true } }

def sTbOn : State := st fun d => d.setReg Reg.TB_CTRL 1

/-- States that meet the hypotheses of TimeBaseRegisterCommands. -/
theorem witness_TimeBaseRegisterCommands :
    (sTbIdle.live ∧ sTbIdle.dev.mayWrite .pf ∧ sTbIdle.dev.rwlOpen 2 = true ∧ Claims.tbCtrlOk 0x7F25 ∧
    sTbIdle.dev.flag Reg.TB_CTRL 0 = false ∧ sTbIdle.dev.tbState = 0 ∧ sTbIdle.dev.srcValid (bits 0x7F25 3 2) = true) ∧
    (sTbOn.live ∧ sTbOn.dev.mayWrite .firmware ∧ Claims.tbCtrlOk (sTbOn.dev.reg Reg.TB_CTRL) ∧ Claims.tbCtrlOk 0x7F00 ∧
    sTbOn.dev.flag Reg.TB_CTRL 0 = true) ∧
    (sTbIdle.live ∧ sTbIdle.dev.mayWrite .pf ∧ sTbIdle.dev.rwlOpen 2 = true ∧ Claims.tbCtrlOk 2 ∧
    sTbIdle.dev.flag Reg.TB_CTRL 1 = false) := by
  refine ⟨?_, ?_, ?_⟩ <;> decide +kernel

def sTbPps : State := st fun d => { d with tb := { d.tb with pps := some (Series.start unitsPerSec 0) } }

def sTbLocked (p : Nat) : State := st fun d => (d.setReg Reg.TB_CTRL (1 + 4 * p)).setFld Reg.TB_STATUS 2 0 2

/-- States that meet the hypotheses of TimeBaseEvents. -/
theorem witness_TimeBaseEvents :
    (sTbPps.up ∧ sTbPps.dev.tb.pps = some (Series.start unitsPerSec 0)) ∧
    ((sTbLocked 2).up ∧ (sTbLocked 2).dev.flag Reg.TB_CTRL 0 = true ∧ (sTbLocked 2).dev.tbState = 2 ∧
    (sTbLocked 2).dev.tbPrimary = 2 ∧ (sTbLocked 2).dev.tbSecondary = 0) ∧
    ((sTbLocked 1).up ∧ (sTbLocked 1).dev.flag Reg.TB_CTRL 0 = true ∧ (sTbLocked 1).dev.tbState = 2 ∧
    (sTbLocked 1).dev.tbPrimary = 1 ∧ (sTbLocked 1).dev.tbSecondary = 0) := by
  refine ⟨?_, ?_, ?_⟩ <;> decide +kernel

def sPtp : State := st fun d => { d with tb := { d.tb with syncRx := some 5, syncPair := some (3, 5), delayReqTx := some 9 } }

def ptpOf (k : PtpKind) (p : Nat) : PtpMsg := ⟨p, k, 0, 0, 20, 7⟩

/-- States that meet the hypotheses of PtpMessages. -/
theorem witness_PtpMessages :
    (sPtp.up ∧ sPtp.dev.fld Reg.TB_CTRL 15 8 = (ptpOf .followUp 0).port ∧ (ptpOf .followUp 0).domain = sPtp.dev.tb.domain ∧ (ptpOf .followUp 0).transport ≤ 2 ∧
    (ptpOf .followUp 0).kind = .followUp ∧ sPtp.dev.tb.syncRx = some 5) ∧
    ((ptpOf .delayResp 0).kind = .delayResp ∧ sPtp.dev.tb.syncPair = some (3, 5) ∧ sPtp.dev.tb.delayReqTx = some 9) ∧
    (sPtp.up ∧ sPtp.dev.fld Reg.TB_CTRL 15 8 ≠ (ptpOf .sync 127).port) := by
  refine ⟨?_, ?_, ?_⟩ <;> decide +kernel

def oDtStep : RingOp := onRing 0 0x28 [(16, 1000)]

/-- States that meet the hypotheses of TimeBaseAdmin. -/
theorem witness_TimeBaseAdmin :
    ((st id).live ∧ admin (st id) oDtStep dtStepFormat levelOne ∧ dtStepTarget (st id).dev.tb.dt oDtStep.desc = some 1000) ∧
    (admin (st id) (onRing 0 0x29 [(16, 5)]) (fun x => lengthOf x == 0 && zeroAt x 8 8 && zeroAt x 22 42) levelOne) := by
  refine ⟨?_, ?_⟩ <;> decide +kernel

def sUnready : State := st fun d => { d with host := { d.host with ready := false } }

def sVfs : State := st fun d => { d with host := { d.host with numVfs := 2, linkActive := true } }

/-- States that meet the hypotheses of ConfigurationAndLink. -/
theorem witness_ConfigurationAndLink :
    (sUnready.up ∧ sUnready.dev.host.ready = false) ∧
    (sVfs.up ∧ sVfs.dev.host.ready = true ∧ (2 : Nat) ≤ sVfs.dev.host.numVfs ∧ (63 : Nat) ≤ 63 ∧ sVfs.dev.host.numVfs ≤ 63) := by
  refine ⟨?_, ?_⟩ <;> decide +kernel

def sFlr : State := st (withFn 1 fun x => { x with flr := true })

/-- States that meet the hypotheses of FunctionResets. -/
theorem witness_FunctionResets :
    (sVfs.up ∧ (1 : Nat) ≤ 63 ∧ (63 : Nat) < 64) ∧
    (sFlr.up ∧ (1 : Nat) < 64 ∧ (sFlr.dev.fn 1).flr = true) ∧
    (sVfs.up ∧ 1 < sVfs.dev.host.numVfs) := by
  refine ⟨?_, ?_, ?_⟩ <;> decide +kernel

def sWindow : State := st (withFn 0 fun x => { x with window := ⟨4096, 8192⟩ })

/-- States that meet the hypotheses of Bar2Accesses. -/
theorem witness_Bar2Accesses :
    (sWindow.live ∧ 8188 + [1, 2, 3, (4 : Byte)].length ≤ (sWindow.dev.fn 0).window.count) ∧
    (sWindow.live ∧ (sWindow.dev.fn 0).window.count < 8189 + [1, 2, 3, (4 : Byte)].length) ∧
    (sWindow.live ∧ 8188 + 4 ≤ (sWindow.dev.fn 0).window.count) ∧
    (sWindow.live ∧ (sWindow.dev.fn 0).window.count < 8192 + 1) := by
  refine ⟨?_, ?_, ?_, ?_⟩ <;> decide +kernel

def sPage (on : Bool) : State := st fun d => ((d.setFlag (Reg.FN_STATUS 0) 0 true).setFlag (Reg.FN_CTRL 0) 0 on).setFlag (Reg.FN_STATUS 0) 4 (!on)

def sPageQuiet : State := { dev := { (sPage false).dev with host := { devReset.host with ready := true } }, pending := [] }

/-- States that meet the hypotheses of ControlPage. -/
theorem witness_ControlPage :
    ((sPage false).live ∧ (sPage false).dev.flag (Reg.FN_STATUS 0) 0 = true ∧ 0 ≤ (sPage false).dev.host.numVfs ∧
    (sPage false).dev.flag (Reg.FN_CTRL 0) 0 = false ∧ (sPage false).dev.admAligned 0 = true) ∧
    ((sPage true).live ∧ (sPage true).dev.flag (Reg.FN_STATUS 0) 0 = true ∧ (sPage true).dev.flag (Reg.FN_CTRL 0) 0 = true ∧
    (sPage true).dev.ring 0 = some (ringOf 3 0)) ∧
    (bit 2 0 = false ∧ (sPage false).dev.flag (Reg.FN_CTRL 0) 0 = false ∧ (sPage false).dev.flag (Reg.FN_STATUS 0) 4 = true) ∧
    (sPageQuiet.live ∧ sPageQuiet.dev.flag (Reg.FN_STATUS 0) 0 = true ∧ sPageQuiet.dev.flag (Reg.FN_CTRL 0) 0 = false ∧
    sPageQuiet.dev.host.ops = [] ∧ sPageQuiet.dev.ring 0 = none) := by
  refine ⟨?_, ?_, ?_, ?_⟩ <;> decide +kernel

def sRing (g : Ring → Ring) : State := st fun d => d.putRing 64 (g (ringOf 0 1))

def sRecord (pi ep : Nat) : State := st fun d => d.hostWrite 0x20000 (leBytes 4 pi ++ leBytes 2 ep)

def sAsleepSeq : State := st fun d => (d.putRing 64 { ringOf 0 1 with sleepSeq := true }).hostWrite 0x20004 [1, 0]

def sCqFull : State := st fun d => ({ d with host := { d.host with cqs := [(1, { cqOf with written := 64 })] } }).hostWrite 0x40000 (leBytes 4 64)

/-- States that meet the hypotheses of RingRecords. -/
theorem witness_RingRecords :
    ((sRecord 0 1).live ∧ (sRecord 0 1).dev.ring 64 = some (ringOf 0 1) ∧ (sRecord 0 1).dev.hostNum (0x20000 + 4) 2 ≠ 0) ∧
    ((sRecord 65 0).dev.ring 64 = some (ringOf 0 1) ∧ (sRecord 65 0).dev.hostNum (0x20000 + 4) 2 = 0 ∧
    2 ^ 6 < ((sRecord 65 0).dev.hostNum 0x20000 4 + 2 ^ 32 - 0) % 2 ^ 32) ∧
    ((sRing id).dev.ring 64 = some (ringOf 0 1) ∧ (ringOf 0 1).asleep = false ∧ (ringOf 0 1).sleepSeq = false ∧
    (ringOf 0 1).stopped = false ∧ (ringOf 0 1).closing = false) ∧
    ((sRing fun x => { x with sleepSeq := true }).dev.ring 64 = some { ringOf 0 1 with sleepSeq := true } ∧
    (sRing fun x => { x with sleepSeq := true }).dev.hostNum (0x20000 + 4) 2 = 0 ∧
    (sRing fun x => { x with sleepSeq := true }).dev.hostNum 0x20000 4 = 0) ∧
    (sAsleepSeq.live ∧ sAsleepSeq.dev.ring 64 = some { ringOf 0 1 with sleepSeq := true } ∧
    sAsleepSeq.dev.hostNum (0x20000 + 4) 2 ≠ 0) ∧
    ((sRing fun x => { x with asleep := true }).dev.ring 64 = some { ringOf 0 1 with asleep := true } ∧ bits 64 11 0 = 64 ∧
    bits 64 31 16 = 0) ∧
    (sCqFull.live ∧ sCqFull.dev.cq 1 = some { cqOf with written := 64 } ∧ { cqOf with written := 64 }.full = true ∧
    sCqFull.dev.hostNum cqOf.head 4 = 64) := by
  refine ⟨?_, ?_, ?_, ?_, ?_, ?_, ?_⟩ <;> decide +kernel

def sPiOne : State := st fun d => d.hostWrite 0x20000 [1, 0, 0, 0, 0, 0]

def sPiOneFull : State := st fun d => { d with host := { d.host with cqs := [(1, { cqOf with written := 64 })] } }

/-- States that meet the hypotheses of RingPolls. -/
theorem witness_RingPolls :
    (sPiOne.live ∧ sPiOne.dev.ring 64 = some (ringOf 0 1) ∧ (ringOf 0 1).asleep = false ∧ (ringOf 0 1).stopped = false ∧
    (ringOf 0 1).closing = false ∧ (ringOf 0 1).type ≠ 3 ∧ sPiOne.dev.hostNum (0x20000 + 4) 2 = 0 ∧
    ¬ 2 ^ 6 < (sPiOne.dev.hostNum 0x20000 4 + 2 ^ 32 - 0) % 2 ^ 32 ∧ (sPiOne.dev.cq 1).any Cq.full = false) ∧
    (sPiOneFull.live ∧ sPiOneFull.dev.ring 64 = some (ringOf 0 1) ∧ sPiOneFull.dev.hostNum (0x20000 + 4) 2 = 0 ∧
    ¬ 2 ^ 6 < (sPiOneFull.dev.hostNum 0x20000 4 + 2 ^ 32 - 0) % 2 ^ 32 ∧ (sPiOneFull.dev.cq 1).any Cq.full = true) ∧
    ((sPiOne.dev.cq 1).any Cq.full = false ∧ (sPiOne.dev.hostNum 0x20000 4 + 2 ^ 32 - (ringOf 0 1).ci) % 2 ^ 32 = 1 ∧
    sPiOne.dev.fenced 64 (ringOf 0 1) = false ∧ flagChain (sPiOne.dev.slotDesc (ringOf 0 1) 0) = false) := by
  refine ⟨?_, ?_, ?_⟩ <;> decide +kernel

def oNop : RingOp := onRing 64 0 []

def nopKey (p : Op) : Nat := if flagBarrier p.desc || decide (2 ≤ (st id).dev.ringType p.ring) then keyRing p.ring else keyFree p.id

/-- States that meet the hypotheses of NopCompletion. -/
theorem witness_NopCompletion :
    ((st id).live ∧ (st id).dev.host.ops = [] ∧ (st id).dev.takes oNop nopKey (opOf (st id) oNop nopKey) ∧
    opcodeOf oNop.desc = 0 ∧ flagForceKey oNop.desc = false ∧ noLength oNop.desc = true ∧ zeroAt oNop.desc 8 56 = true ∧
    ((st id).dev.start oNop nopKey).1.ring 64 = some { ringOf 0 1 with ci := 1, lastPi := 1 } ∧
    ((st id).dev.start oNop nopKey).1.cq 1 = some cqOf ∧ cqOf.full = false ∧ cqOf.src = 0xFFFF) := by
  decide +kernel

def oNegotiate : RingOp := onRing 0 0x10 [(8, 1), (9, 1)]

def sOwner : State := st (withFn 0 fun x => { x with rings := ⟨64, 64⟩, cqs := ⟨64, 64⟩ })

def oCreateCq : RingOp := onRing 0 0x11 [(8, 70), (10, 6), (12, 0xFFFF), (16, 0x50000), (24, 0x60000)]

def oCreateRing : RingOp := onRing 0 0x12 [(8, 70), (10, 0), (11, 6), (12, 1), (16, 0x50000), (24, 0x60000), (34, 1), (36, 10)]

/-- States that meet the hypotheses of NegotiateAndCreate. -/
theorem witness_NegotiateAndCreate :
    ((st id).live ∧ admin (st id) oNegotiate (fun x => noLength x && zeroAt x 10 54) levelTwo ∧
    ((st id).dev.fn 0).negotiated = false ∧ negotiated (Desc.byte oNegotiate.desc 8) (Desc.byte oNegotiate.desc 9) = some 1) ∧
    (admin sOwner oCreateCq
      (fun x => noLength x && Desc.field x 8 15 11 == 0 && zeroAt x 11 1 && zeroAt x 14 2 && zeroAt x 32 32) levelTwo ∧
    (sOwner.dev.start oCreateCq adminKey).1.cqStatus (opOf sOwner oCreateCq adminKey) = 0) ∧
    (admin sOwner oCreateRing (fun x => noLength x && Desc.field x 8 15 12 == 0 && zeroAt x 40 24) levelTwo ∧
    (sOwner.dev.start oCreateRing adminKey).1.ringStatus (opOf sOwner oCreateRing adminKey) = 0) := by
  refine ⟨?_, ?_, ?_⟩ <;> decide +kernel

def sSpareCq : State := st fun d => { d with host := { d.host with cqs := [(0, cqOf), (1, cqOf), (64, cqOf)] } }

def sDestroying : State := { dev := ((st id).dev.start (onRing 0 0x13 [(8, 70)]) adminKey).1, pending := [] }

/-- States that meet the hypotheses of DestroyRingsAndQueues. -/
theorem witness_DestroyRingsAndQueues :
    ((st id).live ∧ admin (st id) (onRing 0 0x13 [(8, 64)]) Claims.fmtTwelve levelTwo ∧
    ((st id).dev.start (onRing 0 0x13 [(8, 64)]) adminKey).1.ring 64 = some (ringOf 0 1) ∧
    (opOf (st id) (onRing 0 0x13 [(8, 64)]) adminKey).level ≤ 1) ∧
    ((sDestroying.dev.waiting fun p => opcodeOf p.desc == 0x13 && sDestroying.dev.ringType p.ring == 3 &&
      Desc.field p.desc 8 11 0 == 70) = some (opOf (st id) (onRing 0 0x13 [(8, 70)]) adminKey) ∧
    (∀ p ∈ sDestroying.dev.host.ops, p.ring ≠ 70) ∧ sDestroying.dev.ring 70 = none) ∧
    (admin sSpareCq (onRing 0 0x14 [(8, 64)]) (fun x => noLength x && Desc.field x 8 15 11 == 0 && zeroAt x 10 54) levelTwo ∧
    (sSpareCq.dev.start (onRing 0 0x14 [(8, 64)]) adminKey).1.cq 64 = some cqOf ∧
    (∀ e ∈ (sSpareCq.dev.start (onRing 0 0x14 [(8, 64)]) adminKey).1.host.rings, e.2.cq ≠ 64)) := by
  refine ⟨?_, ?_, ?_⟩ <;> decide +kernel

def oProtect : RingOp := onRing 0 0x18 [(8, 0), (9, 0)]

def sWaiting (o : RingOp) : State := { dev := ((st id).dev.start o adminKey).1, pending := [] }

/-- States that meet the hypotheses of ProtectionAndDrains. -/
theorem witness_ProtectionAndDrains :
    (admin (st id) oProtect protFormat levelOne ∧ (opOf (st id) oProtect adminKey).tail = [] ∧
    ((st id).dev.start oProtect adminKey).1.itemStatus (protItem oProtect.desc) = 0) ∧
    (admin (st id) (onRing 0 0x19 []) (fun x => noLength x && zeroAt x 12 52) levelTwo) ∧
    (((sWaiting (onRing 0 0x19 [])).dev.waiting fun p => p.ring == 0 && opcodeOf p.desc == 0x19) =
      some (opOf (st id) (onRing 0 0x19 []) adminKey) ∧
    (sWaiting (onRing 0 0x19 [])).dev.drainBusy (opOf (st id) (onRing 0 0x19 []) adminKey).id 0 = false) ∧
    (admin (st id) (onRing 0 0x1A []) (fun x => noLength x && zeroAt x 8 56) levelTwo) ∧
    (((sWaiting (onRing 0 0x1A [])).dev.waiting fun p => p.ring == 0 && opcodeOf p.desc == 0x1A) =
      some (opOf (st id) (onRing 0 0x1A []) adminKey)) := by
  refine ⟨?_, ?_, ?_, ?_, ?_⟩ <;> decide +kernel

def sNoEnable : State := st fun d => d.setFlag (Reg.BLK_STATE 2) 2 false

/-- States that meet the hypotheses of RegisterWrites. -/
theorem witness_RegisterWrites :
    ((st id).live ∧ (st id).dev.mayWrite .pf ∧ (Reg.FC_FORCE_INFO_LO + 0x3FC00) / 0x100000 < 50 ∧
    regRow 0x43FFFC = none) ∧
    (sNoEnable.live ∧ sNoEnable.dev.mayWrite .firmware ∧ sNoEnable.dev.rwlOpen 2 = false ∧
    bits 0x100 15 8 ≠ sNoEnable.dev.fld Reg.TB_CTRL 15 8 ∧ bit 0x100 0 = sNoEnable.dev.flag Reg.TB_CTRL 0) ∧
    (0x3200000 % 4 = 0 ∧ 0x3200000 / 0x100000 = 50 ∧ 0x33FFFFC / 0x100000 = 51) ∧
    (¬ ((4 = 4 ∧ 0x1002 % 4 = 0) ∨ (4 = 8 ∧ 0x1002 % 8 = 0)) ∧ ¬ ((8 = 4 ∧ 0x1004 % 4 = 0) ∨ (8 = 8 ∧ 0x1004 % 8 = 0))) := by
  refine ⟨?_, ?_, ?_, ?_⟩ <;> decide +kernel

def parRow : RegRow × List Nat := (regRow 0x900000).get (by decide +kernel)

/-- States that meet the hypotheses of BlockEnables. -/
theorem witness_BlockEnables :
    ((st id).live ∧ (st id).dev.mayWrite .pf ∧ regRow (9 * 0x100000) = some parRow ∧
    (st id).dev.flag (9 * 0x100000) 0 = false ∧ fldsOk ((st id).dev.stores 9) (withBit 0 0) parRow.1.flds = true) ∧
    ((st fun d => d.setFlag 0x900000 0 true).dev.flag (9 * 0x100000) 0 = true ∧
    (st fun d => d.setFlag 0x900000 0 true).dev.flag (Reg.BLK_STATE 9) 0 = false ∧
    fldsOk ((st fun d => d.setFlag 0x900000 0 true).dev.stores 9) (withoutBit 1 0) parRow.1.flds = true) ∧
    (hasEnable 9 = true ∧ (st id).dev.enabled 9 = false ∧ (st id).dev.drained 9 = true) := by
  refine ⟨?_, ?_, ?_⟩ <;> decide +kernel

def sStaged (b : Bool) : State := st fun d => { d.setFlag (Reg.BLK_STATE 9) 0 b with staged := [(Reg.PAR_CTRL + 0x1000, 5)] }

/-- States that meet the hypotheses of LiveCommits. -/
theorem witness_LiveCommits :
    ((sStaged false).live ∧ (sStaged false).dev.mayWrite .pf ∧ (sStaged false).dev.staged = [(Reg.PAR_CTRL + 0x1000, 5)] ∧
    (Reg.PAR_CTRL + 0x1000) / 0x100000 = 9 ∧ Reg.PAR_CTRL + 0x1000 ≠ Reg.BLK_STATE 9 ∧ bit 1 1 = false ∧
    (sStaged false).dev.flag (Reg.BLK_STATE 9) 0 = false ∧ (sStaged false).dev.hasApplied 9 0 = false) ∧
    (liveWindow 9 = true ∧ bit 2 0 = false) ∧
    (liveUnits 9 = 1 ∧ (sStaged true).dev.flag (Reg.BLK_STATE 9) 0 = true ∧ (sStaged true).dev.hasApplied 9 0 = false) := by
  refine ⟨?_, ?_, ?_⟩ <;> decide +kernel

/-- States that meet the hypotheses of SequenceClears. -/
theorem witness_SequenceClears :
    ((st id).live ∧ (st id).dev.mayWrite .pf ∧ bits 0x00000001 31 24 = (st id).dev.fld Reg.TB_EVENTS 31 24 ∧
    bits 0x01000001 31 24 ≠ (st id).dev.fld (Reg.FC_STICKY 0) 31 24) := by
  decide +kernel

/-- States that meet the hypotheses of AliasWrites. -/
theorem witness_AliasWrites :
    ((st id).live ∧ (st id).dev.mayWrite .firmware ∧ (31 : Nat) < 32) := by
  decide +kernel

def sResetDue : State := st fun d => { d with mgmt := { d.mgmt with resetDue := some 7 } }

/-- States that meet the hypotheses of ResetEntry. -/
theorem witness_ResetEntry :
    (sResetDue.up ∧ sResetDue.dev.mgmt.resetDue = some 7) ∧
    ((st id).dev.pins.porN = true ∧ (st id).dev.pins.thermalHold = false) := by
  refine ⟨?_, ?_⟩ <;> decide +kernel

def sHeld (hot : Bool) : State := st fun d => { d with pins := { d.pins with inReset := true, thermalHold := hot } }

/-- States that meet the hypotheses of ResetRelease. -/
theorem witness_ResetRelease :
    ((sHeld false).dev.pins.inReset = true ∧ (sHeld false).dev.pins.thermalHold = false) ∧
    ((sHeld true).dev.pins.thermalHold = true ∧ (∀ x ∈ [(99 : Int), 20], x < 100) ∧ (sHeld true).dev.pins.porN = true ∧
    (sHeld true).dev.pins.sysResetN = true ∧ (sHeld true).dev.pins.perstN = true ∧
    (sHeld true).dev.pins.internal = false) := by
  refine ⟨?_, ?_⟩ <;> decide +kernel

def sBoot (n : Nat) : State := st fun d => { d.setFld Reg.MGMT_BOOT 2 0 n with host := { d.host with ready := false } }

def bootOf (c : Nat) : BootInfo := ⟨c, 0, 1, 0, [], 0, 0⟩

/-- States that meet the hypotheses of DeviceReady. -/
theorem witness_DeviceReady :
    ((sBoot 5).up ∧ (sBoot 5).dev.host.ready = false ∧ (sBoot 5).dev.bootState = 5 ∧ (sBoot 1).dev.bootState ≠ 5) ∧
    ((bootOf 4).cause = 4 ∧ (bootOf 5).cause = 5 ∧ (bootOf 1).cause = 1) ∧
    ((bootOf 0).cause = 0 ∧ (((sBoot 1).dev.advanceTo 0).startImage (bootOf 0)).startConfig.capFail = none ∧
    (((sBoot 1).dev.advanceTo 0).startImage (bootOf 0)).startConfig.badPool = none) := by
  refine ⟨?_, ?_, ?_⟩ <;> decide +kernel

def devMedia : Dev := ((List.range 6).foldl (fun e k => (e.setReg (Reg.BUN_POOL_BASE k) (poolDefault k).1).setReg
    (Reg.BUN_POOL_COUNT k) (poolDefault k).2) devOf).setReg Reg.BUN_CTRL 1

def media (f : Dev → Dev) : State := { dev := f devMedia, pending := [] }

def oContext (kind cls tile w : Nat) : RingOp := onRing 64 0x20 ([(8, 5), (10, kind), (11, cls), (12, 1), (13, 1), (14, 41), (16, w), (18, 64),
    (20, 30), (24, 1), (28, tile), (29, 1), (30, 8)] ++ (if kind = 1 then [(26, 0xFFFF)] else []) ++ (if kind = 0 then [(52, 0xFFFFFFFF)] else []))

def oEncode : RingOp := oContext 1 2 4 64

/-- States that meet the hypotheses of ContextCreation. -/
theorem witness_ContextCreation :
    ((media id).live) ∧
    ((media id).dev.takes oEncode ctxKey (opOf (media id) oEncode ctxKey)) ∧
    (((media id).dev.start oEncode ctxKey).1.contextStatus (opOf (media id) oEncode ctxKey) = 0) ∧
    (((media id).dev.start oEncode ctxKey).1.place (newCtx oEncode.desc) = .inl 0) ∧
    ((((media id).dev.start oEncode ctxKey).1.takeRefs (0x2000 + (newCtx oEncode.desc).ctx) (newCtx oEncode.desc).buffers []).2.isSome = true) := by
  refine ⟨?_, ?_, ?_, ?_, ?_⟩ <;> decide +kernel

def enc : Ctx := ((after (.createContext oEncode) (media id)).dev.ctx 5).get (by decide +kernel)

def mkCtx (k : Nat) : Ctx := { enc with kind := k }

def mEnc (f : Ctx → Ctx) (g : Dev → Dev) : State := media fun d => g (d.setCtx 5 (f { mkCtx 1 with tile := 0 }))

def oNum (op n : Nat) (l : List (Nat × Nat)) : RingOp := onRing 64 op ([(8, n)] ++ l)

def sEnc (f : Ctx → Ctx) : State := mEnc f id

def opCtx (s : State) (o : RingOp) : Op := opOf s o ctxKey

abbrev ctxOk (s : State) (o : RingOp) : Prop := s.live ∧ s.dev.takes o ctxKey (opCtx s o)

def atCtx (s : State) (o : RingOp) : Dev := (s.dev.start o ctxKey).1

/-- States that meet the hypotheses of ContextEnd. -/
theorem witness_ContextEnd :
    (ctxOk (sEnc id) (oNum 0x21 5 []) ∧ (atCtx (sEnc id) (oNum 0x21 5 [])).destroyContextStatus (opCtx (sEnc id) (oNum 0x21 5 [])) = 0 ∧
    ctxNum (opCtx (sEnc id) (oNum 0x21 5 [])).desc = 5 ∧ (atCtx (sEnc id) (oNum 0x21 5 [])).ctx 5 = some { mkCtx 1 with tile := 0 }) ∧
    ((sEnc fun x => { x with state := 4 }).dev.ctx 5 = some { mkCtx 1 with tile := 0, state := 4 } ∧
    ((sEnc fun x => { x with state := 4 }).dev.tile 0).active 5 = false ∧
    (∀ p ∈ (sEnc fun x => { x with state := 4 }).dev.host.ops, p.key = keyCtx 5 → opcodeOf p.desc = 0x21)) := by
  refine ⟨?_, ?_⟩ <;> decide +kernel

def oGroup : RingOp := oNum 0x22 3 [(10, 1), (11, 4), (14, 4), (20, 64), (22, 64), (24, 30), (28, 1)]

def opFree (s : State) (o : RingOp) : Op := opOf s o freeKey

def atFree (s : State) (o : RingOp) : Dev := (s.dev.start o freeKey).1

abbrev freeOk (s : State) (o : RingOp) (g : Nat) : Prop := s.live ∧ s.dev.takes o freeKey (opFree s o) ∧ Desc.field (opFree s o).desc 8 8 0 = g

def sGroup : State := after (.createGroup oGroup) (media id)

def grp : Group := ((sGroup.dev.group 3).get (by decide +kernel))

def sOrigin : State := { sGroup with dev := sGroup.dev.setGroup 3 { grp with origin := some 0 } }

/-- States that meet the hypotheses of GroupCommands. -/
theorem witness_GroupCommands :
    (freeOk (media id) oGroup 3 ∧ ((atFree (media id) oGroup).groupRun (opFree (media id) oGroup)).2.status = stOk) ∧
    (freeOk sGroup (oNum 0x23 3 []) 3 ∧ (atFree sGroup (oNum 0x23 3 [])).destroyGroupStatus (opFree sGroup (oNum 0x23 3 [])) = 0 ∧
    (atFree sGroup (oNum 0x23 3 [])).group 3 = some grp) ∧
    (freeOk sOrigin (oNum 0x24 3 []) 3 ∧ (atFree sOrigin (oNum 0x24 3 [])).keyNowStatus (opFree sOrigin (oNum 0x24 3 [])) = 0 ∧
    (atFree sOrigin (oNum 0x24 3 [])).group 3 = some { grp with origin := some 0 }) := by
  refine ⟨?_, ?_, ?_⟩ <;> decide +kernel

def oRate (q : Nat) : RingOp := oNum 0x26 5 [(14, q), (15, q), (16, q)]

def sRc : State := after (.setRateControl (oRate 40)) (sEnc id)

/-- States that meet the hypotheses of RateControl. -/
theorem witness_RateControl :
    (ctxOk (sEnc id) (oRate 40) ∧ (atCtx (sEnc id) (oRate 40)).rateStatus (opCtx (sEnc id) (oRate 40)) = 0 ∧
    (atCtx (sEnc id) (oRate 40)).ctx (ctxNum (opCtx (sEnc id) (oRate 40)).desc) = some { mkCtx 1 with tile := 0 }) ∧
    (ctxOk sRc (oRate 30) ∧ (atCtx sRc (oRate 30)).rateStatus (opCtx sRc (oRate 30)) = 0 ∧
    ((atCtx sRc (oRate 30)).ctx (ctxNum (opCtx sRc (oRate 30)).desc)).any fun y => y.rc.isSome) := by
  refine ⟨?_, ?_⟩ <;> decide +kernel

def pctBytes (l : List (Nat × Nat × Nat)) : List Byte :=
    (List.range 256).map fun k => BitVec.ofNat 8 (l.foldl (fun n e => n + e.2.2 * 2 ^ (8 * e.1)) 0 / 2 ^ (8 * k))

def header : List Byte := pctBytes [(0, 4, 0x48505844), (4, 2, 1), (8, 2, 64), (10, 2, 64), (12, 1, 8), (20, 4, 64), (24, 4, 64), (32, 8, 256),
    (40, 8, 4352)]

def sPic : State := mEnc (fun x => { x with state := 2 }) fun d => d.dataPut 0x10000 header

def sGrp : State := { sGroup with dev := (sGroup.dev.setGroup 3 { grp with origin := some 0 }).dataPut 0x10000 header }

def oPicture (n len : Nat) : RingOp := oNum 0x30 n [(2, len), (16, 0x10000)]

def opPic (s : State) (o : RingOp) : Op := opOf s o pictureKey

def atPic (s : State) (o : RingOp) : Dev := (s.dev.start o pictureKey).1

abbrev picOk (s : State) (o : RingOp) (x : Source) : Prop := s.live ∧ s.dev.takes o pictureKey (opPic s o) ∧
    (atPic s o).source (pictureRef (opPic s o).desc) = some x

/-- States that meet the hypotheses of SourcePictures. -/
theorem witness_SourcePictures :
    (picOk sPic (oPicture 5 1) (mkCtx 1).src ∧ lengthOf (opPic sPic (oPicture 5 1)).desc = 1 ∧ (atPic sPic (oPicture 5 1)).pictureRefusal (opPic sPic (oPicture 5 1)) = 0) ∧
    (picOk sGrp (oPicture 0x8003 1) grp.src ∧ lengthOf (opPic sGrp (oPicture 0x8003 1)).desc = 1 ∧
    (atPic sGrp (oPicture 0x8003 1)).pictureRefusal (opPic sGrp (oPicture 0x8003 1)) = 0 ∧
    pictureRef (opPic sGrp (oPicture 0x8003 1)).desc = .group (ctxNum (opPic sGrp (oPicture 0x8003 1)).desc)) ∧
    (picOk sPic (oPicture 5 0) (mkCtx 1).src ∧ lengthOf (opPic sPic (oPicture 5 0)).desc = 0 ∧ (atPic sPic (oPicture 5 0)).pictureGate (opPic sPic (oPicture 5 0)) = 0 ∧
    flagForceKey (opPic sPic (oPicture 5 0)).desc = false) := by
  refine ⟨?_, ?_, ?_⟩ <;> decide +kernel

def sDec (f : Ctx → Ctx) : State := media fun d => d.setCtx 5 (f { mkCtx 0 with tile := 0, state := 2, ingest := 0xFFFFFFFF })

def oBits (len eos : Nat) : RingOp := oNum 0x31 5 [(10, eos), (12, len), (16, 0x10000)]

def withPart (x : Ctx) : Ctx := { x with dec := { x.dec with parts := [⟨9, 0x10000, 16, 0, 0, 0, 0, false⟩] } }

abbrev bitsOk (s : State) (o : RingOp) : Prop := ctxOk s o ∧ (atCtx s o).bitstreamStatus (opCtx s o) = 0 ∧
    ((atCtx s o).ctx (ctxNum (opCtx s o).desc)).isSome

/-- States that meet the hypotheses of BitstreamInput. -/
theorem witness_BitstreamInput :
    (bitsOk (sDec id) (oBits 16 0) ∧ Desc.le (opCtx (sDec id) (oBits 16 0)).desc 12 4 ≠ 0) ∧
    (bitsOk (sDec id) (oBits 0 0) ∧ Desc.le (opCtx (sDec id) (oBits 0 0)).desc 12 4 = 0 ∧ Desc.field (opCtx (sDec id) (oBits 0 0)).desc 10 0 0 = 0) ∧
    (bitsOk (sDec withPart) (oBits 0 1) ∧ Desc.le (opCtx (sDec withPart) (oBits 0 1)).desc 12 4 = 0 ∧ Desc.field (opCtx (sDec withPart) (oBits 0 1)).desc 10 0 0 = 1 ∧
    ((atCtx (sDec withPart) (oBits 0 1)).ctx 5).any fun x => decide (x.dec.parts ≠ [])) := by
  refine ⟨?_, ?_, ?_⟩ <;> decide +kernel

def auOf (n : Nat) : AccUnit := ⟨List.replicate n 0, 0, 0, 1, 0, 0, false, 0, true, 0, false, none, false, false, none, 0, false⟩

def sOut (l : List AccUnit) : State := mEnc (fun x => { x with state := 2, out := l }) id

def oGetAu : RingOp := oNum 0x32 5 [(12, 8), (16, 0x10000)]

abbrev outOk (l : List AccUnit) : Prop := ctxOk (sOut l) oGetAu ∧ (atCtx (sOut l) oGetAu).getAuStatus (opCtx (sOut l) oGetAu) = 0 ∧
    (atCtx (sOut l) oGetAu).ctx (ctxNum (opCtx (sOut l) oGetAu).desc) = some { mkCtx 1 with tile := 0, state := 2, out := l } ∧
    (atCtx (sOut l) oGetAu).auSidecars (ctxNum (opCtx (sOut l) oGetAu).desc) { mkCtx 1 with tile := 0, state := 2, out := l } = some false

/-- States that meet the hypotheses of AccessUnitOutput. -/
theorem witness_AccessUnitOutput :
    (outOk []) ∧
    (outOk [auOf 8] ∧ (mkCtx 1).getAus = [] ∧ (auOf 8).data.length ≤ Desc.le (opCtx (sOut [auOf 8]) oGetAu).desc 12 4) ∧
    (outOk [auOf 9] ∧ Desc.le (opCtx (sOut [auOf 9]) oGetAu).desc 12 4 < (auOf 9).data.length) := by
  refine ⟨?_, ?_, ?_⟩ <;> decide +kernel

def grpSide : Group := { grp with source := 0, srcCtx := some 6, useSide := true, segOnDt := true, segMs := 1000, cls := 1, members := [5] }

def sProd : State := media fun d => ((d.setCtx 5 { mkCtx 1 with tile := 0, state := 2, cls := 1, group := some 3 }).setCtx 6
    { mkCtx 0 with tile := 0, state := 2, cls := 1 }).setGroup 3 grpSide

def oProduce (len bytes : Nat) : RingOp := oNum 0x38 5 [(2, len), (10, 1), (12, bytes), (16, 0x10000)]

abbrev prodOk (o : RingOp) : Prop := ctxOk sProd o ∧ (atCtx sProd o).produceStatus (opCtx sProd o) = 0 ∧
    (atCtx sProd o).ctx (ctxNum (opCtx sProd o).desc) = sProd.dev.ctx 5 ∧ (sProd.dev.ctx 5).bind Ctx.group = some 3 ∧
    (atCtx sProd o).group 3 = some grpSide ∧ grpSide.produces = [] ∧ grpSide.decodes = []

/-- States that meet the hypotheses of ProduceCommand. -/
theorem witness_ProduceCommand :
    (prodOk (oProduce 4 100) ∧ lengthOf (opCtx sProd (oProduce 4 100)).desc ≠ 0 ∧ Desc.le (opCtx sProd (oProduce 4 100)).desc 12 4 ≠ 0 ∧
    (atCtx sProd (oProduce 4 100)).produceSide (opCtx sProd (oProduce 4 100)).desc grpSide = .inl []) ∧
    (prodOk (oProduce 0 0) ∧ lengthOf (opCtx sProd (oProduce 0 0)).desc = 0) := by
  refine ⟨?_, ?_⟩ <;> decide +kernel

def picOf : SrcPic := newPic 0 0 0x10000 header (formatOf header) false none 0

def sAna : State := media fun d => d.setCtx 5 { mkCtx 2 with tile := 0, state := 2, src := { (mkCtx 2).src with pics := [picOf] } }

def sAnaG : State := { sGroup with dev := sGroup.dev.setGroup 3 { grp with src := { grp.src with pics := [picOf] } } }

/-- States that meet the hypotheses of PictureAnalysis. -/
theorem witness_PictureAnalysis :
    (sAna.live ∧ sAna.dev.ctx 5 = some { mkCtx 2 with tile := 0, state := 2, src := { (mkCtx 2).src with pics := [picOf] } } ∧
    (sAna.dev.tile 0).stopped = false ∧ picOf.analysis = none ∧ picOf.given = false ∧ picOf.final = false) ∧
    (sAnaG.live ∧ sAnaG.dev.group 3 = some { grp with src := { grp.src with pics := [picOf] } } ∧ grp.failed = false ∧
    grp.useSide = false ∧ grp.src.ended = false ∧ 1 ≤ grp.lookahead ∧ (sAnaG.dev.tile grp.tile).stopped = false) := by
  refine ⟨?_, ?_⟩ <;> decide +kernel

def givenPic : SrcPic := { picOf with given := true, waiting := [5] }

def sRung : State := { sGroup with dev := (sGroup.dev.setGroup 3 { grp with src := { grp.src with pics := [givenPic] } }).setCtx 5 { mkCtx 1 with tile := 0, state := 2, group := some 3 } }

/-- States that meet the hypotheses of RungScale. -/
theorem witness_RungScale :
    (sRung.live ∧ (sRung.dev.ctx 5).bind Ctx.group = some 3 ∧ sRung.dev.group 3 = some { grp with src := { grp.src with pics := [givenPic] } } ∧
    grp.produces = [] ∧ (sRung.dev.tile grp.tile).stopped = false ∧ (sRung.dev.toneCurve grp.tile 5 (mkCtx 1)).2.2 = false ∧
    ([givenPic].filter fun q => q.given && q.waiting.contains 5 && (SMap.find sRung.dev.media.rungs (4096 * q.n + 5)).isNone).head? =
      some givenPic ∧ givenPic.n = 0) := by
  decide +kernel

def jobOf (kind : Nat) (run : Bool) (g : List Region) : Job :=
    { ctx := 5, n := kind, ptype := 0, key := true, segStart := false, segIndex := 0, cut := false, fade := false,
      hasL0 := false, hasL1 := false, list0 := [], list1 := [], poisonRef := false, pts := 0, deadline := none, produce := none, last := false, gForecast := 0,
      entries := [], regions := g, seams := [], running := run, bPre := 0, budget := 0, hrd := 0, q0 := 0, gain := 0,
      step := 0 }

def onTile (f : Ctx → Ctx) (l : List Job) (g : Dev → Dev) : State :=
    media fun d => g ((d.setCtx 5 (f { mkCtx 0 with tile := 0, state := 2, regions := 1 })).setTile 0 { d.tile 0 with jobs := l, cache := [5] })

def sReady : State := onTile id [jobOf 0 false []] fun d => d.setFlag (Reg.TILE_CTRL 0) 0 true

def pairTest : Nat → List Nat → Bool := fun k l => l.head? == some k

/-- States that meet the hypotheses of PictureDispatch. -/
theorem witness_PictureDispatch :
    ((st fun d => d.setFlag (Reg.TILE_CTRL 0) 0 false).live ∧ (st fun d => d.setFlag (Reg.TILE_CTRL 0) 0 false).dev.flag (Reg.TILE_CTRL 0) 0 = false) ∧
    (sReady.live ∧ sReady.dev.flag (Reg.TILE_CTRL 0) 0 = true ∧ (sReady.dev.tile 0).stopped = false ∧
    (∀ i ∈ (sReady.dev.tile 0).jobs, i.ctx = 5) ∧ ((sReady.dev.ctx 5).any fun y => !y.outputFull) = true ∧
    pairTest 0 (sReady.dev.idlePairs 0) = true ∧ sReady.dev.pick 0 = some (jobOf 0 false []) ∧
    jobOf 0 false [] ∈ (sReady.dev.tile 0).jobs ∧ ((sReady.dev.tile 0).cache.contains 5 = true ∨ sReady.dev.stateLost 0 = false) ∧
    ((sReady.dev.ctx 5).any fun y => y.kind != 1 && !sReady.dev.ctxLost y) = true ∧ sReady.dev.segmentOf 5 = none) := by
  refine ⟨?_, ?_⟩ <;> decide +kernel

def regionOf (ended : Bool) : Region := { decodeRegion 0 with pair := some 0, ended := ended }

def sRow (state kind : Nat) : State :=
    onTile (fun x => { x with state := state, kind := kind }) [jobOf 0 true [regionOf false]]
      fun d => d.setPair 0 { d.pair 0 with pxe := { (d.pair 0).pxe with row := 1 } }

def rowOf (fault : Nat) : RowDone := ⟨5, 0, 100, [3, 3], fault, 0⟩

abbrev rowOk (s : State) (fault : Nat) : Prop := s.live ∧ (s.dev.ctx (rowOf fault).ctx).map Ctx.tile = some 0 ∧
    (((s.dev.tile 0).jobs.find? fun y => y.ctx == 5 && y.running) = some (jobOf 0 true [regionOf false])) ∧
    ((jobOf 0 true [regionOf false]).regions.find? fun y => y.idx == (rowOf fault).region) = some (regionOf false) ∧
    (regionOf false).pair = some 0 ∧ (regionOf false).ended = false

/-- States that meet the hypotheses of RowCompletion. -/
theorem witness_RowCompletion :
    (rowOk (sRow 2 0) 0 ∧ ((sRow 2 0).dev.ctx 5).map Ctx.state = some 2 ∧ (regionOf false).ests.length < ((sRow 2 0).dev.pair 0).pxe.row) ∧
    (rowOk (sRow 2 0) 5 ∧ ((sRow 2 0).dev.ctx 5).map Ctx.state = some 2 ∧ (rowOf 5).fault ∈ [1, 2, 5, 8]) ∧
    (rowOk (sRow 2 1) 4 ∧ ((sRow 2 1).dev.ctx 5).map Ctx.state = some 2 ∧ ((sRow 2 1).dev.ctx 5).map Ctx.kind = some 1 ∧ (rowOf 4).fault = 4) ∧
    (rowOk (sRow 2 0) 4 ∧ ((sRow 2 0).dev.ctx 5).map Ctx.kind = some 0 ∧ (rowOf 4).fault = 4) ∧
    (rowOk (sRow 4 0) 0 ∧ ((sRow 4 0).dev.ctx 5).map Ctx.state = some 4 ∧ (regionOf false).ests.length < ((sRow 4 0).dev.pair 0).pxe.row) := by
  refine ⟨?_, ?_, ?_, ?_, ?_⟩ <;> decide +kernel

def sPair (f : Pair → Pair) (x : Ctx → Ctx) : State := onTile x [jobOf 0 true [regionOf false]] fun d => d.setPair 0 (f { d.pair 0 with ctx := some 5 })

def sOver : State := sPair (fun y => { y with preempt := true, sxe := { y.sxe with parked := true } }) id

/-- States that meet the hypotheses of PairHandover. -/
theorem witness_PairHandover :
    (sOver.live ∧ (sOver.dev.pair (16 * 0 + 0)).ctx = some 5 ∧ (sOver.dev.pair 0).preempt = true ∧ (sOver.dev.pair 0).cb.recs = [] ∧
    (sOver.dev.pair 0).sxe.parked = true ∧ sOver.dev.stateLost 0 = false) := by
  decide +kernel

def doneOf : PicDone := ⟨5, none, .idr, true, 0, 0, 0, [], 0, [], 0, [], [], [], 0⟩

def jobPair (a b : Bool) : Job := jobOf 0 true [regionOf a, { regionOf b with idx := 1 }]

def jobDone : Job := { jobPair true true with key := false }

def sDone (state : Nat) (j : Job) : State := onTile (fun x => { x with state := state, kind := 1, codec := 1, rc := (sRc.dev.ctx 5).bind Ctx.rc, output := 0 }) [j] id

abbrev doneOk (s : State) (j : Job) : Prop := s.live ∧ (s.dev.ctx 5).map Ctx.tile = some 0 ∧
    ((s.dev.tile 0).jobs.find? fun y => y.ctx == 5 && y.running) = some j

/-- States that meet the hypotheses of PictureCompletion. -/
theorem witness_PictureCompletion :
    (doneOk (sDone 2 jobDone) jobDone ∧ ∀ i ∈ [0, 0 + 1], (jobDone.regions.find? fun g => g.idx == i).map Region.ended = some true) ∧
    (doneOk (sDone 2 (jobPair false false)) (jobPair false false) ∧ ((sDone 2 (jobPair false false)).dev.ctx 5).map Ctx.codec ≠ some 0 ∧
    ((jobPair false false).regions.find? fun g => g.idx == 0) = some (regionOf false) ∧
    ((jobPair false false).regions.find? fun g => g.idx == 0 + 1) = some { regionOf false with idx := 1 } ∧ (regionOf false).ended = false) ∧
    (doneOk (sDone 4 jobDone) jobDone ∧ doneOf.ctx = 5 ∧ jobDone.seams = [] ∧ (∀ g ∈ jobDone.regions, g.ended = true) ∧
    ((sDone 4 jobDone).dev.ctx 5).map Ctx.state = some 4) ∧
    (doneOk (sDone 2 jobDone) jobDone ∧ doneOf.ctx = 5 ∧ jobDone.seams = [] ∧ (∀ g ∈ jobDone.regions, g.ended = true) ∧
    ((sDone 2 jobDone).dev.ctx 5).any (fun x => x.state == 2 && x.kind == 1 && x.group.isNone && x.codec != 2 && x.output == 0 &&
      x.getAus.isEmpty && x.rc.any fun rc => decide (((8 * (x.unitBytes rc jobDone).length : Nat) : Int) ≤ jobDone.hrd)) = true) := by
  refine ⟨?_, ?_, ?_, ?_⟩ <;> decide +kernel

/-- States that meet the hypotheses of ClockPoint. -/
theorem witness_ClockPoint :
    ((st id).live ∧ (0 < 4 ∧ 1 < 3) ∧ ((st id).dev.tile 0).point ≠ 1) := by
  decide +kernel

def recOf (op n : Nat) : RecIn := ⟨0, 0, BitVec.ofNat 32 (op * 2 ^ 24 + n) :: List.replicate (n - 1) 0, (0, 0)⟩

def sEncPair : State :=
    onTile (fun x => { x with kind := 1, codec := 1, rc := (sRc.dev.ctx 5).bind Ctx.rc }) [jobOf 0 true [regionOf false]]
      fun d => d.setPair 0 { d.pair 0 with ctx := some 5 }

abbrev pubOk (s : State) (i : Instr) (r : RecIn) (n : Nat) : Prop := s.live ∧ (i, n, [0, 1, 2, 3]) ∈ Claims.records r ∧
    (s.dev.tile 0).stopped = false ∧ (s.dev.pair (16 * 0 + 0)).ctx = some 5 ∧
    (s.dev.ctx 5).any (fun x => x.kind == 1 && [0, 1, 2, 3].contains x.codec) = true ∧
    recOp (r.words.map BitVec.toNat) = n ∧ recWords (r.words.map BitVec.toNat) = r.words.length ∧ r.words ≠ [] ∧
    (s.dev.pair 0).preempt = false ∧ (s.dev.pair 0).cb.fits [r.words.map BitVec.toNat] = true

/-- States that meet the hypotheses of RecordsPublished. -/
theorem witness_RecordsPublished :
    (pubOk sEncPair (.pad (recOf 0 1)) (recOf 0 1) 0 ∧
    (match recOrder 1 (sEncPair.dev.pair 0).cb.pos (sEncPair.dev.pair 0).cb.recs with
      | some q => (recOrder 1 q [[1]]).isSome && (sEncPair.dev.ctx 5).any fun x => x.codec == 1 && x.rc.any fun rc =>
          sEncPair.dev.pxeMay x rc (jobOf 0 true [regionOf false]) (regionOf false) (sEncPair.dev.pair 0).pxe q.stage [1]
      | none => false) = true ∧
    ((sEncPair.dev.tile 0).jobs.find? fun z => z.ctx == 5 && z.running) = some (jobOf 0 true [regionOf false]) ∧
    ((jobOf 0 true [regionOf false]).regions.find? fun z => z.idx == (sEncPair.dev.pair 0).region) = some (regionOf false)) ∧
    (pubOk sEncPair (.rowEnd (recOf 9 2)) (recOf 9 2) 9 ∧
    recOrder 1 (sEncPair.dev.pair 0).cb.pos ((sEncPair.dev.pair 0).cb.recs ++ [(recOf 9 2).words.map BitVec.toNat]) = none) := by
  refine ⟨?_, ?_⟩ <;> decide +kernel

def sDecPair (w : List Nat) (f : Pair → Pair) : State := sPair (fun y => f { y with cb := { y.cb with recs := [w] } }) id

abbrev conOk (s : State) (i : Instr) (r : RecIn) (n : Nat) (w : List Nat) : Prop := s.live ∧ (i, n, [0, 1, 2, 3]) ∈ Claims.records r ∧
    (s.dev.tile 0).stopped = false ∧ (s.dev.pair (16 * 0 + 0)).ctx = some 5 ∧
    (s.dev.ctx 5).any (fun x => x.kind == 0 && x.codec == 1 && x.state == 2) = true ∧
    (s.dev.pair 0).cb.recs = w :: [] ∧ recOp w = n

def afterRows : RecPos := { (sEncPair.dev.pair 0).cb.pos with stage := 1 }

/-- States that meet the hypotheses of RecordsConsumed. -/
theorem witness_RecordsConsumed :
    (conOk (sDecPair [1] id) (.pad (recOf 0 1)) (recOf 0 1) 0 [1] ∧
    (recOrder 1 ((sDecPair [1] id).dev.pair 0).cb.pos [[1]]).isSome = true ∧ ((sDecPair [1] id).dev.pair 0).sxe.com.budgetOut = false) ∧
    (conOk (sDecPair [0x0A000002, 0] fun y => { y with cb := { y.cb with pos := afterRows } }) (.picEnd (recOf 10 2)) (recOf 10 2) 10 [0x0A000002, 0] ∧
    (recOrder 1 afterRows [[0x0A000002, 0]]).isSome = true ∧
    (((sDecPair [0x0A000002, 0] fun y => { y with cb := { y.cb with pos := afterRows } }).dev.tile 0).jobs.find? fun z => z.ctx == 5 && z.running) =
      some (jobOf 0 true [regionOf false])) ∧
    (conOk (sDecPair [0x09000002, 0] id) (.rowEnd (recOf 9 2)) (recOf 9 2) 9 [0x09000002, 0] ∧
    recOrder 1 ((sDecPair [0x09000002, 0] id).dev.pair 0).cb.pos [[0x09000002, 0]] = none) := by
  refine ⟨?_, ?_, ?_⟩ <;> decide +kernel

def microOf (kind : Nat) (w : BitVec 144) : State :=
    let s := sPair (fun y => { y with sxe := { y.sxe with running := true, parked := false, pc := 0x2000 } }) fun x => { x with kind := kind }
    { s with dev := { s.dev with media := { s.dev.media with patch := some ⟨1, [w], [], []⟩ } } }

def commitBit : BitVec 144 := BitVec.ofNat 144 (2 ^ 61)

abbrev microOk (kind : Nat) (w : BitVec 144) : Prop := (microOf kind w).live ∧ ((microOf kind w).dev.tile 0).stopped = false ∧
    ((microOf kind w).dev.pair (16 * 0 + 0)).ctx = some 5 ∧ ((microOf kind w).dev.ctx 5).map Ctx.kind = some kind ∧
    ((microOf kind w).dev.pair 0).sxe.parked = false ∧ ((microOf kind w).dev.pair 0).sxe.running = true ∧
    ((microOf kind w).dev.pair 0).sxe.committed = false ∧
    ((microOf kind w).dev.pair 0).sxe.issued < (microOf kind w).dev.watchdogLimit 0 ∧
    fetchWord ((microOf kind w).dev.patchOf 0) ((microOf kind w).dev.pair 0).sxe.pc = w ∧ ((microOf kind w).dev.pair 0).sxe.used = 0 ∧
    ((microOf kind w).dev.ctx 5).any (fun x => !(microOf kind w).dev.budgetSpent 0 5 x &&
      match ({ ((microOf kind w).dev.pair 0).sxe with used := 1 } : Sxe).micro ((microOf kind w).dev.microEnv 0 5 x)
          ((microOf kind w).dev.patchOf 0) w with
      | .ok m => m.next.isSome && !m.sxe.com.budgetOut
      | _ => false) = true

/-- States that meet the hypotheses of Microwords. -/
theorem witness_Microwords :
    (microOk 0 0 ∧ mCommit 0 = false) ∧
    (microOk 1 commitBit ∧ mCommit commitBit = true) ∧
    (microOk 0 commitBit ∧ mCommit commitBit = true) ∧
    (microOk 0 0 ∧ ((microOf 0 0).dev.pair 0).sxe.faults < 3) := by
  refine ⟨?_, ?_, ?_, ?_⟩ <;> decide +kernel

def sRun (f : Sxe → Sxe) : State := sPair (fun y => { y with sxe := f { y.sxe with running := true } }) id

/-- States that meet the hypotheses of RoutineRestarts. -/
theorem witness_RoutineRestarts :
    ((sRun id).live ∧ ((sRun id).dev.pair (16 * 0 + 0)).ctx = some 5 ∧ ((sRun id).dev.pair 0).sxe.running = true ∧ ((sRun id).dev.pair 0).sxe.committed = false) ∧
    (((sRun fun x => { x with committed := true }).dev.pair 0).sxe.committed = true) ∧
    (((sRun fun x => { x with issued := 2 ^ 40 }).dev.pair 0).sxe.running = true ∧ ((sRun fun x => { x with issued := 2 ^ 40 }).dev.pair 0).sxe.committed = false ∧
    (sRun fun x => { x with issued := 2 ^ 40 }).dev.watchdogLimit 0 ≤ ((sRun fun x => { x with issued := 2 ^ 40 }).dev.pair 0).sxe.issued ∧
    ((sRun fun x => { x with issued := 2 ^ 40 }).dev.pair 0).sxe.faults < 3) := by
  refine ⟨?_, ?_, ?_⟩ <;> decide +kernel

def sSpent (run : Bool) : State := sPair (fun y => { y with sxe := { y.sxe with running := run, ppx := 1, used := 2 ^ 60 } }) id

def sOpen : State := onTile (fun x => { x with dec := { x.dec with openAt := some 7 } }) [jobOf 0 true [regionOf false]] id

abbrev spentOk (run : Bool) : Prop := (sSpent run).live ∧
    (((sSpent run).dev.tile 0).jobs.find? fun y => y.ctx == 5 && y.running) = some (jobOf 0 true [regionOf false]) ∧
    ((jobOf 0 true [regionOf false]).regions.find? fun y => y.idx == 0) = some (regionOf false) ∧ (regionOf false).pair = some 0 ∧
    ((sSpent run).dev.ctx 5).any (fun x => x.tile == 0 && (sSpent run).dev.budgetSpent 0 5 x) = true ∧
    ((sSpent run).dev.pair 0).sxe.com.budgetOut = false ∧ ((sSpent run).dev.pair 0).sxe.running = run

/-- States that meet the hypotheses of DecodeLimits. -/
theorem witness_DecodeLimits :
    (spentOk true) ∧
    (spentOk false ∧ ((sSpent false).dev.pair 0).cb.recs = []) ∧
    (sOpen.live ∧ (sOpen.dev.ctx 5).any (fun x => x.kind == 0 && x.state == 2 && x.dec.openAt == some 7) = true) := by
  refine ⟨?_, ?_, ?_⟩ <;> decide +kernel

def patchImg : List Byte := pctBytes [(0, 4, 0x504D5844), (4, 2, 1), (6, 2, 64), (8, 4, 5), (22, 1, devOf.fld (Reg.BLK_ID 36) 7 0)]

def sPatch (f : Dev → Dev) : State := st fun d => f (d.dataPut 0x10000 (patchImg.take 64))

def oPatch : RingOp := onRing 0 0x48 [(8, 0x10000), (16, 576)]

def patchBytes (s : State) : List Byte := (s.dev.start oPatch adminKey).1.dataRead 0x10000 576

def busyPair (d : Dev) : Dev := (d.setCtx 5 { mkCtx 0 with tile := 0 }).setPair 0 { d.pair 0 with ctx := some 5 }

abbrev patchOk (s : State) : Prop := s.live ∧ admin s oPatch (fun x => noLength x && zeroAt x 20 44) (fun p => p.fn == 0 && levelOne p) ∧
    s.dev.media.newPatch = none ∧ (Desc.le oPatch.desc 8 8 = 0x10000 ∧ Desc.le oPatch.desc 16 4 = 576) ∧
    (s.dev.start oPatch adminKey).1.readStatus 0x10000 576 = 0 ∧ recNum (patchBytes s) 4 2 = 1 ∧
    patchHeader (patchBytes s) 576 (s.dev.fld (Reg.BLK_ID 36) 7 0) = true

def sTake : State := st fun d => { d with media := { d.media with newPatch := some (3, ⟨5, [], [], []⟩), oldPatch := [0] } }

/-- States that meet the hypotheses of Patches. -/
theorem witness_Patches :
    (patchOk (sPatch id) ∧ (sPatch id).dev.busyPairs = []) ∧
    (patchOk (sPatch busyPair) ∧ (sPatch busyPair).dev.busyPairs ≠ []) ∧
    (sTake.live ∧ 16 * 0 + 0 ∈ sTake.dev.media.oldPatch ∧ (sTake.dev.pair (16 * 0 + 0)).ctx = none ∧
    sTake.dev.media.newPatch = some (3, ⟨5, [], [], []⟩) ∧ (∀ k ∈ sTake.dev.media.oldPatch, k = 16 * 0 + 0)) := by
  refine ⟨?_, ?_, ?_⟩ <;> decide +kernel

def oDel (op : Nat) (l : List (Nat × Nat)) : RingOp := onRing 65 op l

def oStream (kind scheme : Nat) : RingOp := oDel 0x50 ([(8, 7), (10, kind), (11, 0), (12, scheme), (52, 0x20000), (60, 64)] ++
    (if kind = 1 then [(20, 1000)] else []))

def sStream (kind scheme : Nat) : State := after (.streamCreate (oStream kind scheme)) (media id)

def strNone : Stream := ⟨0, 0, 0, 0, 0, 0, 0, 0, false, 0, 0, 0, 0, 0, 0, 0, 0, [], [], none, none, [], [], [], 0, [], [], none, none, none, none⟩

def strOf (kind scheme : Nat) : Stream := ((sStream kind scheme).dev.stream 7).getD strNone

def oSKey : RingOp := oDel 0x52 [(8, 7), (12, 3), (16, 9)]

/-- States that meet the hypotheses of StreamCommands. -/
theorem witness_StreamCommands :
    (freeOk (media id) (oStream 0 0) 7 ∧ (atFree (media id) (oStream 0 0)).streamStatus (opFree (media id) (oStream 0 0))
    ((atFree (media id) (oStream 0 0)).dataRead 0x20000 64) ((atFree (media id) (oStream 0 0)).initStatus (opFree (media id) (oStream 0 0))) = 0) ∧
    (freeOk (sStream 1 1) oSKey 7 ∧ (atFree (sStream 1 1) oSKey).streamKeyStatus (opFree (sStream 1 1) oSKey) = 0 ∧
    (atFree (sStream 1 1) oSKey).stream (streamNum (opFree (sStream 1 1) oSKey).desc) = some (strOf 1 1)) ∧
    (freeOk (sStream 1 1) (oDel 0x51 [(8, 7)]) 7 ∧ (atFree (sStream 1 1) (oDel 0x51 [(8, 7)])).streamDestroyStatus (opFree (sStream 1 1) (oDel 0x51 [(8, 7)])) = 0) := by
  refine ⟨?_, ?_, ?_⟩ <;> decide +kernel

def seg0 : Segment := ⟨0, [], [], [], 0, 0, 1000, [], false, none, 0, [], none, none, false⟩

def sAudio (f : Stream → Stream) : State := media fun d => (d.setStream 7 (f (strOf 2 0))).setFlag (Reg.SEG_CTRL 0) 0 true

def oAudio : RingOp := oDel 0x58 [(8, 7), (12, 10), (16, 0x30000), (24, 2000)]

def tracked (x : Stream) : Stream := { x with tracks := 1 }

abbrev audioOk (f : Stream → Stream) : Prop := freeOk (sAudio f) oAudio 7 ∧ (atFree (sAudio f) oAudio).audioStatus (opFree (sAudio f) oAudio) = 0 ∧
    Desc.le (opFree (sAudio f) oAudio).desc 12 4 ≠ 0 ∧ (atFree (sAudio f) oAudio).stream (streamNum (opFree (sAudio f) oAudio).desc) = some (f (strOf 2 0)) ∧
    (f (strOf 2 0)).lastPts.getD (Desc.byte (opFree (sAudio f) oAudio).desc 10) none = none

/-- States that meet the hypotheses of AudioSamples. -/
theorem witness_AudioSamples :
    (audioOk tracked ∧ (tracked (strOf 2 0)).kind ≠ 1 ∧ (tracked (strOf 2 0)).open_ = none ∧ (tracked (strOf 2 0)).closing = [] ∧
    (tracked (strOf 2 0)).count = 0) ∧
    (audioOk (fun x => { tracked x with seg := 1 }) ∧ (sAudio fun x => { tracked x with seg := 1 }).dev.flag (Reg.SEG_CTRL 1) 0 = false) ∧
    (audioOk (fun x => { tracked x with count := 1 }) ∧ (sAudio tracked).dev.flag (Reg.SEG_CTRL (strOf 2 0).seg) 0 = true ∧ (strOf 2 0).kind ≠ 1 ∧
    (strOf 2 0).open_ = none ∧ (strOf 2 0).closing = []) ∧
    (audioOk (fun x => { tracked x with open_ := some seg0 }) ∧ (sAudio tracked).dev.flag (Reg.SEG_CTRL (strOf 2 0).seg) 0 = true ∧
    (strOf 2 0).kind = 2 ∧ (strOf 2 0).audio = [] ∧ (strOf 2 0).closing = [] ∧ 0 ≤ ptsDelta 2000 seg0.firstPts ∧ 0 < ptsDelta 2000 seg0.topPts) := by
  refine ⟨?_, ?_, ?_, ?_⟩ <;> decide +kernel

def oSegNext : RingOp := oDel 0x59 [(8, 7), (16, 0x40000)]

def readySeg : ReadySeg := ⟨0, [], 0, false, 100, 0⟩

def sSeg : State := media fun d => d.setBuf 0 ⟨1, 0x1000, 1, []⟩

def oDrop : RingOp := oDel 0x5A [(12, 0), (16, 0)]

abbrev nextOk (f : Stream → Stream) : Prop := freeOk (sAudio f) oSegNext 7 ∧ (atFree (sAudio f) oSegNext).segNextStatus (opFree (sAudio f) oSegNext) = 0 ∧
    (atFree (sAudio f) oSegNext).stream (streamNum (opFree (sAudio f) oSegNext).desc) = some (f (strOf 2 0))

/-- States that meet the hypotheses of SegmentCommands. -/
theorem witness_SegmentCommands :
    (nextOk id ∧ (strOf 2 0).ready = []) ∧
    (nextOk (fun x => { x with ready := [readySeg] }) ∧ (strOf 2 0).waits = []) ∧
    (freeOk sSeg oDrop 0 ∧ (atFree sSeg oDrop).segDropStatus (opFree sSeg oDrop) = 0 ∧ (sSeg.dev.buf (Desc.le oDrop.desc 12 4)).state = 1 ∧
    (sSeg.dev.buf (Desc.le oDrop.desc 12 4)).owner = ownerFn (opFree sSeg oDrop).fn ∧ 0 < (sSeg.dev.buf (Desc.le oDrop.desc 12 4)).holds) := by
  refine ⟨?_, ?_, ?_⟩ <;> decide +kernel

def sPack (on : Bool) : State := media fun d => ((d.setStream 7 { strOf 2 0 with ctx := some 5 }).setFlag (Reg.SEG_CTRL 0) 0 on).setCtx 5
    { mkCtx 1 with tile := 0, state := 2, out := [auOf 8] }

def sWait : State := sAudio fun x => { x with closing := [(seg0, 0, 0)] }

/-- States that meet the hypotheses of Packaging. -/
theorem witness_Packaging :
    ((sPack true).live ∧ ((sPack true).dev.stream 7).bind Stream.ctx = some 5 ∧ ((sPack true).dev.ctx 5).map Ctx.out = some [auOf 8]) ∧
    ((sPack false).live ∧ (auOf 8).mark = false ∧ (sPack false).dev.flag (Reg.SEG_CTRL (strOf 2 0).seg) 0 = false) ∧
    (sWait.live ∧ sWait.dev.stream 7 = some { strOf 2 0 with closing := [(seg0, 0, 0)] } ∧ 0 ≤ sWait.dev.tb.dt) := by
  refine ⟨?_, ?_, ?_⟩ <;> decide +kernel

def flowCtx (mode : Nat) : List Byte := pctBytes ([(0, 2, 1), (2, 1, mode), (16, 2, 1200), (20, 1, 42)] ++ (if mode = 0 then [(18, 2, 256)] else []))

def oOpen : RingOp := oDel 0x44 [(8, 9), (16, 0x70000)]

def sOpening (mode : Nat) : State := st fun d => (d.hostWrite 0x70000 (flowCtx mode)).setReg (Reg.QUEUE_CFG 0) (2 ^ 31)

def opFlow (s : State) (o : RingOp) : Op := opOf s o flowKey

def atFlow (s : State) (o : RingOp) : Dev := (s.dev.start o flowKey).1

/-- States that meet the hypotheses of FlowOpening. -/
theorem witness_FlowOpening :
    ((sOpening 0).live ∧ (sOpening 0).dev.takes oOpen flowKey (opFlow (sOpening 0) oOpen) ∧ (atFlow (sOpening 0) oOpen).openStatus (opFlow (sOpening 0) oOpen) = 0) ∧
    ((sOpening 1).live ∧ (sOpening 1).dev.takes oOpen flowKey (opFlow (sOpening 1) oOpen) ∧ (atFlow (sOpening 1) oOpen).openStatus (opFlow (sOpening 1) oOpen) = 0) := by
  refine ⟨?_, ?_⟩ <;> decide +kernel

def sFlow (mode : Nat) : State := after (.openFlow oOpen) (sOpening mode)

def flowOf (mode : Nat) : Flow := ((sFlow mode).dev.flow 9).getD (flowOfCtx 0 0 (flowCtx mode))

def oSend (op : Nat) (l : List (Nat × Nat)) : RingOp := oDel op ([(8, 9), (12, 0xFFFFFFFF), (16, 0x30000), (28, 100)] ++ l)

abbrev sendOk (mode code : Nat) (l : List (Nat × Nat)) : Prop := (sFlow mode).live ∧
    Claims.meets (sFlow mode).dev (oSend code l) true code (opFlow (sFlow mode) (oSend code l)) (flowOf mode) ∧
    (atFlow (sFlow mode) (oSend code l)).sendGate (opFlow (sFlow mode) (oSend code l)) (flowOf mode) = 0 ∧ (flowOf mode).ops = [] ∧
    sendBytes (opFlow (sFlow mode) (oSend code l)).desc ≠ 0 ∧
    ((flowOf mode).tcpResend (opFlow (sFlow mode) (oSend code l)).desc = true → Desc.le (opFlow (sFlow mode) (oSend code l)).desc 48 4 ≠ 0) ∧
    Desc.le (opFlow (sFlow mode) (oSend code l)).desc 12 4 = noHandle ∧
    (atFlow (sFlow mode) (oSend code l)).nextLen (flowOf mode) (opFlow (sFlow mode) (oSend code l)).desc ≠ 0

def oRateFlow : RingOp := oDel 0x42 [(8, 9), (12, 5), (16, 1)]

/-- States that meet the hypotheses of FlowOperations. -/
theorem witness_FlowOperations :
    (sendOk 0 opSend [] ∧ sendOk 1 opSend []) ∧
    (sendOk 0 opResend [(48, 10)] ∧ sendOk 1 opResend []) ∧
    ((sFlow 0).live ∧ Claims.meets (sFlow 0).dev oRateFlow true 0x42 (opFlow (sFlow 0) oRateFlow) (flowOf 0)) := by
  refine ⟨?_, ?_, ?_⟩ <;> decide +kernel

def oRekey : RingOp := oDel 0x45 [(8, 9), (16, 5)]

def oClose : RingOp := oDel 0x43 [(8, 9)]

def sClosing : State := after (.closeFlow oClose true) (sFlow 0)

/-- States that meet the hypotheses of FlowEnds. -/
theorem witness_FlowEnds :
    ((sFlow 0).live ∧ Claims.meets (sFlow 0).dev oRekey true opRekey (opFlow (sFlow 0) oRekey) (flowOf 0) ∧ (flowOf 0).ops = [] ∧
    (flowOf 0).keyUpdate (opFlow (sFlow 0) oRekey).desc = false ∧ (flowOf 0).mode = 0) ∧
    ((sFlow 1).live ∧ Claims.meets (sFlow 1).dev oRekey true opRekey (opFlow (sFlow 1) oRekey) (flowOf 1) ∧ (flowOf 1).ops = [] ∧
    (flowOf 1).keyUpdate (opFlow (sFlow 1) oRekey).desc = false ∧ (flowOf 1).mode ≠ 0) ∧
    (Claims.meets (sFlow 0).dev oClose true opClose (opFlow (sFlow 0) oClose) (flowOf 0) ∧ (flowOf 0).ops = []) ∧
    (sClosing.live ∧ (sClosing.dev.flow 9).isSome = true ∧ (((sClosing.dev.flow 9).bind sClosing.dev.frontOf).any fun p => opcodeOf p.desc == opClose) = true ∧
    (flowOf 0).notifies oClose.desc = false) ∧
    ((sFlow 0).dev.dlv.cache.contains 9 = true ∧ (sFlow 0).dev.flow 9 = some (flowOf 0) ∧ (sFlow 0).dev.dlv.cacheWait = []) := by
  refine ⟨?_, ?_, ?_, ?_, ?_⟩ <;> decide +kernel

def onPort (d : Dev) : Dev := (((d.setFlag 0x1C00000 0 true).setFlag (Reg.LG_PORT_EN 0) 0 true).setPort 0 { d.port 0 with up := true })

def sPort (f : Dev → Dev) : State := st fun d => f (onPort d)

def frameOf (n : Nat) (ok : Bool) : RxFrame := ⟨0, List.replicate n 0, ok, 0⟩

def sParser : State := sPort fun d => d.setFlag 0x900000 0 true

def toward (lo hi : Nat) : State := sPort fun d =>
    (((((d.setFlag 0x900000 0 true).setFlag 0xA00000 0 true).setReg (Reg.PORT_DEFAULT 0 0) lo).setReg (Reg.PORT_DEFAULT 0 1) hi).setReg
      (Reg.QUEUE_CFG 3) (2 ^ 31)).setReg (Reg.QUEUE_LIMIT 3) 100 |>.setReg (Reg.QUEUE_LIMIT (ringQueue 66)) 100

def toPort : State := toward (1 + 3 * 4) (3 * 65536)

def toRing : State := toward 1 66

def macFrame (op port : Nat) : RxFrame := ⟨port, (List.replicate 12 0) ++ [0x88, 0x08, 0, BitVec.ofNat 8 (op % 256)] ++ List.replicate 48 0, true, 0⟩

def pfcFrame : RxFrame := ⟨0, (List.replicate 12 0) ++ [0x88, 0x08, 1, 1, 0, 1] ++ List.replicate 46 0, true, 0⟩

/-- States that meet the hypotheses of FrameReception. -/
theorem witness_FrameReception :
    ((sPort id).live ∧ (frameOf 64 false).port < 128 ∧ (sPort id).dev.portOn 0 = true ∧ ((sPort id).dev.port 0).up = true ∧
    (sPort id).dev.flag (Reg.PORT_CTRL (0 / 16) (0 % 16)) 1 = false ∧ (frameOf 64 false).fcsOk = false) ∧
    ((frameOf 63 true).fcsOk = true ∧ (frameOf 63 true).data.length < 64) ∧
    ((frameOf 9300 true).fcsOk = true ∧ (sPort id).dev.maxFrame 0 < (frameOf 9300 true).data.length) ∧
    ((frameOf 64 true).fcsOk = true ∧ 64 ≤ (frameOf 64 true).data.length ∧ (frameOf 64 true).data.length ≤ (sPort id).dev.maxFrame 0 ∧
    macControl (frameOf 64 true).data = none ∧ (sPort id).dev.enabled 9 = false) ∧
    (sParser.live ∧ sParser.dev.portOn 0 = true ∧ (sParser.dev.port 0).up = true ∧ sParser.dev.enabled 9 = true ∧
    (Claims.verdict sParser.dev (frameOf 64 true)).decap = false ∧ actKind (Claims.verdict sParser.dev (frameOf 64 true)).action = 0) ∧
    (toPort.live ∧ toPort.dev.portOn 0 = true ∧ (toPort.dev.port 0).up = true ∧ toPort.dev.flag (Reg.PORT_CTRL (0 / 16) (0 % 16)) 1 = false ∧
    toPort.dev.enabled 9 = true ∧ (Claims.verdict toPort.dev (frameOf 64 true)).decap = false ∧
    actKind (Claims.verdict toPort.dev (frameOf 64 true)).action = 1 ∧ actPolice (Claims.verdict toPort.dev (frameOf 64 true)).action = 0 ∧
    Claims.destQueue toPort.dev (Claims.verdict toPort.dev (frameOf 64 true)) = some (3, some 0) ∧
    toPort.dev.rxRefused 3 (some 0) (Claims.asQueued toPort.dev (frameOf 64 true)) = none) ∧
    (toRing.live ∧ toRing.dev.portOn 0 = true ∧ (toRing.dev.port 0).up = true ∧ toRing.dev.flag (Reg.PORT_CTRL (0 / 16) (0 % 16)) 1 = false ∧
    toRing.dev.enabled 9 = true ∧ (Claims.verdict toRing.dev (frameOf 64 true)).decap = false ∧
    actKind (Claims.verdict toRing.dev (frameOf 64 true)).action = 1 ∧ actPolice (Claims.verdict toRing.dev (frameOf 64 true)).action = 0 ∧
    Claims.destQueue toRing.dev (Claims.verdict toRing.dev (frameOf 64 true)) = some (ringQueue 66, none) ∧
    toRing.dev.rxRefused (ringQueue 66) none (Claims.asQueued toRing.dev (frameOf 64 true)) = none) := by
  refine ⟨?_, ?_, ?_, ?_, ?_, ?_, ?_⟩ <;> decide +kernel

def sCtl (n : Nat) : State := sPort fun d => d.setFld (Reg.PORT_CTRL 0 0) 3 2 n

def sStop : State := sPort fun d => d.setPort 0 { d.port 0 with stopped := (d.port 0).stopped.set 8 (some 5), refresh := some 5 }

/-- States that meet the hypotheses of FlowControl. -/
theorem witness_FlowControl :
    ((sCtl 1).live ∧ (sCtl 1).dev.portOn 0 = true ∧ ((sCtl 1).dev.port 0).up = true ∧ (sCtl 1).dev.flag (Reg.PORT_CTRL (0 / 16) (0 % 16)) 1 = false ∧
    (macFrame 1 0).fcsOk = true ∧ 64 ≤ (macFrame 1 0).data.length ∧ (macFrame 1 0).data.length ≤ (sCtl 1).dev.maxFrame 0 ∧
    macControl (macFrame 1 0).data = some 0x0001 ∧ (sCtl 1).dev.flowCtl 0 = 1) ∧
    ((sCtl 2).dev.portOn 0 = true ∧ 64 ≤ pfcFrame.data.length ∧ pfcFrame.data.length ≤ (sCtl 2).dev.maxFrame 0 ∧
    macControl pfcFrame.data = some 0x0101 ∧ (sCtl 2).dev.flowCtl 0 = 2 ∧ 0 < 8 ∧ ((sCtl 2).dev.port 0).stopped.length = 9) ∧
    (sStop.live ∧ (sStop.dev.port 0).stopped.getD 8 none = some 5 ∧ (sStop.dev.port 0).refresh = some 5) := by
  refine ⟨?_, ?_, ?_⟩ <;> decide +kernel

def sDown : State := sPort fun d => (d.setPort 0 { d.port 0 with up := false }).setFlag 0x1C00000 3 true |>.setFlag 0x1C00000 2 true

/-- States that meet the hypotheses of LinkCommands. -/
theorem witness_LinkCommands :
    (sDown.up ∧ sDown.dev.portOn 0 = true ∧ (sDown.dev.port 0).up = false) ∧
    ((sPort id).up ∧ ((sPort id).dev.port 0).up = true ∧ (sPort id).dev.onWire 0 = none) ∧
    (sDown.dev.portOn 0 = true ∧ sDown.dev.flag (Reg.LG_CTRL (0 / 16)) 3 = true ∧ techFits (sDown.dev.portMode 0) 4 = true) ∧
    (sDown.dev.portOn (sDown.dev.portOfLane 0) = true ∧ sDown.dev.flag (Reg.LG_CTRL (0 / 16)) 2 = true) ∧
    ((sPort id).live ∧ (sPort id).dev.mayWrite .pf ∧ 7 < 8 ∧ 15 < 16 ∧ 13 < 14) := by
  refine ⟨?_, ?_, ?_, ?_, ?_⟩ <;> decide +kernel

def oRules (op len : Nat) : RingOp := onRing 0 op (if op = 0x60 then [(2, len), (16, 0x70000)] else [])

def sDraining : State := st fun d => { d with par := { d.par with drained := false } }

/-- States that meet the hypotheses of RuleSets. -/
theorem witness_RuleSets :
    ((st id).live ∧ admin (st id) (oRules 0x60 1) rulesFormat levelOne ∧ lengthOf (oRules 0x60 1).desc ≠ 0 ∧ (st id).dev.par.drained = true ∧
    (st id).dev.par.waits = [] ∧ (((st id).dev.start (oRules 0x60 1) adminKey).1.ruleImages (oRules 0x60 1).desc).all ruleOk = true) ∧
    (admin (st id) (oRules 0x61 0) (fun x => lengthOf x == 0 && zeroAt x 8 56) levelOne ∧ (st id).dev.par.waits = []) ∧
    (sDraining.live ∧ sDraining.dev.par.drained = false ∧ sDraining.dev.inFlight = false ∧ sDraining.dev.par.waits = []) := by
  refine ⟨?_, ?_, ?_⟩ <;> decide +kernel

def sPar : State := st fun d => { d with par := { d.par with recirc := [(0, List.replicate 60 0, 5, 0, false, 0)], frags := [⟨[1], 0, 0, 0, 0, 0, 0⟩] } }

def heldPkt : HeldPkt := ⟨7, 0, 0, false, [], 0⟩

def sHeldPkt : State := st fun d => d.setIngest 3 { d.ingest 3 with held := [heldPkt] }

/-- States that meet the hypotheses of ParserTimers. -/
theorem witness_ParserTimers :
    (sPar.live ∧ sPar.dev.par.recirc = (0, List.replicate 60 0, 5, 0, false, 0) :: []) ∧
    (0 < sPar.dev.par.frags.length) ∧
    (sHeldPkt.live ∧ (sHeldPkt.dev.ingest 3).held = [heldPkt] ∧ sHeldPkt.dev.ingCtx 3 = none ∧ sHeldPkt.dev.ingCarriage 3 ≠ 2) := by
  refine ⟨?_, ?_, ?_⟩ <;> decide +kernel

def ringKey (p : Op) : Nat := keyRing p.ring

def oBuffer (n : Nat) : RingOp := onRing 66 0x70 [(2, n), (16, 0x70000)]

def oTx (n : Nat) : RingOp := onRing 67 0x80 [(2, n), (16, 0x70000)]

def sTx : State := st fun d => d.setReg (Reg.QUEUE_CFG 0) (2 ^ 31)

def qframe (n : Nat) : QFrame := ⟨0, List.replicate n 0, none, 0, [], false, none, none⟩

def sRxq : State := { after (.rxBuffer (oBuffer 128)) (st id) with
    dev := (after (.rxBuffer (oBuffer 128)) (st id)).dev.setQueue (ringQueue 66) { queueReset with frames := [qframe 64] } }

/-- States that meet the hypotheses of HostFrames. -/
theorem witness_HostFrames :
    ((st id).live ∧ (st id).dev.takes (oBuffer 128) ringKey (opOf (st id) (oBuffer 128) ringKey) ∧
    ((st id).dev.start (oBuffer 128) ringKey).1.rxBufferStatus (opOf (st id) (oBuffer 128) ringKey) = 0 ∧ lengthOf (oBuffer 128).desc ≠ 0) ∧
    (sRxq.live ∧ sRxq.dev.hostRing 66 = true ∧ (sRxq.dev.queue (ringQueue 66)).frames = qframe 64 :: [] ∧
    (qframe 64).spilled = false ∧ (sRxq.dev.rxBufsOf 66).length = 1 ∧ (((sRxq.dev.ring 66).bind fun x => sRxq.dev.cq x.cq).any Cq.full) = false) ∧
    (sTx.live ∧ sTx.dev.takes (oTx 64) ringKey (opOf sTx (oTx 64) ringKey) ∧
    (sTx.dev.start (oTx 64) ringKey).1.txStatus (opOf sTx (oTx 64) ringKey) = 0 ∧ lengthOf (oTx 64).desc ≠ 0) := by
  refine ⟨?_, ?_, ?_⟩ <;> decide +kernel

def sEnq : State := st fun d => ((((d.setReg (Reg.QUEUE_CFG 0) (2 ^ 31)).setReg (Reg.QUEUE_LIMIT 0) 100).setFlag 0xB00000 0 true).setFlag 0xA00000 0 true)

def sFrame : State := after (.txFrame (oTx 64)) sEnq

def wFrame : TxWait := (sFrame.dev.txFront 67).getD ⟨0, 0, 0, 0, 0, false, none, [], false⟩

def sSent : State := after (.send (oSend opSend []) true) (sFlow 0)

def flowSent : Flow := (sSent.dev.flow 9).getD (flowOf 0)

def sPacket : State := { sSent with dev := sSent.dev.setFlow 9 { flowSent with rate := 1000, since := some 0, credit := 0 } }

def flowPacket : Flow := { flowSent with rate := 1000, since := some 0, credit := 0 }

def sendOp : Op := (sPacket.dev.frontOf flowPacket).getD ⟨0, 0, 0, 0, 0, 0, 0, 0, [], none, 0⟩

/-- States that meet the hypotheses of HoistReleases. -/
theorem witness_HoistReleases :
    (sFrame.live ∧ sFrame.dev.txFront 67 = some wFrame ∧ sFrame.dev.hoistBefore 67 = [] ∧ sFrame.dev.enabled 11 = true ∧ sFrame.dev.enabled 10 = true ∧
    sFrame.dev.egressBound wFrame.queue wFrame.port = true ∧ sFrame.dev.egressRoom wFrame.queue wFrame.data.length = true ∧
    wFrame.data.length + 4 ≤ sFrame.dev.frameLimit wFrame.queue) ∧
    (sPacket.live ∧ sPacket.dev.flow 9 = some flowPacket ∧ sPacket.dev.frontOf flowPacket = some sendOp ∧ opcodeOf sendOp.desc ≠ opClose ∧
    sPacket.dev.releasableAt flowPacket = some 0 ∧ sPacket.dev.releasedBefore 9 flowPacket 0 = false) := by
  refine ⟨?_, ?_⟩ <;> decide +kernel

def sDue : State := sPort fun d => d.setPort 0 { d.port 0 with due := [(1, [5])] }

def sQueued : State := sPort fun d => ((((d.setReg (Reg.QUEUE_CFG 3) (2 ^ 31)).setFlag 0xB00000 0 true).setFlag 0xE00000 0 true).setReg (Reg.HOIST_PORT 0)
    0x1F).setQueue 3 { queueReset with frames := [qframe 64] }

def wireOf : OnWire := ⟨0, 3, qframe 64, 0, 0, 0⟩

def sWire : State := sPort fun d => { d with qm := { d.qm with wire := [wireOf] } }

/-- States that meet the hypotheses of PortEgress. -/
theorem witness_PortEgress :
    (sDue.live ∧ sDue.dev.portOn 0 = true ∧ (sDue.dev.port 0).up = true ∧ sDue.dev.onWire 0 = none ∧ (sDue.dev.port 0).due = (1, [5]) :: []) ∧
    (sQueued.live ∧ sQueued.dev.portOn 0 = true ∧ (sQueued.dev.port 0).up = true ∧ sQueued.dev.onWire 0 = none ∧ (sQueued.dev.port 0).due = [] ∧
    (sQueued.dev.advanceTo (sQueued.dev.port 0).freeAt).groupQueues 0 = [] ∧
    (sQueued.dev.advanceTo (sQueued.dev.port 0).freeAt).chooseQueue 0 = some 3 ∧ (sQueued.dev.queue 3).frames = qframe 64 :: [] ∧
    txBytes (qframe 64).data.length ≤ sQueued.dev.maxFrame 0) ∧
    (sWire.live ∧ sWire.dev.onWire 0 = some wireOf ∧ sWire.dev.flag (Reg.PORT_CTRL (0 / 16) (0 % 16)) 1 = false) := by
  refine ⟨?_, ?_, ?_⟩ <;> decide +kernel

def gateList : GateList := ⟨0, 0, 1000000, [(0xFF, 1000), (1, 1000)]⟩

def sGate (g : PortGate) : State := st fun d => (d.setFlag Reg.GATE_CTRL 0 true).setGate 2 g

/-- States that meet the hypotheses of GateLists. -/
theorem witness_GateLists :
    ((sGate ⟨some gateList, none, 0⟩).live ∧ (sGate ⟨some gateList, none, 0⟩).dev.flag Reg.GATE_CTRL 0 = true ∧
    ((sGate ⟨some gateList, none, 0⟩).dev.gate_ 2).running = some gateList ∧
    (gateList.at_ (sGate ⟨some gateList, none, 0⟩).dev.tb.dt).2.2 ≠ gateList.boundary (sGate ⟨some gateList, none, 0⟩).dev.tb.dt) ∧
    (((sGate ⟨some gateList, none, 0⟩).dev.gate_ 2).running = some gateList ∧
    (st fun d => (d.setFlag (Reg.BLK_STATE 12) 0 false)).dev.flag (Reg.BLK_STATE 12) 0 = false) ∧
    (((sGate ⟨none, some gateList, 0⟩).dev.gate_ 2).pending = some gateList) := by
  refine ⟨?_, ?_, ?_⟩ <;> decide +kernel

def noErr : FrameErr := ⟨0, 0, false⟩

def memIn (write : Bool) (addr : Nat) : MemIn := ⟨0, 1, write, addr, if write then 2 else 32, if write then [1, 2] else [], noErr, 0⟩

def sMem (state : Nat) : State := st fun d => d.setMcState 0 state

def sGone : State := st fun d => d.setMcState 0 5

def sPoison : State := st fun d => { d with prot := { d.prot with poisoned := [(2097152 * (d.pageFrame 16).1 + (d.pageFrame 16).2, true)] } }

/-- States that meet the hypotheses of MemoryRequests. -/
theorem witness_MemoryRequests :
    (dataSpace < (memIn false dataSpace).addr + (memIn false dataSpace).len) ∧
    ((st id).live ∧ (memIn false 4096).addr + (memIn false 4096).len ≤ dataSpace ∧ (st id).dev.mcState 0 < 3 ∧ ((st id).dev.ctl 0).srFreq = false ∧
    (memIn false 4096).err.symbols = 0 ∧ (st id).dev.correctable ((st id).dev.pageFrame (4096 / 4096)).1 noErr = true ∧
    (memIn false 4096).write = false ∧ (st id).dev.rangePoison 4096 32 = false) ∧
    ((st id).dev.stackLost (memIn false 4096).stack = false ∧ sGone.live ∧ sGone.dev.stackLost (memIn false 4096).stack = true) ∧
    ((memIn true 4096).write = true ∧ (st id).dev.rangePoison 4096 (memIn true 4096).data.length = false) ∧
    ((memIn false 65536).write = false ∧ sPoison.dev.mcState 0 < 3 ∧ sPoison.dev.rangePoison 65536 32 = true ∧
    sPoison.dev.correctable (sPoison.dev.pageFrame (65536 / 4096)).1 noErr = true) ∧
    ((memIn true 65536).write = true ∧ (pagesOf 65536 (memIn true 65536).data.length).all sPoison.dev.pagePoison = true) ∧
    ((sMem 3).live ∧ (sMem 3).dev.stackLost 0 = false ∧ (sMem 3).dev.mcState 0 = 3 ∧ (sMem 4).dev.stackLost 0 = false ∧ (sMem 4).live ∧ (sMem 4).dev.mcState 0 = 4) := by
  refine ⟨?_, ?_, ?_, ?_, ?_, ?_, ?_⟩ <;> decide +kernel

/-- States that meet the hypotheses of Refreshes. -/
theorem witness_Refreshes :
    ((st id).up ∧ 7 < 8 ∧ (st id).dev.mcState 7 < 2 ∧ 0 < ((st id).dev.ctl 7).refBank.length ∧
    (st fun d => d.setFlag (Reg.BLK_STATE 47) 0 false).dev.flag (Reg.BLK_STATE (40 + 7)) 0 = false) ∧
    ((st fun d => d.setFlag (Reg.MC_STATE 7) 2 true).dev.panics 7 ≠ 0 ∧
    SMap.get (fun _ => 0) ((st id).dev.ctl 7).postponed (16 * 0 + ((st id).dev.ctl 7).refBank.getD 0 0) < (st id).dev.fld (Reg.MC_REFRESH 7) 15 12) ∧
    ((85 : Int) < 86 ∧ (79 : Int) < 80 ∧ (80 : Int) ≤ 80 ∧ (85 : Int) ≤ 85) := by
  refine ⟨?_, ?_, ?_⟩ <;> decide +kernel

def sUrg (b : Bool) : State := st fun d => ((d.setFlag (Reg.MC_STATE 2) 3 b).setFld (Reg.RT_PORT_SEL 3) 3 0 2).setFld (Reg.RT_THRESH 2 3) 13 8 9

def sLong : State := st fun d => d.setCtl 2 { d.ctl 2 with panicAt := (d.ctl 2).panicAt.set 3 (some 5) }

/-- States that meet the hypotheses of Urgency. -/
theorem witness_Urgency :
    ((sUrg false).live ∧ 2 < 8 ∧ 3 < 8 ∧ (sUrg false).dev.flag (Reg.MC_STATE 2) 3 = false ∧ (sUrg false).dev.mcState 2 = 0 ∧
    (sUrg false).dev.fld (Reg.RT_PORT_SEL 3) 3 0 ≠ 0 ∧ (sUrg false).dev.fld (Reg.RT_THRESH 2 3) 13 8 ≤ 9) ∧
    ((sUrg false).dev.flag (Reg.MC_STATE 2) 3 = false ∧ 8 < (sUrg false).dev.fld (Reg.RT_THRESH 2 3) 13 8) ∧
    ((sUrg true).dev.flag (Reg.MC_STATE 2) 3 = true ∧ 0 ≤ (sUrg true).dev.fld (Reg.RT_THRESH 2 3) 5 0) ∧
    (sLong.live ∧ (sLong.dev.ctl 2).panicAt.getD 3 none = some 5 ∧ (sLong.dev.ctl 2).panicSaid.getD 3 false = false) := by
  refine ⟨?_, ?_, ?_, ?_⟩ <;> decide +kernel

def sLow (state : Nat) (f : MemCtl → MemCtl) : State := st fun d => ((d.setMcState 1 state).setReg (Reg.MC_CTRL 1) 0x00010101).setCtl 1 (f (d.ctl 1)) |>
    fun e => { e with tb := { e.tb with dt := 10 ^ 12 } }

/-- States that meet the hypotheses of LowPower. -/
theorem witness_LowPower :
    ((sLow 0 id).live ∧ 1 < 8 ∧ 0 ≤ (sLow 0 id).dev.tb.dt ∧ ((sLow 0 id).dev.ctl 1).held = [] ∧ (sLow 0 id).dev.mcState 1 = 0 ∧ (sLow 0 id).dev.panics 1 = 0 ∧
    (sLow 0 id).dev.fld (Reg.MC_CTRL 1) 15 8 ≠ 0 ∧
    ((sLow 0 id).dev.ctl 1).lastReq + (sLow 0 id).dev.hbmTime 1 (64 * (sLow 0 id).dev.fld (Reg.MC_CTRL 1) 15 8) ≤ (sLow 0 id).dev.tb.dt) ∧
    ((sLow 0 id).dev.fld (Reg.MC_CTRL 1) 31 16 ≠ 0 ∧
    ((sLow 0 id).dev.ctl 1).lastReq + (sLow 0 id).dev.fld (Reg.MC_CTRL 1) 31 16 * unitsPerUs ≤ (sLow 0 id).dev.tb.dt ∧ (sLow 1 id).dev.mcState 1 = 1) ∧
    ((sLow 2 id).dev.mcState 1 = 2 ∧ (sLow 2 id).dev.panics 1 = 0) ∧
    ((sLow 3 id).dev.mcState 1 = 3 ∧ ((sLow 3 id).dev.ctl 1).srFreq = false) ∧
    ((sLow 3 fun x => { x with srFreq := true, locked := true }).dev.mcState 1 = 3 ∧ ((sLow 3 fun x => { x with srFreq := true, locked := true }).dev.ctl 1).srFreq = true ∧
    ((sLow 3 fun x => { x with srFreq := true, locked := true }).dev.ctl 1).locked = true) := by
  refine ⟨?_, ?_, ?_, ?_, ?_⟩ <;> decide +kernel

def sArm (state : Nat) (b : Bool) : State := sLow state fun x => { x with arm := some ⟨3, 7, b⟩, srFreq := b }

/-- States that meet the hypotheses of FrequencyChanges. -/
theorem witness_FrequencyChanges :
    ((st id).live ∧ (st id).dev.mayWrite .pf ∧ bit (1 : W32).toNat 1 = false ∧ ((st id).dev.ctl 1).arm.any FreqArm.begun = false) ∧
    (bit (2 : W32).toNat 0 = false ∧ ((sArm 0 false).dev.ctl 1).arm.any FreqArm.begun = false) ∧
    (((sArm 0 false).dev.ctl 1).arm = some ⟨3, 7, false⟩ ∧ 3 ≠ (sArm 0 false).dev.fld (Reg.MC_STATE 1) 31 30 ∧ (sArm 0 false).dev.panics 1 = 0 ∧
    (sArm 0 false).dev.mcState 1 < 3) ∧
    (((sArm 3 true).dev.ctl 1).arm = some ⟨3, 7, true⟩ ∧ ((sArm 3 true).dev.ctl 1).srFreq = true ∧ (sArm 3 true).dev.mcState 1 = 3 ∧ 3 < 4) ∧
    (((sArm 4 true).dev.ctl 1).srFreq = true ∧ (sArm 4 true).dev.mcState 1 = 4 ∧ ((sArm 4 true).dev.ctl 1).held = []) := by
  refine ⟨?_, ?_, ?_, ?_, ?_⟩ <;> decide +kernel

def sScrub : State := st fun d => ((d.setCtl 1 { d.ctl 1 with tests := [⟨4, 0, 0, 1⟩] }).setFld (Reg.MC_SCRUB 1) 7 0 24).setFlag Reg.MEM_MIG 31 true

/-- States that meet the hypotheses of MapAndScrub. -/
theorem witness_MapAndScrub :
    ((st id).live ∧ (st id).dev.mayWrite .pf ∧ (st id).dev.flag Reg.MAP_CTRL 0 = false ∧
    (st fun d => d.setFlag (Reg.BLK_STATE 48) 2 true).dev.rwlOpen 48 = true ∧ bits (1 : W32).toNat 3 1 ≤ 4 ∧
    ((st id).dev.setFld Reg.MAP_CTRL 3 1 (bits (1 : W32).toNat 3 1)).mapFollow.capFail = none) ∧
    ((sScrub.dev.ctl 1).tests = ⟨4, 0, 0, 1⟩ :: [] ∧ sScrub.dev.panics 1 = 0 ∧ Nat.land 2 1 = 0) ∧
    (sScrub.live ∧ sScrub.dev.fld (Reg.MC_SCRUB 1) 7 0 ≠ 0 ∧ noErr.symbols = 0 ∧ (∀ i ∈ List.range 4, sScrub.dev.correctable (4 * 1 + i) noErr = true)) ∧
    (sScrub.dev.flag Reg.MEM_MIG 31 = true ∧ sScrub.dev.correctable (sScrub.dev.fld Reg.MEM_MIG 25 21) noErr = true ∧
    sScrub.dev.fld Reg.MEM_MIG 20 0 + 1 < sScrub.dev.codeF ∧ sScrub.dev.fld Reg.MEM_MIG 20 0 + 1 < 2 ^ 21) := by
  refine ⟨?_, ?_, ?_, ?_⟩ <;> decide +kernel

def sCode (t : Nat) : State := st fun d => d.setFld Reg.MEM_CODE 2 0 t

def oMem (op : Nat) (l : List (Nat × Nat)) : RingOp := onRing 0 op l

def fmtBank (x : Desc) : Bool := noLength x && Desc.field x 8 7 5 == 0 && Desc.field x 9 7 5 == 0 && Desc.field x 10 7 4 == 0 && zeroAt x 11 53

def fmtErase (x : Desc) : Bool := noLength x && Desc.field x 8 7 5 == 0 && Desc.field x 9 7 4 == 0 && zeroAt x 10 54

/-- States that meet the hypotheses of Retirement. -/
theorem witness_Retirement :
    ((st id).live ∧ admin (st id) (oMem 0x68 [(16, 8192)]) pageFormat levelOne ∧ Desc.le (oMem 0x68 [(16, 8192)]).desc 16 8 < dataSpace ∧
    SMap.find (st id).dev.prot.retired 2 = none ∧
    SMap.get (fun _ => 0) (st id).dev.prot.reserve (8 * ((st id).dev.pageLogical 2).1 + ((st id).dev.pageLogical 2).2.1) < 16384 ∧
    (st id).dev.rankUsable ((st id).dev.pageFrame 2).1 = true) ∧
    (admin (sCode 3) (oMem 0x69 [(8, 3), (9, 5), (10, 7)]) fmtBank levelOne ∧ 64 ≤ (sCode 3).dev.codeT ∧ (3, 5, 7) ∉ (sCode 3).dev.prot.banks ∧
    (sCode 3).dev.erasedChans 3 = 0 ∧ (sCode 3).dev.retiredBanks 3 < (if (sCode 3).dev.codeT = 128 then 2 else 1) ∧ (sCode 3).dev.rankUsable 3 = true) ∧
    (admin (sCode 4) (oMem 0x6A [(8, 3), (9, 5)]) fmtErase levelOne ∧ 128 ≤ (sCode 4).dev.codeT ∧ (sCode 4).dev.erasedChans 3 = 0 ∧
    (sCode 4).dev.retiredBanks 3 = 0 ∧ (sCode 4).dev.rankUsable 3 = true) ∧
    (admin (st id) (oMem 0x6B [(16, 8192)]) pageFormat levelOne ∧ Desc.le (oMem 0x6B [(16, 8192)]).desc 16 8 < dataSpace ∧ (st id).dev.flag Reg.MEM_MIG 31 = false) := by
  refine ⟨?_, ?_, ?_, ?_⟩ <;> decide +kernel

def sBuf (b : Buffer) : State := media fun d => d.setBuf 3 b

/-- States that meet the hypotheses of Buffers. -/
theorem witness_Buffers :
    ((media id).live ∧ 0 < 2048 ∧ 2048 ≤ 33554432 ∧ ((media id).dev.takeFrom (6 - fitPool 2048) (fitPool 2048)).isSome = true) ∧
    (((st id).dev.takeFrom (6 - fitPool 33554432) (fitPool 33554432)) = none) ∧
    ((sBuf ⟨1, 5, 2, []⟩).live ∧ (sBuf ⟨1, 5, 2, []⟩).dev.handleOk 3 = true ∧ (sBuf ⟨1, 5, 2, []⟩).dev.buf 3 = ⟨1, 5, 2, []⟩ ∧ 2 < 65535) ∧
    ((sBuf ⟨2, 5, 2, []⟩).dev.handleOk 3 = true ∧ (sBuf ⟨2, 5, 2, []⟩).dev.buf 3 = ⟨2, 5, 2, []⟩ ∧ 1 < 2) ∧
    ((sBuf ⟨1, 4101, 0, []⟩).dev.handleOk 3 = true ∧ (sBuf ⟨1, 4101, 0, []⟩).dev.buf 3 = ⟨1, 4101, 0, []⟩ ∧ (1 ≤ 1 ∧ 4101 / 4096 = 1) ∧
    (sBuf ⟨1, 4101, 0, []⟩).dev.rangePoison ((sBuf ⟨1, 4101, 0, []⟩).dev.bufAddr 3) (bufSize 3) = false) ∧
    (admin (st id) (oMem 0x78 [(8, 3)]) (fun x => noLength x && zeroAt x 12 52) levelOne) ∧
    ((st id).dev.mayWrite .pf ∧ (st id).dev.flag Reg.BUN_CTRL 0 = false ∧ (st id).dev.badPool = none) := by
  refine ⟨?_, ?_, ?_, ?_, ?_, ?_, ?_⟩ <;> decide +kernel

def dmaCfg : Nat := 2 ^ 31 + 6 * 2 ^ 16 + 6 * 2 ^ 8 + 6

def sDma (f : Dev → Dev) : State := st fun d => f (((d.setReg (Reg.DMA_CH_CFG 3) dmaCfg).setFlag Reg.DMA_CTRL 0 true).setReg (Reg.DMA_CH_REC_LO 3) 0x90000 |>.setReg
    (Reg.DMA_CH_RING_LO 3) 0xA0000)

def copyDesc (n : Nat) : Desc := desc 0x90 [(8, 2), (12, n), (16, 0x1000), (24, 0x2000)]

def fillDesc (n : Nat) : Desc := desc 0x91 [(8, 2), (12, n), (16, 0x1234), (24, 0x2000)]

def sDmaPoll (pi : Nat) : State := sDma fun d => (d.hostWrite 0x90000 (leBytes 4 pi ++ leBytes 2 0)).hostWrite 0xA0000 (leBytes 64 (copyDesc 100).toNat)

def sDmaOff : State := sDma fun d => d.setFlag Reg.DMA_CTRL 0 false

/-- States that meet the hypotheses of DmaFetching. -/
theorem witness_DmaFetching :
    ((sDma id).live ∧ (sDma id).dev = (sDma id).dev.hostStores [] ∧ (sDma id).dev.dmaFetches 3 = true ∧ ((sDma id).dev.dmaChan 3).descs.length < 8 ∧
    Claims.dmaQuiet (sDma id).dev 3 ∧ dmaCheck (copyDesc 100) = 0 ∧ 0 < dmaBytes (copyDesc 100) ∧ opcodeOf (copyDesc 100) = 0x90) ∧
    (dmaCheck (fillDesc 100) = 0 ∧ 0 < dmaBytes (fillDesc 100) ∧ opcodeOf (fillDesc 100) = 0x91) ∧
    (((sDma id).dev.dmaChan 3).descs = [] ∧ ((sDma id).dev.dmaChan 3).cqWait = false ∧ dmaCheck (copyDesc (2 ^ 30 + 1)) ≠ 0 ∧
    ((sDma id).dev.dmaChan 3).written - ((sDma id).dev.dmaChan 3).consumed < (sDma id).dev.dmaCqSize 3) ∧
    (sDmaOff.live ∧ sDmaOff.dev.dmaFetches 3 = false ∧ (sDmaOff.dev.dmaChan 3).cqWait = false) ∧
    ((sDmaPoll 65).dev.dmaFetches 3 = true ∧ (sDmaPoll 65).dev.dmaGone 3 ((sDmaPoll 65).dev.dmaRec 3) 64 = false ∧ ((sDmaPoll 65).dev.dmaChan 3).cqWait = false ∧ ((sDmaPoll 65).dev.dmaChan 3).ci < 2 ^ 32 ∧
    (sDmaPoll 65).dev.spaceRead ((sDmaPoll 65).dev.dmaSpace 3) ((sDmaPoll 65).dev.dmaRec 3) 6 = leBytes 4 65 ++ leBytes 2 ((sDmaPoll 65).dev.dmaChan 3).epoch ∧
    2 ^ (sDmaPoll 65).dev.fld (Reg.DMA_CH_CFG 3) 12 8 < (65 + 2 ^ 32 - ((sDmaPoll 65).dev.dmaChan 3).ci) % 2 ^ 32) ∧
    ((sDmaPoll 1).dev.spaceRead ((sDmaPoll 1).dev.dmaSpace 3) ((sDmaPoll 1).dev.dmaRec 3) 6 = leBytes 4 1 ++ leBytes 2 0 ∧
    1 = (((sDmaPoll 1).dev.dmaChan 3).ci + 1) % 2 ^ 32 ∧ (sDmaPoll 1).dev.dmaGone 3 ((sDmaPoll 1).dev.dmaRing 3 + 0) 64 = false ∧ ((sDmaPoll 1).dev.dmaChan 3).descs = [] ∧
    copyDesc 100 = BitVec.ofNat 512 (leNum ((sDmaPoll 1).dev.spaceRead ((sDmaPoll 1).dev.dmaSpace 3) ((sDmaPoll 1).dev.dmaRing 3 + 0) 64))) := by
  refine ⟨?_, ?_, ?_, ?_, ?_, ?_⟩ <;> decide +kernel

def sBurst (x : DmaDesc) (f : Dev → Dev) : State := sDma fun d => f (d.setDmaChan 3 { d.dmaChan 3 with descs := [x] })

def newDesc (x : Desc) : DmaDesc := ⟨x, 0, 0, [], 0, false, false, none, false⟩

def lastBurst : DmaDesc := ⟨copyDesc 100, 100, 64, [(64, 36, 1)], 0, false, false, none, false⟩

def sResp : State := sBurst lastBurst fun d => d.setFlag (Reg.BLK_STATE 5) 0 false

def respOf (kind : Nat) : BurstResp := ⟨3, kind, 1, 0x2040, [], 0⟩

def sEngine (n : Nat) : State := sDma fun d => (d.setDmaEngine n).setFlag Reg.DMA_EVENTS 0 true

/-- States that meet the hypotheses of DmaBursts. -/
theorem witness_DmaBursts :
    ((sBurst (newDesc (copyDesc 100)) id).live ∧ (sBurst (newDesc (copyDesc 100)) id).dev.dmaEngine = 0 ∧
    ((sBurst (newDesc (copyDesc 100)) id).dev.dma.chans.map fun e => e.2.bursts).sum < 32 ∧ (sBurst (newDesc (copyDesc 100)) id).dev.dmaNext = some 3 ∧
    ((sBurst (newDesc (copyDesc 100)) id).dev.dmaChan 3).front = some (newDesc (copyDesc 100)) ∧ Claims.dmaQuiet (sBurst (newDesc (copyDesc 100)) id).dev 3 ∧
    opcodeOf (copyDesc 100) = 0x90 ∧ dmaSrcSpace (copyDesc 100) = 0) ∧
    ((sBurst (newDesc (fillDesc 100)) id).dev.dmaNext = some 3 ∧ ((sBurst (newDesc (fillDesc 100)) id).dev.dmaChan 3).front = some (newDesc (fillDesc 100)) ∧
    opcodeOf (fillDesc 100) = 0x91 ∧ dmaDstSpace (fillDesc 100) = 1 ∧ (sBurst (newDesc (fillDesc 100)) id).dev.rangePoison 0x2000 64 = false ∧
    (sBurst (newDesc (fillDesc 100)) id).dev.rangeLost 0x2000 64 = false) ∧
    (sResp.live ∧ sResp.dev.dmaEngine = 0 ∧ sResp.dev.flag (Reg.BLK_STATE 5) 0 = false ∧ (respOf 0).st = [] ∧ (respOf 0).t ≤ sResp.dev.tb.dt ∧
    (sResp.dev.dmaChan 3).descs = [lastBurst] ∧ lastBurst.flight = [(64, 36, 1)] ∧ lastBurst.left = 0 ∧ (respOf 0).phase = 1 ∧ (respOf 0).kind = 0 ∧
    sResp.dev.dmaLost lastBurst 1 64 36 = false ∧ sResp.dev.dmaGone 3 (sResp.dev.dmaCq 3 + (sResp.dev.dmaChan 3).written % sResp.dev.dmaCqSize 3 * 32) 32 = false ∧
    (sResp.dev.dmaChan 3).written - (sResp.dev.dmaChan 3).consumed < sResp.dev.dmaCqSize 3) ∧
    ((respOf 1).kind ≠ 0 ∧ (respOf 1).phase = 1 ∧ (respOf 1).st = []) ∧
    ((sEngine 1).live ∧ (sEngine 1).dev.dmaEngine = 1 ∧ (sEngine 1).dev.dmaOutstanding = false) ∧
    ((sEngine 2).dev.mayWrite .pf ∧ (sEngine 2).dev.dmaEngine = 2 ∧ (sEngine 2).dev.flag Reg.DMA_EVENTS 0 = true ∧
    bits (1 : W32).toNat 31 24 = (sEngine 2).dev.fld Reg.DMA_EVENTS 31 24) := by
  refine ⟨?_, ?_, ?_, ?_, ?_, ?_⟩ <;> decide +kernel

def sTimer : State := sDma fun d => { d with dma := { d.dma with timers := [(2, ⟨100, 0, none, none⟩)] } }

def enableWord : W32 := BitVec.ofNat 32 (dmaCfg + 9 * 2 ^ 24 - 9 * 2 ^ 24)

/-- States that meet the hypotheses of DmaRequests. -/
theorem witness_DmaRequests :
    ((sDma id).live ∧ 3 < 64 ∧ (sDma id).dev.dmaEn 3 = true ∧ (sDma id).dev.dmaReqs 3 < 65535) ∧
    (sTimer.dev.dmaEn 3 = true ∧ SMap.find sTimer.dev.dma.timers 2 = some ⟨100, 0, none, none⟩ ∧ 0 ≤ sTimer.dev.tb.dt) ∧
    ((sDma id).dev.mayWrite .pf ∧ 3 = (if false then 32 else 0) + 3 ∧ 3 < 32 ∧ 3 < 56) ∧
    (2 < 16 ∧ ((0 : W32).toNat = 0 ∨ 1000 ≤ (0 : W32).toNat) ∧ 1000 ≤ (1000 : W32).toNat) ∧
    (0 < (999 : W32).toNat ∧ (999 : W32).toNat < 1000) ∧
    ((st id).dev.mayWrite .pf ∧ (st id).dev.dmaEn 3 = false ∧ 6 ≤ bits enableWord.toNat 19 16 ∧ bits enableWord.toNat 19 16 ≤ 12 ∧ 6 ≤ bits enableWord.toNat 12 8 ∧
    bits enableWord.toNat 12 8 ≤ 16 ∧ 6 ≤ bits enableWord.toNat 4 0 ∧ bits enableWord.toNat 4 0 ≤ 16 ∧ dmaSelOk (bits enableWord.toNat 28 24) = true ∧
    (st id).dev.reg (Reg.DMA_CH_RING_LO 3) % 4096 = 0 ∧ (st id).dev.reg (Reg.DMA_CH_CQ_LO 3) % 4096 = 0 ∧ (st id).dev.reg (Reg.DMA_CH_REC_LO 3) % 64 = 0) := by
  refine ⟨?_, ?_, ?_, ?_, ?_, ?_⟩ <;> decide +kernel

def sInt (f : Dev → Dev) : State := st fun d => f (((d.setFlag (Reg.BLK_STATE 3) 0 false).setReg (Reg.INTC_SRC_CFG 300) (2 * 65536 + 5 * 256 + 7)).setFlag
    (Reg.INTC_MASK 9) 12 false |>.setFlag Reg.INTC_CTRL 0 true)

def sSent2 : State := sInt fun d => { d with host := { d.host with numVfs := 8 } } |> withFn 2 fun x => { x with bme := true, vecMask := 0, fnMask := false, d3 := false }

def sServed : State := sInt fun d => d.setIntStack 1 [(704, 3)]

/-- States that meet the hypotheses of IntSources. -/
theorem witness_IntSources :
    ((sInt id).live ∧ (sInt id).dev.flag (Reg.BLK_STATE 3) 0 = false ∧ 300 < 1024 ∧ intIsLevel 300 = false) ∧
    ((sInt fun d => d.intSetPending 300 true).dev.intPending 300 = true) ∧
    (sSent2.live ∧ sSent2.dev.flag (Reg.BLK_STATE 3) 0 = false ∧ sSent2.dev.intPending 300 = false ∧
    sSent2.dev.flag (Reg.INTC_MASK (300 / 32)) (300 % 32) = false ∧ sSent2.dev.flag Reg.INTC_CTRL 0 = true ∧
    sSent2.dev.intLevel (sSent2.dev.intTarget 300) < sSent2.dev.intPrio 300 ∧ sSent2.dev.intTarget 300 < 64 ∧
    Claims.msgOpen sSent2.dev (sSent2.dev.intTarget 300) (sSent2.dev.intVec 300) ∧
    SMap.get (fun _ => none) sSent2.dev.intc.lastMsg (32 * sSent2.dev.intTarget 300 + sSent2.dev.intVec 300) = none) ∧
    (intIsLevel 704 = true ∧ (sInt id).dev.inService 704 = false) ∧
    (sServed.live ∧ sServed.dev.flag (Reg.BLK_STATE 3) 0 = false ∧ intIsLevel 704 = true ∧ sServed.dev.inService 704 = true) := by
  refine ⟨?_, ?_, ?_, ?_, ?_⟩ <;> decide +kernel

/-- States that meet the hypotheses of CompleteWrites. -/
theorem witness_CompleteWrites :
    (sServed.live ∧ sServed.dev.flag (Reg.BLK_STATE 3) 0 = false ∧ Claims.pageMay sServed.dev .pf 1 ∧ 704 = bits (704 : W32).toNat 9 0 ∧
    sServed.dev.intStack 1 = (704, 3) :: []) ∧
    ((∀ e ∈ (sServed.dev.intStack 1).head?, e.1 ≠ bits (705 : W32).toNat 9 0) ∧ sServed.dev.fc.queue.length < 64) ∧
    ((∀ e ∈ (sServed.dev.intStack 2).head?, e.1 ≠ bits (704 : W32).toNat 9 0) ∧ Claims.pageMay sServed.dev .firmware 65) ∧
    (Claims.pageMay { sServed.dev with host := { sServed.dev.host with numVfs := 8 } } (.vf 8) 8) := by
  refine ⟨?_, ?_, ?_, ?_⟩ <;> decide +kernel

def full : List (Nat × Nat) := List.replicate 16 (1, 1)

/-- States that meet the hypotheses of IntPages. -/
theorem witness_IntPages :
    ((sInt id).live ∧ Claims.pageMay (sInt id).dev .pf 1 ∧ 300 = bits (300 : W32).toNat 9 0 ∧ (sInt id).dev.intTarget 300 ≠ 1) ∧
    (Claims.pageMay (sInt id).dev .pf 2 ∧ (sInt id).dev.intTarget 300 = 2 ∧ (sInt id).dev.intPending 300 = false) ∧
    ((sInt fun d => (d.setIntStack 2 full).intSetPending 300 true).dev.intPending 300 = true ∧ 16 ≤ ((sInt fun d => (d.setIntStack 2 full).intSetPending 300 true).dev.intStack 2).length) ∧
    ((sInt fun d => d.intSetPending 300 true).dev.intPending 300 = true ∧ ((sInt fun d => d.intSetPending 300 true).dev.intStack 2).length < 16) ∧
    ((sInt id).dev.intTarget 300 = 2 ∧ intIsLevel 300 = false) ∧
    ((sInt id).dev.intTarget 300 ≠ 1 ∧ intIsLevel 704 = true) := by
  refine ⟨?_, ?_, ?_, ?_, ?_, ?_⟩ <;> decide +kernel

def sHold : State := { sSent2 with dev := { sSent2.dev with intc := { sSent2.dev.intc with modHeld := [(32 * 2 + 5, some 0)], msgHeld := [(32 * 2 + 5, true)] } } }

/-- States that meet the hypotheses of IntMessages. -/
theorem witness_IntMessages :
    (sHold.live ∧ Claims.msgOpen sHold.dev 2 5 ∧ 5 < 32 ∧ SMap.get (fun _ => none) sHold.dev.intc.modHeld (32 * 2 + 5) = some 0 ∧ 0 ≤ sHold.dev.tb.dt) ∧
    (2 < 64 ∧ SMap.get (fun _ => false) sHold.dev.intc.msgHeld (32 * 2 + 5) = true) := by
  refine ⟨?_, ?_⟩ <;> decide +kernel

def sCond : State := st fun d => { d with fc := { d.fc with conds := [(24, 5)] } }

/-- States that meet the hypotheses of FaultSources. -/
theorem witness_FaultSources :
    ((st id).up ∧ 23 < 24 ∧ 0 < 24) ∧
    (7 < (if false then 4 else 8) ∧ 3 < (if true then 4 else 8) ∧ (∀ k ∈ List.range 4, ((st id).dev.tile k).jobs = []) ∧ (st id).dev.dma.chans = [] ∧
    SMap.find (st id).dev.fc.conds (if true then 32 + 3 else 36 + 3) = none) ∧
    (SMap.find sCond.dev.fc.conds 24 = some 5 ∧ fcSeverity 24 = some 2 ∧ sCond.dev.fc.queue.length < 64) := by
  refine ⟨?_, ?_, ?_⟩ <;> decide +kernel

/-- States that meet the hypotheses of ForcedFaults. -/
theorem witness_ForcedFaults :
    ((st id).live ∧ (st id).dev.mayWrite .pf ∧ 24 = bits (24 : W32).toNat 9 0 ∧ 24 < 512 ∧ fcSeverity 24 = some 2 ∧ fcSeverity 3 = some 4) ∧
    (512 ≤ bits (512 : W32).toNat 9 0 ∧ fcSeverity 511 = none) := by
  refine ⟨?_, ?_⟩ <;> decide +kernel

def sMast : State := st fun d => (d.setReg Reg.FC_MH_COUNT 3).setFlag Reg.FC_MH_SRC 31 true

/-- States that meet the hypotheses of MastheadRearm. -/
theorem witness_MastheadRearm :
    (sMast.live ∧ sMast.dev.mayWrite .pf ∧ (3 : W32).toNat = sMast.dev.reg Reg.FC_MH_COUNT ∧ sMast.dev.flag Reg.FC_MH_SRC 31 = true) ∧
    ((4 : W32).toNat ≠ sMast.dev.reg Reg.FC_MH_COUNT ∧ (st id).dev.flag Reg.FC_MH_SRC 31 = false) := by
  refine ⟨?_, ?_⟩ <;> decide +kernel

def oAdm (op : Nat) (l : List (Nat × Nat)) : RingOp := onRing 0 op l

def sReset : State := st fun d => { d with mgmt := { d.mgmt with resetDue := some 5 } }

/-- States that meet the hypotheses of ResetCommand. -/
theorem witness_ResetCommand :
    ((st id).live ∧ admin (st id) (oAdm 0x3F []) noFields levelOne ∧ (st id).dev.host.ops = [] ∧
    (((st id).dev.start (oAdm 0x3F []) adminKey).1.ring 0).isSome = true ∧ ((st id).dev.start (oAdm 0x3F []) adminKey).1.cq 0 = some cqOf ∧
    cqOf.full = false ∧ cqOf.src = 0xFFFF) ∧
    (sReset.live ∧ sReset.dev.mgmt.resetDue = some 5) := by
  refine ⟨?_, ?_⟩ <;> decide +kernel

def faultEv (sev : Nat) : FaultEvent := ⟨24, sev, 0, 0⟩

def sFault (sev : Nat) : State := st fun d => { d with fc := { d.fc with queue := [faultEv sev] } } |> fun d => d.setFld Reg.FC_CTRL 10 8 2

def sFlash (n : Nat) : State := st fun d => { d with fc := { d.fc with flashWait := [⟨0, [], false⟩], flashUsed := n, flashFrom := 0 } }

def oLog : RingOp := oAdm 0x7C [(2, 2), (16, 0x70000)]

/-- States that meet the hypotheses of Logs. -/
theorem witness_Logs :
    ((sFault 2).live ∧ (sFault 2).dev.mgmt.restarting = false ∧ (sFault 2).dev.fc.queue = faultEv 2 :: [] ∧ (sFault 2).dev.fld Reg.FC_CTRL 10 8 ≤ (faultEv 2).sev) ∧
    ((sFault 1).dev.fc.queue = faultEv 1 :: [] ∧ (faultEv 1).sev < (sFault 1).dev.fld Reg.FC_CTRL 10 8) ∧
    ((sFlash 99).live ∧ (sFlash 99).dev.mgmt.restarting = false ∧ (sFlash 99).dev.fc.flashWait = ⟨0, [], false⟩ :: [] ∧ 0 < (sFlash 99).dev.fc.flashUsed ∧
    (sFlash 99).dev.tb.dt < (sFlash 99).dev.fc.flashFrom + unitsPerSec ∧ (sFlash 99).dev.fc.flashUsed < 100 ∧ (sFlash 99).dev.fc.flashLog.length < 2048) ∧
    (100 ≤ (sFlash 100).dev.fc.flashUsed ∧ (sFlash 100).dev.fc.flashWait = ⟨0, [], false⟩ :: [] ∧ 0 < (sFlash 100).dev.fc.flashUsed) ∧
    (admin (st id) oLog (fun x => decide (Desc.byte x 8 ≤ 1) && zeroAt x 9 3 && Desc.le x 16 8 % 32 == 0 && zeroAt x 24 40) levelOne ∧ lengthOf oLog.desc ≠ 0) := by
  refine ⟨?_, ?_, ?_, ?_, ?_⟩ <;> decide +kernel

def sMgmt (f : Mgmt → Mgmt) (dt : Nat) : State := st fun d => { d with mgmt := f d.mgmt, tb := { d.tb with dt := dt } }

def hot : Sensors := ⟨(List.replicate 24 (some 1680)).set 3 none, List.replicate 16 none, List.replicate 7 none, List.replicate 8 0, 0⟩

/-- States that meet the hypotheses of CoresAndSensors. -/
theorem witness_CoresAndSensors :
    ((st id).live ∧ 0 ≤ (st id).dev.tb.dt ∧ (st id).dev.mgmt.restarting = false) ∧
    ((sMgmt id (10 ^ 15)).dev.mgmt.beatLost = false ∧ (sMgmt id (10 ^ 15)).dev.mgmt.restarting = false ∧
    (sMgmt id (10 ^ 15)).dev.mgmt.beatAt + 100000 * unitsPerUs ≤ (sMgmt id (10 ^ 15)).dev.tb.dt ∧ SMap.find (sMgmt id (10 ^ 15)).dev.fc.conds 28 = none) ∧
    ((sMgmt (fun x => { x with beatLost := true }) (10 ^ 15)).dev.mgmt.beatLost = true ∧
    (sMgmt (fun x => { x with beatLost := true }) (10 ^ 15)).dev.mgmt.beatAt + 5 * unitsPerSec ≤ (sMgmt (fun x => { x with beatLost := true }) (10 ^ 15)).dev.tb.dt) ∧
    ((sMgmt (fun x => { x with restarting := true }) 0).live ∧ (sMgmt (fun x => { x with restarting := true }) 0).dev.mgmt.restarting = true) ∧
    (hot.t ≤ (st id).dev.tb.dt ∧ 5 < 24 ∧ hot.temps.getD 5 none = some 1680 ∧ (16 * 105 : Int) ≤ 1680 ∧ hot.temps.getD 3 none = none) := by
  refine ⟨?_, ?_, ?_, ?_, ?_⟩ <;> decide +kernel

def oAddr (op : Nat) : RingOp := oAdm op [(16, 0x70000)]

def sChal (n dt : Nat) : State := sMgmt (fun x => { x with challenge := some n, ownerKey := none }) dt |> fun s => { s with dev := s.dev.setFlag (Reg.FN_STATUS 0) 1 false }

def sOwned : State := st fun d => (d.hostWrite 0x70000 [7])

/-- States that meet the hypotheses of CredentialAndKeys. -/
theorem witness_CredentialAndKeys :
    ((st id).live ∧ admin (st id) (oAddr 0x20) addrOnly levelPf) ∧
    ((sChal 5 9).live ∧ admin (sChal 5 9) (oAddr 0x21) addrOnly levelPf ∧ (sChal 5 9).dev.mgmt.challenge = some 5 ∧ 5 ≤ (sChal 5 9).dev.tb.dt) ∧
    (admin (sChal 9 5) (oAddr 0x21) addrOnly levelPf ∧ (sChal 9 5).dev.mgmt.challenge = some 9 ∧ (sChal 9 5).dev.tb.dt < 9 ∧
    (sChal 9 5).dev.flag (Reg.FN_STATUS 0) 1 = false) ∧
    (admin (st id) (oAdm 0x22 []) noFields levelOne) ∧
    (admin sOwned (oAddr 0x23) addrOnly levelOne ∧ ((((sOwned.dev.start (oAddr 0x23) adminKey).1.hostRead 0x70000 1036).drop 1024).all (· == 0)) = true ∧
    sOwned.dev.mgmt.ownerKey = none ∧ ((((sOwned.dev.start (oAddr 0x23) adminKey).1.hostRead 0x70000 1036).drop 512).take 512).all (· == 0) = true) ∧
    (admin (sMgmt (fun x => { x with ownerKey := some [1] }) 0) (oAddr 0x23) addrOnly levelOne ∧ (sMgmt (fun x => { x with ownerKey := some [1] }) 0).dev.mgmt.ownerKey = some [1]) ∧
    (admin (st id) (oAdm 0x38 [(8, 4), (16, 99)]) (fun x => noLength x && decide (Desc.le x 8 2 < 4096) && zeroAt x 10 6 && zeroAt x 32 32) levelTwo ∧
    ((st id).dev.start (oAdm 0x38 [(8, 4), (16, 99)]) adminKey).1.owns FnState.keySlots 0 (opOf (st id) (oAdm 0x38 [(8, 4), (16, 99)]) adminKey).level 4 = true) ∧
    (admin (st id) (oAdm 0x39 [(8, 4)]) (fun x => noLength x && decide (Desc.le x 8 2 < 4096) && zeroAt x 10 54) levelTwo) := by
  refine ⟨?_, ?_, ?_, ?_, ?_, ?_, ?_, ?_⟩ <;> decide +kernel

def oFw (first : Nat) : RingOp := oAdm 0x30 [(8, 64), (12, 16), (16, 0x70000), (24, first)]

def fwFmt (x : Desc) : Bool := noLength x && decide (Desc.le x 12 4 ≤ 65536) && decide (Desc.byte x 24 < 2) && zeroAt x 25 39

def slotOf_ (state : Nat) (l : List Byte) : FwSlot := ⟨state, 0, flashPut [] 0 l⟩

def sSlots (a b : FwSlot) : State := sMgmt (fun x => { x with slotA := a, slotB := b, writer := 1 }) 0

def sCfg (l : List Byte) : State := st fun d => d.hostWrite 0x70000 l

def attFmt (x : Desc) : Bool := addrOnly x && addrOf x % 64 == 0

/-- States that meet the hypotheses of FirmwareAndAttestation. -/
theorem witness_FirmwareAndAttestation :
    ((st id).live ∧ admin (st id) (oFw 1) fwFmt levelOne ∧ Desc.le (oFw 1).desc 12 4 ≠ 0 ∧ Desc.le (oFw 1).desc 8 4 + 16 ≤ slotBytes ∧
    (sSlots (slotOf_ 0 []) (slotOf_ 3 [])).dev.inactive.state ≠ 2 ∧ admin (sSlots (slotOf_ 0 []) (slotOf_ 3 [])) (oFw 0) fwFmt levelOne) ∧
    (admin (sSlots (slotOf_ 2 []) (slotOf_ 3 [])) (oFw 1) fwFmt levelOne ∧ (sSlots (slotOf_ 2 []) (slotOf_ 3 [])).dev.inactive.state = 2) ∧
    (admin (sSlots (slotOf_ 0 []) (slotOf_ 3 [])) (oAdm 0x31 []) noFields levelOne ∧
    (sSlots (slotOf_ 0 []) (slotOf_ 3 [])).dev.fwCheck (sSlots (slotOf_ 0 []) (slotOf_ 3 [])).dev.inactive ≠ 0) ∧
    ((sSlots (slotOf_ 1 []) (slotOf_ 3 [0x44, 0x58, 0x46, 0x57])).dev.mgmt.slotA.state ≠ 2 ∧ (sSlots (slotOf_ 1 []) (slotOf_ 3 [0x44, 0x58, 0x46, 0x57])).dev.mgmt.slotB.state ≠ 2 ∧
    leNum (((sSlots (slotOf_ 1 []) (slotOf_ 3 [0x44, 0x58, 0x46, 0x57])).dev.activeSlot.read 0 13).take 4) = 0x57465844) ∧
    (admin (sSlots (slotOf_ 2 []) (slotOf_ 3 [])) (oAdm 0x32 []) noFields levelOne ∧ (sSlots (slotOf_ 2 []) (slotOf_ 3 [])).dev.mgmt.slotA.state = 2) ∧
    (admin (sCfg []) (oAddr 0x33) addrOnly levelOne) ∧
    (admin (st id) (oAddr 0x3C) attFmt levelTwo ∧ admin (st id) (oAdm 0x3D [(12, 4096), (16, 0x70000)]) (fun x => noLength x && zeroAt x 8 4 && zeroAt x 24 40) levelTwo) ∧
    (1 < 2 ∧ [(1 : Byte)].length ≤ 128 ∧ [(1 : Byte)] ≠ [] ∧ 0 + 1 ≤ slotBytes ∧ (st id).dev.inactive.state ≠ 2) := by
  refine ⟨?_, ?_, ?_, ?_, ?_, ?_, ?_, ?_⟩ <;> decide +kernel

def oDog : RingOp := oAdm 0x2C [(8, 100)]

def orderNone : Order := { orderOf [] with triggers := 3 }

def sDog (r : Option Order) : State := sMgmt (fun x => { x with wdog := some 5, order := r, readyAt := some 0, hostSeen := false, waitS := 0 }) 10

/-- States that meet the hypotheses of Watchdogs. -/
theorem witness_Watchdogs :
    ((st id).live ∧ admin (st id) oDog (fun x => noLength x && zeroAt x 12 52 && (Desc.le x 8 4 == 0 || decide (100 ≤ Desc.le x 8 4) && decide (Desc.le x 8 4 ≤ 600000))) levelOne) ∧
    ((sDog none).live ∧ (sDog none).dev.mgmt.restarting = false ∧ (sDog none).dev.mgmt.wdog = some 5 ∧ 5 ≤ (sDog none).dev.tb.dt ∧ (sDog none).dev.mgmt.order = none) ∧
    ((sDog (some orderNone)).dev.mgmt.order = some orderNone ∧ (sDog (some orderNone)).dev.soState ≠ 2 ∧ bit orderNone.triggers 1 = true ∧ bit orderNone.triggers 0 = true ∧
    soEntries orderNone.image = []) ∧
    ((sDog none).dev.mgmt.readyAt = some 0 ∧ (sDog none).dev.mgmt.hostSeen = false ∧ 0 + (sDog none).dev.mgmt.waitS * unitsPerSec ≤ (sDog none).dev.tb.dt) := by
  refine ⟨?_, ?_, ?_, ?_⟩ <;> decide +kernel

def orderImg : List Byte := ((pctBytes [(0, 4, 0x4F535844), (4, 2, 1), (6, 1, 1), (8, 4, 9), (12, 4, 128)]).take 128) ++ List.replicate 512 0

def oStore (n : Nat) : RingOp := oAdm 0x34 [(12, n), (16, 0x70000)]

def storeFmt (x : Desc) : Bool := noLength x && zeroAt x 8 4 && zeroAt x 24 40

def sStore (k : Option (List Byte)) : State := st fun d => { d.hostWrite 0x70000 orderImg with mgmt := { d.mgmt with ownerKey := k } }

def sSo (n : Nat) : State := st fun d => { d.setSoState n with mgmt := { d.mgmt with order := some orderNone } }

def oControl (a : Nat) : RingOp := oAdm 0x35 [(8, a)]

def egress : Egress := ⟨0, 7, 0, 3, 1000, List.replicate 42 0, some 0, 0, 0⟩

def sEgress : State := media fun d => { (((d.setSoState 2).setReg (Reg.QUEUE_CFG 3) (2 ^ 31)).setReg (Reg.QUEUE_LIMIT 3) 100).dataPut (d.bufAddr 0 + 20) (leBytes 4 5000) with
    mgmt := { d.mgmt with order := some { orderNone with egress := [egress] } } }

/-- States that meet the hypotheses of StandingOrders. -/
theorem witness_StandingOrders :
    ((sStore (some [1])).live ∧ admin (sStore (some [1])) (oStore 640) storeFmt levelOne ∧ Desc.le (oStore 640).desc 12 4 = 640 ∧
    orderImg = ((sStore (some [1])).dev.start (oStore 640) adminKey).1.hostRead 0x70000 640 ∧ (sStore (some [1])).dev.soState ≠ 2 ∧
    (sStore (some [1])).dev.mgmt.ownerKey.isSome = true ∧ (sStore none).dev.soBad orderImg 640 = none) ∧
    (admin (sStore none) (oStore 640) storeFmt levelOne ∧ (sStore none).dev.mgmt.ownerKey = none ∧ (sSo 2).dev.soState = 2) ∧
    ((sSo 2).live ∧ admin (sSo 2) (oControl 0) soControlFormat levelOne ∧ Desc.byte (oControl 0).desc 8 = 0 ∧ (sSo 2).dev.soState = 2) ∧
    (admin (sSo 2) (oControl 1) soControlFormat levelOne ∧ Desc.byte (oControl 1).desc 8 = 1) ∧
    (admin (sSo 1) (oControl 2) soControlFormat levelOne ∧ Desc.byte (oControl 2).desc 8 = 2 ∧ (sSo 1).dev.soState = 1 ∧ admin (sSo 2) (oControl 2) soControlFormat levelOne) ∧
    (sEgress.live ∧ sEgress.dev.mgmt.order = some { orderNone with egress := [egress] } ∧ [egress][0]? = some egress ∧ sEgress.dev.soState = 2 ∧
    sEgress.dev.mgmt.restarting = false ∧ egress.rate ≠ 0 ∧ egress.seg = some 0 ∧ egress.nextAt ≤ sEgress.dev.tb.dt ∧
    1316 = min 1316 (sEgress.dev.segBytes 0 - egress.sent) ∧ sEgress.dev.egressBound egress.queue egress.port = true ∧
    sEgress.dev.egressRoom egress.queue 1358 = true ∧ egress.sent + 1316 < sEgress.dev.segBytes 0) := by
  refine ⟨?_, ?_, ?_, ?_, ?_, ?_⟩ <;> decide +kernel

def sPm : State := st fun d => { ((d.setFlag Reg.PM_CTRL 0 true).setFlag (Reg.PM_EVT 2 1) 31 true).setFlag (Reg.BLK_STATE 7) 0 false with
    pm := { d.pm with window := some ⟨100, 0, none, none⟩, counters := [(17, 2 ^ 48 - 1)] } }

/-- States that meet the hypotheses of Monitors. -/
theorem witness_Monitors :
    (sPm.live ∧ sPm.dev.mayWrite .pf ∧ 39 < 40 ∧ 7 < 8) ∧
    (sPm.dev.pmShown 0 39 = true ∧ 7 < 8 ∧ sPm.dev.pmShown 3 5 = false) ∧
    (sPm.dev.flag Reg.PM_CTRL 0 = true ∧ sPm.dev.flag (Reg.PM_EVT 2 1) 31 = true ∧ 2 ^ 48 ≤ SMap.get (fun _ => 0) sPm.dev.pm.counters (8 * 2 + 1) + 1 ∧
    SMap.get (fun _ => 0) sPm.dev.pm.counters (8 * 2 + 1) + 0 < 2 ^ 48) ∧
    (sPm.dev.pm.window = some ⟨100, 0, none, none⟩ ∧ 0 ≤ sPm.dev.tb.dt ∧ sPm.dev.flag (Reg.BLK_STATE 7) 0 = false) := by
  refine ⟨?_, ?_, ?_, ?_⟩ <;> decide +kernel

def sLost : State := sBurst ⟨copyDesc 100, 100, 64, [(5, 36, 2)], 0, false, false, none, false⟩ id

def sOps : State := { dev := ((st id).dev.start (onRing 64 0x21 [(8, 5)]) ctxKey).1, pending := [] }

/-- States that meet the hypotheses of ScanAndTimeouts. -/
theorem witness_ScanAndTimeouts :
    (sLost.live ∧ sLost.dev.dmaEngine = 0 ∧ (sLost.dev.dmaChan 3).descs.length = 1 ∧ ((sLost.dev.dmaChan 3).descs.all fun y => y.flight == [(5, 36, 2)]) = true) ∧
    ((sDma id).dev.dmaEngine = 0 ∧ (sDma id).dev.dmaFetches 3 = true ∧ (sDma id).dev.dmaSpace 3 = 0) ∧
    (sOps.live ∧ (sOps.dev.host.ops.find? fun p => p.ring == 64 && p.result.isNone).isSome = true) := by
  refine ⟨?_, ?_, ?_⟩ <;> decide +kernel

def nexts (i : Instr) (s : State) : Bool := match exec i s with
    | .next _ => true
    | _ => false

def sStopped : State := st fun d => { d with pins := { d.pins with fatalStop := true } }

def sInReset : State := st fun d => { d with pins := { d.pins with inReset := true } }

/-- Commands of each frame that answer a next state, and states for the statements about resets and idling. -/
theorem witness_Frames :
    ((st id).pending = [] ∧ (st id).up ∧ sInReset.dev.pins.inReset = true) ∧
    (Claims.outside (.heartbeat 0) = false ∧ Claims.outsideReset (.heartbeat 0) = false ∧ nexts (.heartbeat 0) sInReset = true) ∧
    (sStopped.dev.pins.fatalStop = true ∧ Claims.outside (.copy 3 (copyDesc 8)) = false ∧ Claims.halts (.copy 3 (copyDesc 8)) = true) ∧
    (Memory.wf (sDma id).dev.dataMem = true ∧ nexts (.copy 3 (copyDesc 8)) (sDma id) = true ∧ nexts (.memRequest (memIn true 4096)) (st id) = true) ∧
    (nexts (.createCq oCreateCq) (st id) = true ∧ nexts (.rxBuffer (oBuffer 128)) (st id) = true) ∧
    (nexts (.registerWrite .pf 0x200000 1) (st id) = true ∧ nexts (.fcForce .pf 24) (st id) = true) ∧
    (nexts .heartbeatMissed (st id) = true ∧ nexts (.gateListStart 2) (sGate ⟨none, some gateList, 0⟩) = true) ∧
    (nexts (.powerDownEntry 1 0) (sLow 0 id) = true ∧ nexts (.allocation 2048 5) (media id) = true) ∧
    (nexts (.intSourceEvent 300) (sInt id) = true ∧ nexts (.ringPoll 64 []) (st id) = true) ∧
    (nexts (.pad (recOf 0 1)) sEncPair = true ∧ nexts (.createGroup oGroup) (media id) = true ∧ nexts (.send (oSend opSend []) true) (sFlow 0) = true ∧
    nexts (.openFlow oOpen) (sOpening 0) = true) := by
  refine ⟨?_, ?_, ?_, ?_, ?_, ?_, ?_, ?_, ?_, ?_⟩ <;> decide +kernel

/-- States with the invariant of every step: an up one whose step answers a next state. -/
theorem witness_EveryStepKeepsInvariant : Claims.Inv (st id) ∧ nexts (.heartbeat 0) (st id) = true :=
  ⟨⟨by decide +kernel, by decide +kernel⟩, by decide +kernel⟩

/-- An order that the owner's signature verifies has nothing bad. -/
theorem witness_SignedOrder (h : Config.verify [1] (orderImg.take 128) (orderImg.drop 128) = true) :
    ((sStore (some [1])).dev.start (oStore 640) adminKey).1.soBad orderImg 640 = none := by
  have h1 : ((sStore (some [1])).dev.start (oStore 640) adminKey).1.ownerSigned (orderImg.take (640 - 512))
      (orderImg.drop (640 - 512)) = true := h
  rw [Dev.soBad, h1]
  decide +kernel

/-- A slot with a firmware image of 0 bytes, not yet checked. -/
def sSigned : State :=
  sSlots ⟨0, 0, (((pctBytes [(0, 4, 0x57465844), (4, 2, 1), (6, 2, 128), (12, 1, 3)]).take 128 ++
    List.replicate 512 (0 : Byte)).zipIdx).map fun x => (x.2, x.1)⟩ (slotOf_ 3 [])

/-- A firmware image that the manufacturer's signature verifies passes the check. -/
theorem witness_SignedImage (h : Config.verify (Config.fusedKey 0) (sSigned.dev.inactive.read 0 128)
      (sSigned.dev.inactive.read 128 512) = true) : sSigned.dev.fwCheck sSigned.dev.inactive = 0 := by
  have n : recNum (sSigned.dev.inactive.read 0 128) 20 4 = 0 := by decide +kernel
  simp only [Dev.fwCheck, n, Nat.add_zero, h, Bool.not_true, Bool.false_eq_true, if_false]
  decide +kernel

/-- The packet that this state's flow sends next fits its queue's frame limit. -/
theorem witness_FrontPacketFits :
    ((sPacket.dev.advanceTo 0).frontPacket flowPacket sendOp.desc).length + 4 ≤ sPacket.dev.frameLimit flowPacket.queue := by
  have h1 : isSend sendOp.desc = true := by decide +kernel
  have h2 : flowPacket.template.length + (sPacket.dev.advanceTo 0).nextLen flowPacket sendOp.desc + 4 ≤
      sPacket.dev.frameLimit flowPacket.queue := by decide +kernel
  have h3 := (sPacket.dev.advanceTo 0).sendPacket_length_le flowPacket sendOp.desc
    ((sPacket.dev.advanceTo 0).nextLen flowPacket sendOp.desc) (by decide +kernel)
  rw [Dev.frontPacket, if_pos h1]
  omega

/-- A configuration record of zeros with its CRC. -/
def cfgBody : List Byte := pctBytes [(0, 4, 0x46435844), (4, 2, 1)] ++ List.replicate 764 0
def goodCfg : List Byte := cfgBody ++ leBytes 4 (crc32 cfgBody)

theorem goodCfg_crc : recNum goodCfg 1020 4 = crc32 (goodCfg.take 1020) := by
  have n : cfgBody.length = 1020 := by decide +kernel
  have m (c : Nat) (h : c < 2 ^ 32) : leNum (leBytes 4 c) = c := by
    simp [leBytes, leNum]
    omega
  simp only [recNum, goodCfg, List.take_append_of_le_length (Nat.le_of_eq n.symm),
    List.drop_append_of_le_length (Nat.le_of_eq n.symm)]
  rw [List.drop_of_length_le (Nat.le_of_eq n), List.take_of_length_le (Nat.le_of_eq n)]
  exact m _ (BitVec.isLt _)

/-- That record has no bad field. -/
theorem witness_GoodConfig : (st id).dev.configBad goodCfg = none := by
  have h : configBadFields goodCfg = [] := by
    simp only [configBadFields, goodCfg_crc, bne_self_eq_false]
    decide +kernel
  simp only [Dev.configBad, h]
  decide +kernel

/-- A patch whose checks against the ROM find nothing is accepted: the ROM's words are free. -/
theorem witness_GoodPatch (h : (patchOfImage patchImg).failed = none) :
    ((sPatch id).dev.patchVerdict patchImg).1 = 0 := by
  have v : ¬ recNum patchImg 12 4 < (sPatch id).dev.mgmt.minPatchSv := by decide +kernel
  rw [Dev.patchVerdict, if_neg v, h]

/-- A record without the magic number is bad. -/
theorem witness_BadConfig (d : Dev) (r : List Byte) (h : recNum r 0 4 ≠ 0x46435844) : d.configBad r ≠ none := by
  have stays : ∀ (l : List Nat) (m : Nat), l.foldl (fun m k => some (match m with
      | some j => min j k
      | none => k)) (some m) ≠ none := by
    intro l
    induction l with
    | nil => intro m; simp
    | cons a l ih => intro m; exact ih _
  have b : (recNum r 0 4 != 0x46435844) = true := by simpa using h
  simp only [Dev.configBad, configBadFields, b, if_true, List.cons_append, List.nil_append, List.foldl_cons]
  exact stays _ _

/-- Host memory with nothing written holds such a record. -/
theorem witness_NoConfig : recNum (((sCfg []).dev.start (oAddr 0x33) adminKey).1.hostRead 0x70000 1024) 0 4 ≠ 0x46435844 := by
  decide +kernel

/-! ### Single steps with the results of the spec's own examples and tables -/

/-- The device with TB_EVENTS as in the example of R92. -/
def sEvents : State := st fun d => d.setReg Reg.TB_EVENTS 0x06000015

/-- R92's example at t0 + 3 µs: SEQ differs, so nothing is cleared and STALE_CLEAR is set. -/
theorem test_stale_clear :
    (after (.sqcClear .pf Reg.TB_EVENTS 0x05000011) sEvents).dev.reg Reg.TB_EVENTS = 0x06000015 ∧
    (after (.sqcClear .pf Reg.TB_EVENTS 0x05000011) sEvents).dev.flag (Reg.BLK_STATUS 2) 1 = true := by decide +kernel

/-- R92's example at t0 + 5 µs. -/
theorem test_current_clear :
    (after (.sqcClear .pf Reg.TB_EVENTS 0x06000015) sEvents).dev.reg Reg.TB_EVENTS = 0x06000000 := by decide +kernel

/-- R457's example: the alias word 0x0038_A80C is bit 3 of INTC_PENDING word 20, and source 645 stays pending. -/
theorem test_alias_of_pending :
    (after (.aliasWrite .pf 0x38A80C 0) (st fun d => d.setReg (Reg.INTC_PENDING 20) 0x28)).dev.reg (Reg.INTC_PENDING 20) =
      0x20 := by decide +kernel

/-- R528's IDCODE. -/
theorem test_idcode : (after .idcode (st id)).dev.out = [.jtag 0x196403C3] := by decide +kernel

/-- Admitted costs of rung 1 and of rung 10 in the ladder example of R116, and its analysis. -/
theorem test_admitted_costs :
    [100, 150, 220, 260, 25].map (admitted 3840 2160 50 1 16) = [415, 623, 913, 1079, 104] ∧
    [100, 150, 220, 260].map (admitted 480 270 50 1 16) = [7, 10, 15, 17] := by decide +kernel

/-- R291's example: 62 records of a SEND of 1,000,000 bytes occupy 1,001,364 TCP bytes. -/
theorem test_tcp_bytes : (({ flowOf 0 with record := 16384 } : Flow).tcpBytes 1000000) = 1001364 := by decide +kernel

/-- The increments of the weighted example of R353: frames of 1,518 bytes with FCS at weights 3, 1 and 2. -/
theorem test_weighted_increments :
    [3, 1, 2].map (fun w => (st fun d => d.setReg (Reg.HOIST_WEIGHT 40) w).dev.tagInc 0 40 1514) =
      [524971, 1574912, 787456] := by decide +kernel

/-- The map of the two translations of R366: SPARES 2, and sections 0 to 3 pinned to tile 2. -/
def sMap : State := st fun d =>
  (([0, 1, 2, 3].foldl (fun e k => e.setReg (Reg.MEM_SECTION k) 6) d).setFld Reg.MAP_CTRL 3 1 2).mapFollow

/-- R366's two translations and the page after them: physical rank and frame, then the first one's bank and row. -/
theorem test_translations :
    [0x92345, 0x280003, 0x280004].map sMap.dev.pageFrame = [(22, 74856), (24, 49152), (3, 56173)] ∧
    frameBank 74856 = 5 ∧ frameRow 74856 = 584 := by decide +kernel

/-- R214's example: a patch of 100 microwords, 3 match settings and 2 Signal Book entries. -/
theorem test_patch_body : patchBody (pctBytes [(16, 2, 100), (18, 2, 3), (20, 2, 2)]) = 1828 := by decide +kernel

/-- The DMA engine's example of R440: LAST_BEAT, PHASE 1, KIND 5. -/
theorem test_dma_events :
    (after .dmaEngineStopped (sDma fun d => (d.setDmaEngine 1).setFld Reg.DMA_EVENTS 31 24 6)).dev.reg Reg.DMA_EVENTS =
      0x07000001 := by decide +kernel

/-- R440's example: an error on the last beat of a write, KIND 5. -/
theorem test_dma_detail : dmaDetail ⟨copyDesc 12288, 12288, 12288, [], 0, false, false, none, false⟩ 1 5 = 0x55 := by
  decide +kernel

/-- R31: DT starts at 0, and one cycle of 781.25 MHz adds about 1.28 ns: 83,886.08 units of 2^-16 ns. -/
theorem test_time_cycle :
    State.reset.dev.tb.dt = 0 ∧ (match step State.reset with
      | .next t => decide (t.dev.tb.dt = 83886 ∨ t.dev.tb.dt = 83887)
      | _ => false) = true := by decide +kernel

/-- The contexts and rate control of R242's example: HEVC at 960 × 540 and 50 pictures per second, CBR at 1,500,000 b/s. -/
def rcExample : RcParams := ⟨1, 0, 0, 10, 51, 38, 38, 38, 0, 1500000, 0, 1000000, 0⟩
def ctxExample : Ctx := { enc with codec := 1, width := 960, height := 540, rateNum := 50, rateDen := 1, regions := 1 }
def regionExample : Region :=
  { decodeRegion 0 with
    xs := [60, 60, 60, 60, 60, 60, 60, 60, 20], budget := 30000, q := 38, share := 400000,
    ests := [3700, 3700, 4400, 5000, 5400, 4900, 3900, 1300, 400],
    acts := [3800, 3900, 4900, 5800, 6100, 5400, 4200, 1400, 450] }
def jobExample : Job :=
  { jobOf 0 true [{ regionExample with stage := 1 }] with
    key := false, ptype := 1, q0 := 38, gain := 8, step := 4, bPre := 30000, budget := 30000, hrd := 600000 }

/-- The rows of that example: their b and QIDX; from row 7 the region is in stage 1. -/
theorem test_budget_rows :
    let l := (List.range 9).foldl (fun l r => (l.headD regionExample).before rcExample 1 63 jobExample r :: l) []
    l.reverse.map Region.q = [38, 38, 38, 38, 40, 42, 46, 63, 63] ∧
    (l.headD regionExample).bs = [3600, 3586, 3568, 3412, 3023, 2250, 900] ∧
    l.reverse.map Region.stage = [0, 0, 0, 0, 0, 0, 0, 1, 1] := by decide +kernel

/-- What that picture of 35,950 bits leaves: fullness 594,050, no filler, DETAIL 0x1308 and D = 5,950. -/
theorem test_budget_end :
    let e := ctxExample.rcEnd { rcFirst 1 rcExample with cur := rcExample, full := 600000 } jobExample 35950
    e.1.full = 594050 ∧ e.2.1 = 0 ∧ e.2.2 = 0x1308 ∧ e.1.debt = 5950 := by decide +kernel

/-- The 8K VVC example of chapter 07: 2,761 units, two regions of 32 CTU columns, 34 rows, 71 buffers for each picture. -/
theorem test_eight_k_context :
    admitted 8192 4320 30 1 16 260 = 2761 ∧ splitOf 8192 4320 30 1 16 260 1500000000 = 2 ∧
    (List.range 2).map (regionSpan (blocksOf 3 8192) 2) = [(0, 32), (32, 64)] ∧ blocksOf 3 4320 = 34 ∧
    refBuffers 8192 4320 0 = 71 := by decide +kernel

/-- R47's example: at d = 100.25 s the PTS is 9,022,500; the 27 MHz value is 300 times it. -/
theorem test_media_time :
    ticksOf (1700000100250000000 * 65536) (1700000000 * 10 ^ 9 * 65536) = 9022500 ∧
    pcrOf (1700000100250000000 * 65536) (1700000000 * 10 ^ 9 * 65536) = 2706750000 := by decide +kernel

end Sys2Proof.Tests
end

/-! Completions of the Interrupt Hub (spec/19_interrupt_hub.md R449-R455): what announcing sources keeps, a completion
that pops, and one that is refused. -/

namespace Sys2Proof.SMap

variable {α : Type}

/-! ### Scans of a sparse map, which see every entry and not the first of each key alone -/

theorem any_insert {p : Nat × α → Bool} {k : Nat} (hp : ∀ v, p (k, v) = false) (v : α) :
    ∀ m : SMap α, (insert m k v).any p = m.any p
  | [] => by simp only [insert, List.any_cons, hp, Bool.false_or]
  | (j, w) :: r => by
    unfold insert
    split
    · rename_i h; subst h; simp only [List.any_cons, hp]
    · split
      · simp only [List.any_cons, hp, Bool.false_or]
      · simp only [List.any_cons, any_insert hp v r]

theorem any_erase {p : Nat × α → Bool} {k : Nat} (hp : ∀ v, p (k, v) = false) :
    ∀ m : SMap α, (erase m k).any p = m.any p
  | [] => rfl
  | (j, w) :: r => by
    unfold erase
    split
    · rename_i h; subst h; simp only [List.any_cons, hp, Bool.false_or, any_erase hp r]
    · simp only [List.any_cons, any_erase hp r]

/-- A write to a key whose entries a scan passes over leaves the scan's answer, in every map. -/
theorem any_set [DecidableEq α] {p : Nat × α → Bool} {k : Nat} (hp : ∀ v, p (k, v) = false) (d : Nat → α)
    (m : SMap α) (v : α) : (set d m k v).any p = m.any p := by
  unfold set
  split
  · exact any_erase hp m
  · exact any_insert hp v m

end Sys2Proof.SMap

namespace Sys2Proof.Machine

/-! ### What announcing sources keeps of the Interrupt Hub (R449-R452) -/

/-- `e` has the in-service stacks of `d`, and its registers but for INTC_EVENTS. -/
structure Dev.KeepsHub (d e : Dev) : Prop where
  inServ : e.intc.inServ = d.intc.inServ
  reg : ∀ a, a ≠ Reg.INTC_EVENTS → e.reg a = d.reg a

/-- No commit is pending in the Interrupt Hub's window: no vector's safe point changes a register (R93). -/
abbrev Dev.hubSettled (d : Dev) : Prop := d.flag (Reg.BLK_STATE 3) 0 = false

namespace Dev.KeepsHub

theorem refl (d : Dev) : d.KeepsHub d := ⟨rfl, fun _ _ => rfl⟩

theorem trans {d e f : Dev} (h : d.KeepsHub e) (g : e.KeepsHub f) : d.KeepsHub f :=
  ⟨g.inServ.trans h.inServ, fun a ha => (g.reg a ha).trans (h.reg a ha)⟩

theorem of_regs {d e : Dev} (hs : e.intc.inServ = d.intc.inServ) (hr : e.regs = d.regs) : d.KeepsHub e :=
  ⟨hs, fun a _ => Dev.reg_congr hr a⟩

variable {d e : Dev} (h : d.KeepsHub e)
include h

theorem fld {a : Nat} (ha : a ≠ Reg.INTC_EVENTS) (hi lo : Nat) : e.fld a hi lo = d.fld a hi lo := by
  unfold Dev.fld; rw [h.reg a ha]

theorem flag {a : Nat} (ha : a ≠ Reg.INTC_EVENTS) (b : Nat) : e.flag a b = d.flag a b := by
  unfold Dev.flag; rw [h.reg a ha]

theorem settled (hb : d.hubSettled) : e.hubSettled := (h.flag (by decide) 0).trans hb

theorem intStack (k : Nat) : e.intStack k = d.intStack k := by unfold Dev.intStack; rw [h.inServ]

theorem intPending (s : Nat) : e.intPending s = d.intPending s :=
  h.flag (by unfold Reg.INTC_PENDING Reg.INTC_EVENTS; omega) _

theorem intLevel (k : Nat) : e.intLevel k = d.intLevel k := by
  unfold Dev.intLevel
  rw [h.intStack, h.fld (by unfold Reg.INTC_THRESHOLD Reg.INTC_EVENTS; omega)]

/-- Two operations one after the other, the second with no commit pending either. -/
theorem andThen {f : Dev} (hb : d.hubSettled) (g : e.hubSettled → e.KeepsHub f) : d.KeepsHub f :=
  h.trans (g (h.settled hb))

end Dev.KeepsHub

theorem Dev.KeepsHub.foldl {β : Type} {f : Dev → β → Dev} (h : ∀ (e : Dev) x, e.hubSettled → e.KeepsHub (f e x)) :
    ∀ (l : List β) (d : Dev), d.hubSettled → d.KeepsHub (l.foldl f d)
  | [], d, _ => .refl d
  | x :: l, d, hb => (h d x hb).andThen hb (Dev.KeepsHub.foldl h l (f d x))

theorem Dev.setEvent_keepsHub (d : Dev) (b : Nat) : d.KeepsHub (d.setEvent Reg.INTC_EVENTS b) :=
  ⟨by rw [Dev.setEvent_intc], fun _ ha => d.reg_setEvent_ne ha.symm b⟩

/-- Without a pending commit a vector's safe point changes nothing. -/
theorem Dev.safePoint3_keepsHub {d : Dev} (hb : d.hubSettled) (u : Nat) : d.KeepsHub (d.safePoint 3 u) := by
  have h : d.safePoint 3 u = d := if_pos (by
    rw [show d.flag (Reg.BLK_STATE 3) 0 = false from hb, Bool.not_false, Bool.true_or, Bool.true_or])
  rw [h]
  exact .refl d

theorem Dev.mirror_keepsHub (d : Dev) (k : Nat) : d.KeepsHub (d.mirror k) := by
  unfold Dev.mirror
  split
  · exact .refl d
  · split
    · exact .of_regs rfl rfl
    · exact .of_regs (by rw [Dev.hostPut_intc]) (by rw [Dev.hostPut_regs])

/-- A held wake-up of a function in D3hot sets INTC_EVENTS and no other register (R452). -/
theorem Dev.pme_keepsHub (d : Dev) (f : Nat) (x : FnState) :
    d.KeepsHub (((d.setFn f x).emit (.pme f)).setEvent Reg.INTC_EVENTS 1).pinWake :=
  have h1 : d.KeepsHub ((d.setFn f x).emit (.pme f)) := .of_regs rfl rfl
  (h1.trans (Dev.setEvent_keepsHub _ 1)).trans (.of_regs rfl rfl)

theorem Dev.message_keepsHub {d : Dev} (hb : d.hubSettled) (f v : Nat) : d.KeepsHub (d.message f v) := by
  unfold Dev.message
  dsimp only
  split
  · have held (e : Dev) (he : d.KeepsHub e) : d.KeepsHub (if (d.fn f).d3 && !(d.fn f).pmeStatus then
        (((e.setFn f { e.fn f with pmeStatus := true }).emit (.pme f)).setEvent Reg.INTC_EVENTS 1).pinWake else e) := by
      split
      · exact he.trans (e.pme_keepsHub f _)
      · exact he
    apply held
    split <;> exact .of_regs rfl rfl
  · refine Dev.KeepsHub.andThen ?_ hb fun he => Dev.safePoint3_keepsHub he _
    exact .of_regs rfl rfl

theorem Dev.moderate_keepsHub {d : Dev} (hb : d.hubSettled) (f v : Nat) (wake : Bool) :
    d.KeepsHub (d.moderate f v wake) := by
  unfold Dev.moderate
  split
  · split
    · split
      · exact .refl d
      · exact .of_regs rfl rfl
    · exact Dev.message_keepsHub hb f v
  · exact Dev.message_keepsHub hb f v

theorem Dev.announce_keepsHub {d : Dev} (hb : d.hubSettled) (s : Nat) (wake : Bool) :
    d.KeepsHub (d.announce s wake) := by
  unfold Dev.announce
  split
  · exact (d.mirror_keepsHub _).andThen hb fun he =>
      (Dev.safePoint3_keepsHub he _).andThen he fun hf => Dev.moderate_keepsHub hf _ _ wake
  · exact .refl d

/-- Announcing what has become deliverable moves no stack and no register but INTC_EVENTS. -/
theorem Dev.intUpdate_keepsHub (d0 : Dev) {d : Dev} (hb : d.hubSettled) : d.KeepsHub (Dev.intUpdate d0 d) := by
  unfold Dev.intUpdate
  refine Dev.KeepsHub.foldl (fun e s he => ?_) _ d hb
  split
  · exact Dev.announce_keepsHub he s false
  · exact .refl e

/-! ### The line of a level source (R445, R469) -/

/-- A write of a register without events leaves the windows' event lines. -/
theorem Dev.setReg_winEvent (d : Dev) {a : Nat} (h : isSqc a = false) (v w : Nat) :
    (d.setReg a v).winEvent w = d.winEvent w := by
  unfold Dev.winEvent Dev.setReg
  refine SMap.any_set (fun x => ?_) _ _ _
  unfold isSqc at h
  cases hr : regRow a with
  | none => exact Bool.and_false _
  | some y =>
    rw [hr] at h
    exact (congrArg (_ && ·) h).trans (Bool.and_false _)

/-- The lines follow the windows' events and the Fault Collector's registers alone. -/
theorem Dev.intLine_congr {d e : Dev} (hw : ∀ w, e.winEvent w = d.winEvent w)
    (hr : ∀ a, 0x400000 ≤ a → e.reg a = d.reg a) (s : Nat) : e.intLine s = d.intLine s := by
  have hs (i b : Nat) : e.flag (Reg.FC_STICKY i) b = d.flag (Reg.FC_STICKY i) b := by
    unfold Dev.flag; rw [hr _ (by unfold Reg.FC_STICKY; omega)]
  have hm (x : Nat) : e.fcMasked x = d.fcMasked x := by
    unfold Dev.fcMasked Dev.flag; rw [hr _ (by unfold Reg.FC_MASK; omega)]
  unfold Dev.intLine Dev.stickyAny
  simp only [hw, hs, hm]

/-! ### A completion that pops (R454, R455) -/

/-- The stack of target `k` cut to `r`: TOP follows, and QUIET counts. -/
def Dev.intPop (d : Dev) (k : Nat) (r : List (Nat × Nat)) (quiet : Bool) : Dev :=
  let d1 := (d.setIntStack k r).intTop k
  if quiet then d1.count (Reg.INTC_VANISHED k) 1 else d1

/-- The completion of source `s`, before what it makes deliverable is announced: a level source's pending bit follows its
line again. -/
def Dev.intServed (d : Dev) (k s : Nat) (r : List (Nat × Nat)) (quiet : Bool) : Dev :=
  let e := d.intPop k r quiet
  if intIsLevel s then e.intSetPending s (e.intLine s) else e

theorem Dev.intComplete_top {d : Dev} {k s p : Nat} {r : List (Nat × Nat)} (h : d.intStack k = (s, p) :: r)
    (quiet : Bool) : d.intComplete k s quiet = Dev.intUpdate d (d.intServed k s r quiet) := by
  unfold Dev.intComplete
  rw [h]
  exact if_pos rfl

theorem Dev.intPop_inServ (d : Dev) (k : Nat) (r : List (Nat × Nat)) (quiet : Bool) :
    (d.intPop k r quiet).intc.inServ = SMap.set (fun _ => []) d.intc.inServ k r := by
  have h1 : ((d.setIntStack k r).intTop k).intc = (d.setIntStack k r).intc := Dev.setReg_intc ..
  cases quiet
  · exact congrArg IntcState.inServ h1
  · exact congrArg IntcState.inServ ((Dev.count_intc ..).trans h1)

theorem Dev.intTop_reg_ne (d : Dev) {k a : Nat} (h : Reg.INTC_TOP k ≠ a) : (d.intTop k).reg a = d.reg a :=
  d.reg_setReg_ne h _

theorem Dev.intPop_reg_ne (d : Dev) {k a : Nat} (r : List (Nat × Nat)) (quiet : Bool) (ht : Reg.INTC_TOP k ≠ a)
    (hv : Reg.INTC_VANISHED k ≠ a) : (d.intPop k r quiet).reg a = d.reg a := by
  have h1 : ((d.setIntStack k r).intTop k).reg a = d.reg a := (d.setIntStack k r).intTop_reg_ne ht
  cases quiet
  · exact h1
  · exact (Dev.reg_count_ne _ hv 1).trans h1

theorem Dev.intPop_vanished (d : Dev) (k : Nat) (r : List (Nat × Nat)) (quiet : Bool) :
    (d.intPop k r quiet).reg (Reg.INTC_VANISHED k) =
      if quiet then (d.reg (Reg.INTC_VANISHED k) + 1) % 2 ^ 32 else d.reg (Reg.INTC_VANISHED k) := by
  have h1 : ((d.setIntStack k r).intTop k).reg (Reg.INTC_VANISHED k) = d.reg (Reg.INTC_VANISHED k) :=
    (d.setIntStack k r).intTop_reg_ne (by unfold Reg.INTC_TOP Reg.INTC_VANISHED; omega)
  cases quiet
  · exact h1
  · exact (Dev.reg_setReg_self _ _ _).trans (by rw [h1]; rfl)

/-- TOP and VANISHED of a page hold no events. -/
theorem isSqc_page : ∀ k < 66, isSqc (Reg.INTC_TOP k) = false ∧ isSqc (Reg.INTC_VANISHED k) = false := by
  decide +kernel

theorem Dev.intPop_winEvent (d : Dev) {k : Nat} (hk : k < 66) (r : List (Nat × Nat)) (quiet : Bool) (w : Nat) :
    (d.intPop k r quiet).winEvent w = d.winEvent w := by
  obtain ⟨ht, hv⟩ := isSqc_page k hk
  have h1 : ((d.setIntStack k r).intTop k).winEvent w = d.winEvent w := (d.setIntStack k r).setReg_winEvent ht _ w
  cases quiet
  · exact h1
  · exact (Dev.setReg_winEvent _ hv _ w).trans h1

/-- A completion moves no line. -/
theorem Dev.intPop_intLine (d : Dev) {k : Nat} (hk : k < 66) (r : List (Nat × Nat)) (quiet : Bool) (s : Nat) :
    (d.intPop k r quiet).intLine s = d.intLine s :=
  Dev.intLine_congr (d.intPop_winEvent hk r quiet)
    (fun a ha => d.intPop_reg_ne r quiet (by unfold Reg.INTC_TOP; omega) (by unfold Reg.INTC_VANISHED; omega)) s

theorem Dev.intServed_intStack (d : Dev) (k s : Nat) (r : List (Nat × Nat)) (quiet : Bool) :
    (d.intServed k s r quiet).intStack k = r := by
  have h : (d.intServed k s r quiet).intc = (d.intPop k r quiet).intc := by
    simp only [Dev.intServed, apply_ite Dev.intc, Dev.intSetPending_intc, ite_self]
  unfold Dev.intStack
  rw [h, Dev.intPop_inServ, SMap.get_set_self]

/-- Outside the pending bits, a completion changes the registers that popping changes. -/
theorem Dev.intServed_reg (d : Dev) {s a : Nat} (h : Reg.INTC_PENDING (s / 32) ≠ a) (k : Nat) (r : List (Nat × Nat))
    (quiet : Bool) : (d.intServed k s r quiet).reg a = (d.intPop k r quiet).reg a := by
  unfold Dev.intServed Dev.intSetPending
  dsimp only
  split
  · exact Dev.reg_setFlag_ne _ h _ _
  · rfl

theorem Dev.intServed_intPending (d : Dev) {k s : Nat} (hk : k < 66) (hs : intIsLevel s = true) (r : List (Nat × Nat))
    (quiet : Bool) : (d.intServed k s r quiet).intPending s = d.intLine s := by
  unfold Dev.intServed Dev.intSetPending Dev.intPending
  dsimp only
  rw [if_pos hs, Dev.flag_setFlag_self _ _ _ _ (by omega), d.intPop_intLine hk]

section
variable {d : Dev} {k s : Nat} (hs : s < 1024)
include hs

/-- The registers of a page lie beyond the pending words. -/
theorem Reg.INTC_PENDING_ne_page {a : Nat} (ha : 0x310000 ≤ a) : Reg.INTC_PENDING (s / 32) ≠ a := by
  unfold Reg.INTC_PENDING; omega

theorem Dev.intServed_threshold (r : List (Nat × Nat)) (quiet : Bool) :
    (d.intServed k s r quiet).reg (Reg.INTC_THRESHOLD k) = d.reg (Reg.INTC_THRESHOLD k) := by
  rw [d.intServed_reg (Reg.INTC_PENDING_ne_page hs (by unfold Reg.INTC_THRESHOLD; omega)),
    d.intPop_reg_ne r quiet (by unfold Reg.INTC_TOP Reg.INTC_THRESHOLD; omega)
      (by unfold Reg.INTC_VANISHED Reg.INTC_THRESHOLD; omega)]

theorem Dev.intServed_settled (hk : k < 66) (hb : d.hubSettled) (r : List (Nat × Nat)) (quiet : Bool) :
    (d.intServed k s r quiet).hubSettled := by
  unfold Dev.hubSettled Dev.flag at hb ⊢
  rw [d.intServed_reg (Reg.INTC_PENDING_ne_page hs (by decide)),
    d.intPop_reg_ne r quiet (by unfold Reg.INTC_TOP Reg.BLK_STATE; omega)
      (by unfold Reg.INTC_VANISHED Reg.BLK_STATE; omega), hb]

theorem Dev.intServed_intLevel (r : List (Nat × Nat)) (quiet : Bool) :
    (d.intServed k s r quiet).intLevel k = r.foldl (fun m e => max m e.2) (d.fld (Reg.INTC_THRESHOLD k) 3 0) := by
  unfold Dev.intLevel Dev.fld
  rw [Dev.intServed_intStack, Dev.intServed_threshold hs]

theorem Dev.intServed_vanished (r : List (Nat × Nat)) (quiet : Bool) :
    (d.intServed k s r quiet).reg (Reg.INTC_VANISHED k) =
      if quiet then (d.reg (Reg.INTC_VANISHED k) + 1) % 2 ^ 32 else d.reg (Reg.INTC_VANISHED k) := by
  rw [d.intServed_reg (Reg.INTC_PENDING_ne_page hs (by unfold Reg.INTC_VANISHED; omega)), Dev.intPop_vanished]

end

/-! ### A NOTE that is raised (R462, R465, R470) -/

/-- The event queue of the Fault Collector takes a fault, or counts it as dropped. -/
def Dev.enqueueFault (d : Dev) (src sev info : Nat) : Dev :=
  if d.fc.queue.length < 64 then
    { d with fc := { d.fc with queue := d.fc.queue ++ [⟨src, sev, d.tb.dt, info⟩] } }
  else d.count Reg.FC_QUEUE_DROPS 1

/-- A source of severity NOTE: its sticky bit, its count, the Masthead, the event queue and FAULT_N. -/
theorem Dev.raise_note (d : Dev) {src : Nat} (h : fcSeverity src = some 0) (info : Nat) :
    d.raise src info = (((((d.setEvent (Reg.FC_STICKY (src / 24)) (src % 24)).count (Reg.FC_COUNT 0) 1).masthead
      src 0 info).enqueueFault src 0 info)).pinFault := by
  unfold Dev.raise
  rw [h]
  rfl

theorem Dev.enqueueFault_reg_ne (d : Dev) (src sev info : Nat) {a : Nat} (h : Reg.FC_QUEUE_DROPS ≠ a) :
    (d.enqueueFault src sev info).reg a = d.reg a := by
  unfold Dev.enqueueFault
  split
  · rfl
  · exact d.reg_count_ne h 1

/-- The Masthead's registers stand together. -/
theorem Dev.masthead_reg_ne (d : Dev) (src sev info : Nat) {a : Nat} (h : a < Reg.FC_MH_SRC ∨ Reg.FC_MH_COUNT < a) :
    (d.masthead src sev info).reg a = d.reg a := by
  have ne {b : Nat} (hb : Reg.FC_MH_SRC ≤ b ∧ b ≤ Reg.FC_MH_COUNT) : b ≠ a := by omega
  unfold Dev.masthead
  dsimp only
  split
  · rw [Dev.reg_count_ne _ (ne (by decide)), Dev.reg_setFlag_ne _ (ne (by decide))]
  · simp only [Dev.reg_setReg_ne _ (ne (b := Reg.FC_MH_SRC) (by decide)),
      Dev.reg_setReg_ne _ (ne (b := Reg.FC_MH_DT0) (by decide)), Dev.reg_setReg_ne _ (ne (b := Reg.FC_MH_DT1) (by decide)),
      Dev.reg_setReg_ne _ (ne (b := Reg.FC_MH_DT2) (by decide)),
      Dev.reg_setReg_ne _ (ne (b := Reg.FC_MH_INFO_LO) (by decide)),
      Dev.reg_setReg_ne _ (ne (b := Reg.FC_MH_INFO_HI) (by decide))]

/-- Of the registers outside the Masthead, its count and its drops, a NOTE changes its sticky word alone. -/
theorem Dev.raise_note_reg (d : Dev) {src : Nat} (h : fcSeverity src = some 0) (info : Nat) {a : Nat}
    (ha : a < Reg.FC_MH_SRC ∨ Reg.FC_QUEUE_DROPS < a) :
    (d.raise src info).reg a = (d.setEvent (Reg.FC_STICKY (src / 24)) (src % 24)).reg a := by
  unfold Reg.FC_MH_SRC Reg.FC_QUEUE_DROPS at ha
  rw [d.raise_note h, Dev.reg_congr (Dev.pinFault_regs _),
    Dev.enqueueFault_reg_ne _ _ _ _ (by unfold Reg.FC_QUEUE_DROPS; omega),
    Dev.masthead_reg_ne _ _ _ _ (by unfold Reg.FC_MH_SRC Reg.FC_MH_COUNT; omega),
    Dev.reg_count_ne _ (by unfold Reg.FC_COUNT; omega)]

/-- A NOTE changes no register below the Fault Collector's. -/
theorem Dev.raise_note_reg_below (d : Dev) {src : Nat} (h : fcSeverity src = some 0) (info : Nat) {a : Nat}
    (ha : a < 0x400000) : (d.raise src info).reg a = d.reg a := by
  rw [d.raise_note_reg h info (.inl (by unfold Reg.FC_MH_SRC; omega)),
    Dev.reg_setEvent_ne _ (by unfold Reg.FC_STICKY; omega)]

theorem Dev.raise_note_sticky (d : Dev) {src : Nat} (h : fcSeverity src = some 0) (info : Nat) :
    (d.raise src info).flag (Reg.FC_STICKY (src / 24)) (src % 24) = true := by
  unfold Dev.flag
  rw [d.raise_note_reg h info (.inr (by unfold Reg.FC_QUEUE_DROPS Reg.FC_STICKY; omega))]
  exact d.flag_setEvent_self _ _ (Nat.mod_lt _ (by decide))

theorem Dev.raise_note_queue (d : Dev) {src : Nat} (h : fcSeverity src = some 0) (info : Nat)
    (hq : d.fc.queue.length < 64) : (d.raise src info).fc.queue = d.fc.queue ++ [⟨src, 0, d.tb.dt, info⟩] := by
  rw [d.raise_note h, Dev.pinFault_fc, Dev.enqueueFault, Dev.masthead_fc, Dev.count_fc, Dev.setEvent_fc, if_pos hq,
    Dev.masthead_tb, Dev.count_tb, Dev.setEvent_tb]

/-! ### A completion that is refused (R454) -/

theorem Dev.intComplete_other {d : Dev} {k s : Nat} (h : ∀ e ∈ (d.intStack k).head?, e.1 ≠ s) (quiet : Bool) :
    d.intComplete k s quiet = (d.setEvent Reg.INTC_EVENTS 0).raise 364 (s * 2 ^ 16 + k) := by
  unfold Dev.intComplete
  cases hd : d.intStack k with
  | nil => rfl
  | cons e r => exact if_neg (h e (by rw [hd]; rfl))

/-- INTC_STACK is a NOTE (R460). -/
theorem fcSeverity_intcStack : fcSeverity 364 = some 0 := by decide

/-! ### The page of a target (R453) -/

/-- The function in which a page access counts, none for the cores. -/
def Writer.pageFn : Writer → Option Nat
  | .pf => some 0
  | .firmware => none
  | .vf f => some f

/-- A write by a writer who may write the page reaches the page. -/
theorem Dev.pageAccess_may {d : Dev} {w : Writer} {k off : Nat} (h : Claims.pageMay d w k)
    (hf : d.pins.fatalStop = false) (h4 : off % 4 = 0) (ho : off < 0x400) (v : Nat) :
    d.pageAccess w k off v = d.intPage (Writer.pageFn w) k off v := by
  obtain ⟨hk, ⟨hm, hw⟩ | ⟨rfl, h0, hn⟩⟩ := h
  · have hp : d.pageAccess w k off v = d.winWrite (isFirmware w) 3 (0x10000 + 0x400 * k + off) v := by
      have ha : d.pageAccess w k off v = d.access w (0x310000 + 0x400 * k + off) v := by
        rcases hm with rfl | ⟨rfl, -⟩ <;> exact if_neg (by omega)
      rw [ha, Dev.access_may hm hf (by omega) (by omega), show (0x310000 + 0x400 * k + off) / 0x100000 = 3 by omega,
        show (0x310000 + 0x400 * k + off) % 0x100000 = 0x10000 + 0x400 * k + off by omega]
    rw [hp]
    unfold Dev.winWrite
    dsimp only
    rw [if_neg (by omega), if_neg (by omega), if_neg (by omega), if_neg (by omega), if_neg (by omega), if_neg (by omega),
      if_pos (by omega), show (0x10000 + 0x400 * k + off - 0x10000) / 1024 = k by omega,
      show (0x10000 + 0x400 * k + off) % 1024 = off by omega, if_neg (by omega)]
    rcases hm with rfl | ⟨rfl, -⟩
    · exact if_neg (by rw [isFirmware, Bool.not_true, Bool.and_false]; exact Bool.false_ne_true)
    · have hk64 : k < 64 := hw.resolve_right (by decide)
      exact if_neg (by rw [decide_eq_false (by omega), Bool.false_and]; exact Bool.false_ne_true)
  · have hopen : ¬ (k = 0 ∨ d.host.numVfs < k ∨ d.pins.fatalStop = true) := by
      simp only [hf, Bool.false_eq_true, or_false]
      omega
    unfold Dev.pageAccess Dev.access
    dsimp only
    rw [if_neg (by omega), if_pos rfl, if_neg (by omega), if_neg hopen, if_neg (by omega),
      if_pos (by omega), show 0x1000 + off - 0x1000 = off by omega]
    rfl

/-- COMPLETE by a writer who may write the page completes the source that it names. -/
theorem completes_complete {s : State} {w : Writer} {k : Nat} {v : W32} {p : Dev → Prop} (h : s.live)
    (hm : Claims.pageMay s.dev w k)
    (hp : p (s.dev.under (s.dev.intComplete k (bits v.toNat 9 0) (bit v.toNat 16)))) :
    Completes (.complete w k v) s p := by
  refine completes_keep (fun d => d.pageAccess w k 0x04 v.toNat) rfl h.1 ?_
  rw [Dev.pageAccess_may hm h.2 (by decide) (by decide)]
  exact hp

/-- Settles O52: a completion of the top entry pops it and announces only afterwards, and announcing keeps the stacks and
every register but INTC_EVENTS; any other completion is one event and one NOTE. -/
theorem completeWrites : Obligations.CompleteWrites := by
  intro s w k src p r v hlive hb hmay hsrc
  have hs : src < 1024 := hsrc ▸ bits_lt v.toNat 9 0
  have hk : k < 66 := hmay.1
  refine ⟨fun htop => completes_complete hlive hmay ?_, fun hother => completes_complete hlive hmay ?_⟩
  · rw [← hsrc, Dev.intComplete_top htop]
    generalize bit v.toNat 16 = quiet
    have keep := Dev.intUpdate_keepsHub s.dev (Dev.intServed_settled hs hk hb r quiet)
    refine ⟨?_, ?_, fun hl => ?_, ?_⟩
    · exact (keep.intStack k).trans (Dev.intServed_intStack ..)
    · exact (keep.intLevel k).trans (Dev.intServed_intLevel hs r quiet)
    · exact (keep.intPending src).trans (s.dev.intServed_intPending hk hl r quiet)
    · exact (keep.reg _ (by unfold Reg.INTC_VANISHED Reg.INTC_EVENTS; omega)).trans
        (Dev.intServed_vanished hs r quiet)
  · rw [← hsrc, Dev.intComplete_other hother]
    have note := fcSeverity_intcStack
    refine ⟨?_, ?_, ?_, fun hq => ?_, ?_⟩
    · unfold Dev.intStack
      rw [Dev.under_intc, Dev.raise_intc, Dev.setEvent_intc]
    · rw [Dev.under_flag, Dev.flag, Dev.raise_note_reg_below _ note _ (by decide)]
      exact s.dev.flag_setEvent_self _ _ (by decide)
    · rw [Dev.under_flag]
      exact Dev.raise_note_sticky _ note _
    · rw [Dev.under_fc, Dev.raise_note_queue _ note _ (by rw [Dev.setEvent_fc]; exact hq), Dev.setEvent_fc, Dev.setEvent_tb]
    · rw [Dev.under_reg, Dev.raise_note_reg_below _ note _ (by unfold Reg.INTC_VANISHED; omega),
        Dev.reg_setEvent_ne _ (by unfold Reg.INTC_VANISHED Reg.INTC_EVENTS; omega)]

end Sys2Proof.Machine

/-! A fault of any severity, the Masthead's re-arming and forced faults (spec/20_fault_collection.md R462, R465, R466,
R471, R472). -/

namespace Sys2Proof.Machine

/-! ### A write that issues a command -/

/-- A write of a register whose fields issue commands, and neither clear events nor are staged. -/
theorem Dev.rowWrite_cmd {d : Dev} {fw : Bool} {w : Nat} {row : RegRow} {ix : List Nat} {a v : Nat}
    (hs : row.flds.any (fun f => f.acc == .sqc) = false) (hl : row.flds.any (fun f => f.acc == .live) = false)
    (hc : row.flds.any (fun f => f.acc == .wo || f.acc == .w1p) = true) :
    d.rowWrite fw w row ix a v = d.cmdWrite fw w row.name (ix.headD 0) v := by
  unfold Dev.rowWrite
  rw [hs, hl, hc]
  rfl

/-- A permitted write of a command register of the Fault Collector. -/
theorem Dev.access_fcCmd {d : Dev} {w : Writer} (h : d.mayWrite w) (hf : d.pins.fatalStop = false) {a v : Nat}
    {row : RegRow} (hr : regRow a = some (row, [])) (ha : a % 4 = 0) (hw : a / 0x100000 = 4)
    (ho : a % 0x100000 < 0x40000) (hs : row.flds.any (fun f => f.acc == .sqc) = false)
    (hl : row.flds.any (fun f => f.acc == .live) = false)
    (hc : row.flds.any (fun f => f.acc == .wo || f.acc == .w1p) = true) :
    d.access w a v = if row.name = "FC_MH_REARM" then d.rearm v else d.force v := by
  rw [Dev.access_reg h hf ha (by omega) ho (by omega) (by omega) (by omega), Dev.regWrite_row hr,
    Dev.rowWrite_cmd hs hl hc, regWin, hw]
  rfl

/-- A permitted write of FC_MH_REARM. -/
theorem Dev.access_rearm {d : Dev} {w : Writer} (h : d.mayWrite w) (hf : d.pins.fatalStop = false) (v : Nat) :
    d.access w Reg.FC_MH_REARM v = d.rearm v :=
  (Dev.access_fcCmd h hf (row := ⟨"FC_MH_REARM", 0x2C, [], false, [Machine.fld 31 0 .wo 0]⟩) (by decide +kernel)
    (by decide) (by decide) (by decide) (by decide) (by decide) (by decide)).trans (if_pos rfl)

/-- A permitted write of FC_FORCE. -/
theorem Dev.access_force {d : Dev} {w : Writer} (h : d.mayWrite w) (hf : d.pins.fatalStop = false) (v : Nat) :
    d.access w Reg.FC_FORCE v = d.force v :=
  (Dev.access_fcCmd h hf (row := ⟨"FC_FORCE", 0x30, [], false, [Machine.fld 9 0 .wo 0]⟩) (by decide +kernel)
    (by decide) (by decide) (by decide) (by decide) (by decide) (by decide)).trans (if_neg (by decide))

/-! ### FATAL_STOP (R471) -/

/-- Of the registers, FATAL_STOP changes FC_STATE alone. -/
theorem Dev.fatalStop_regs (d : Dev) (src info : Nat) :
    (d.fatalStop src info).regs = (d.setFlag Reg.FC_STATE 0 true).regs := by
  unfold Dev.fatalStop
  dsimp only
  split
  · rfl
  · exact Dev.usedBySticky_regs _

theorem Dev.fatalStop_stopped (d : Dev) (src info : Nat) : (d.fatalStop src info).pins.fatalStop = true := by
  unfold Dev.fatalStop
  dsimp only
  split
  · rw [Dev.setFlag_pins]
  · rw [Dev.usedBySticky_pins, Dev.setFlag_pins]

theorem Dev.withFaultN_stopped (d : Dev) (on : Bool) :
    ({ d with pins := { d.pins with faultN := on } } : Dev).pins.fatalStop = d.pins.fatalStop := rfl

/-- The level of FAULT_N does not touch FATAL_STOP (R468, R471). -/
theorem Dev.pinFault_stopped (d : Dev) : d.pinFault.pins.fatalStop = d.pins.fatalStop := d.withFaultN_stopped _

/-- What firmware writes to the flash log is not taken from the event queue. -/
theorem Dev.fatalStop_queue (d : Dev) (src info : Nat) : (d.fatalStop src info).fc.queue = d.fc.queue := by
  unfold Dev.fatalStop
  dsimp only
  split
  · rw [Dev.setFlag_fc]
  · rw [Dev.setFlag_fc]

/-! ### A source that is raised (R462, R465, R470) -/

/-- A severity is one of NOTE to FATAL, and numbers a counter FC_COUNT (R460). -/
theorem fcSeverity_le : ∀ src < 640, ∀ sev ∈ fcSeverity src, sev ≤ 4 := by decide +kernel

/-- The first fault after re-arming is recorded with its source and severity. -/
theorem Dev.masthead_first {d : Dev} (h : d.flag Reg.FC_MH_SRC 31 = false) (src sev info : Nat) :
    (d.masthead src sev info).reg Reg.FC_MH_SRC = (2 ^ 31 + sev * 2 ^ 16 + src) % 2 ^ 32 := by
  unfold Dev.masthead
  rw [h]
  dsimp only
  rw [if_neg Bool.false_ne_true, Dev.reg_setReg_ne _ (by decide), Dev.reg_setReg_ne _ (by decide),
    Dev.reg_setReg_ne _ (by decide), Dev.reg_setReg_ne _ (by decide), Dev.reg_setReg_ne _ (by decide),
    Dev.reg_setReg_self]

/-- What a fault marks before it is queued: its sticky bit, the count of its severity and the Masthead. -/
def Dev.markFault (d : Dev) (src sev info : Nat) : Dev :=
  ((d.setEvent (Reg.FC_STICKY (src / 24)) (src % 24)).count (Reg.FC_COUNT sev) 1).masthead src sev info

section
variable {d : Dev} {src sev info : Nat}

/-- A source that is not reserved marks its fault and queues it, and a FATAL one enters FATAL_STOP. -/
theorem Dev.raise_some (h : fcSeverity src = some sev) : d.raise src info =
    (if sev = 4 then ((d.markFault src sev info).enqueueFault src sev info).fatalStop src info
     else (d.markFault src sev info).enqueueFault src sev info).pinFault := by
  unfold Dev.raise
  rw [h]
  rfl

/-- Of the registers, queueing a fault and stopping change the drops and the state alone. -/
theorem Dev.raise_reg (h : fcSeverity src = some sev) {a : Nat} (hs : Reg.FC_STATE ≠ a)
    (hq : Reg.FC_QUEUE_DROPS ≠ a) :
    (d.raise src info).reg a = (d.markFault src sev info).reg a := by
  rw [Dev.raise_some h, Dev.reg_congr (Dev.pinFault_regs _)]
  split
  · rw [Dev.reg_congr (Dev.fatalStop_regs ..), Dev.reg_setFlag_ne _ hs, Dev.enqueueFault_reg_ne _ _ _ _ hq]
  · rw [Dev.enqueueFault_reg_ne _ _ _ _ hq]

theorem Dev.raise_sticky (hn : src < 640) (h : fcSeverity src = some sev) :
    (d.raise src info).flag (Reg.FC_STICKY (src / 24)) (src % 24) = true := by
  have hsev : sev ≤ 4 := fcSeverity_le src hn sev h
  unfold Dev.flag
  rw [Dev.raise_reg h (by unfold Reg.FC_STATE Reg.FC_STICKY; omega) (by unfold Reg.FC_QUEUE_DROPS Reg.FC_STICKY; omega),
    Dev.markFault, Dev.masthead_reg_ne _ _ _ _ (.inr (by unfold Reg.FC_MH_COUNT Reg.FC_STICKY; omega)),
    Dev.reg_count_ne _ (by unfold Reg.FC_COUNT Reg.FC_STICKY; omega)]
  exact d.flag_setEvent_self _ _ (Nat.mod_lt _ (by decide))

theorem Dev.markFault_queue : (d.markFault src sev info).fc.queue = d.fc.queue := by
  rw [Dev.markFault, Dev.masthead_fc, Dev.count_fc, Dev.setEvent_fc]

theorem Dev.markFault_tb : (d.markFault src sev info).tb = d.tb := by
  rw [Dev.markFault, Dev.masthead_tb, Dev.count_tb, Dev.setEvent_tb]

theorem Dev.enqueueFault_queue (hq : d.fc.queue.length < 64) :
    (d.enqueueFault src sev info).fc.queue = d.fc.queue ++ [⟨src, sev, d.tb.dt, info⟩] := by
  unfold Dev.enqueueFault
  rw [if_pos hq]

theorem Dev.raise_queue (h : fcSeverity src = some sev) (hq : d.fc.queue.length < 64) :
    (d.raise src info).fc.queue = d.fc.queue ++ [⟨src, sev, d.tb.dt, info⟩] := by
  have queued : ((d.markFault src sev info).enqueueFault src sev info).fc.queue =
      d.fc.queue ++ [⟨src, sev, d.tb.dt, info⟩] := by
    rw [Dev.enqueueFault_queue (by rw [Dev.markFault_queue]; exact hq), Dev.markFault_queue, Dev.markFault_tb]
  rw [Dev.raise_some h, Dev.pinFault_fc]
  split
  · rw [Dev.fatalStop_queue, queued]
  · exact queued

/-- A FATAL source stops the device, and FC_STATE shows it. -/
theorem Dev.raise_fatal (h : fcSeverity src = some 4) :
    (d.raise src info).pins.fatalStop = true ∧ (d.raise src info).flag Reg.FC_STATE 0 = true := by
  rw [Dev.raise_some h, if_pos rfl]
  constructor
  · rw [Dev.pinFault_stopped, Dev.fatalStop_stopped]
  · rw [Dev.flag_congr (Dev.pinFault_regs _), Dev.flag_congr (Dev.fatalStop_regs ..)]
    exact Dev.flag_setFlag_self _ _ _ _ (by decide)

/-- While the Masthead holds nothing, the next fault is its first (R465). -/
theorem Dev.raise_mastSrc (hv : d.flag Reg.FC_MH_SRC 31 = false) (hn : src < 640) (h : fcSeverity src = some sev) :
    (d.raise src info).reg Reg.FC_MH_SRC = 2 ^ 31 + sev * 2 ^ 16 + src := by
  have hsev : sev ≤ 4 := fcSeverity_le src hn sev h
  have hv' : ((d.setEvent (Reg.FC_STICKY (src / 24)) (src % 24)).count (Reg.FC_COUNT sev) 1).flag Reg.FC_MH_SRC 31 =
      false := by
    rw [Dev.count, Dev.flag_setReg_ne _ (by unfold Reg.FC_COUNT Reg.FC_MH_SRC; omega),
      Dev.flag_setEvent_ne _ (by unfold Reg.FC_STICKY Reg.FC_MH_SRC; omega), hv]
  rw [Dev.raise_reg h (by decide) (by decide), Dev.markFault, Dev.masthead_first hv']
  omega

end

/-! ### FC_FORCE (R472) -/

theorem Dev.force_raise {d : Dev} {v n sev : Nat} (hn : n = bits v 9 0) (hlt : n < 512) (h : fcSeverity n = some sev) :
    d.force v = d.raise n (2 ^ 63 + bits (d.reg Reg.FC_FORCE_INFO_HI) 23 0 * 2 ^ 32 + d.reg Reg.FC_FORCE_INFO_LO) := by
  subst hn
  unfold Dev.force
  dsimp only
  rw [if_neg (by rw [h]; simp only [Option.isNone_some, Bool.false_eq_true, false_or]; omega)]

theorem Dev.force_refused {d : Dev} {v n : Nat} (hn : n = bits v 9 0) (h : fcSeverity n = none ∨ 512 ≤ n) :
    d.force v = d.reject 4 := by
  subst hn
  exact if_pos (h.imp_left Option.isNone_iff_eq_none.2)

theorem completes_force {s : State} {w : Writer} {v : W32} {p : Dev → Prop} (h : s.live) (hw : s.dev.mayWrite w)
    (hp : p (s.dev.under (s.dev.force v.toNat))) : Completes (.fcForce w v) s p := by
  refine completes_keep (fun d => d.access w Reg.FC_FORCE v.toNat) rfl h.1 ?_
  rw [Dev.access_force hw h.2]
  exact hp

/-- Settles O54: the write is the raise of its source, which reaches the Fault Collector and the pins alone, or one
event in BLK_STATUS. -/
theorem forcedFaults : Obligations.ForcedFaults := by
  intro s w v n sev info hlive hmay hn hinfo
  refine ⟨fun hlt hsev => completes_force hlive hmay ?_, fun hbad => completes_force hlive hmay ?_⟩
  · rw [Dev.force_raise hn hlt hsev, ← hinfo]
    refine ⟨rfl, ?_, fun hq => ?_, fun hfatal => ?_, ?_, ?_, ?_, ?_⟩
    · rw [Dev.under_flag, Dev.raise_sticky (by omega) hsev]
    · rw [Dev.under_fc, Dev.raise_queue hsev hq]
    · obtain ⟨hstop, hstate⟩ := Dev.raise_fatal (d := s.dev) (info := info) (hfatal ▸ hsev)
      rw [Dev.under_fatalStop, Dev.under_flag, hstop, hstate, Bool.or_true]
      exact ⟨rfl, rfl⟩
    · rw [Dev.under_media, Dev.raise_media]
    · rw [Dev.under_dlv, Dev.raise_dlv]
    · rw [Dev.under_prot, Dev.raise_prot]
    · rw [Dev.under_host, Dev.raise_host]
  · rw [Dev.force_refused hn hbad]
    exact ⟨rfl, s.dev.flag_setEvent_self _ _ (by decide)⟩

/-! ### FC_MH_REARM (R466) -/

section
variable {d : Dev} {v : Nat}

/-- The Masthead re-armed: VALID, OVERFLOW and COUNT are clear. -/
theorem Dev.rearm_clears (hc : v = d.reg Reg.FC_MH_COUNT) (hv : d.flag Reg.FC_MH_SRC 31 = true) :
    (d.rearm v).flag Reg.FC_MH_SRC 31 = false ∧ (d.rearm v).flag Reg.FC_MH_SRC 30 = false ∧
      (d.rearm v).reg Reg.FC_MH_COUNT = 0 := by
  unfold Dev.rearm
  rw [if_pos ⟨hc, hv⟩]
  refine ⟨?_, ?_, ?_⟩
  · rw [Dev.flag_setReg_ne _ (by decide), Dev.flag_setFlag_other _ _ _ _ _ (by decide) (by decide),
      Dev.flag_setFlag_self _ _ _ _ (by decide)]
  · rw [Dev.flag_setReg_ne _ (by decide), Dev.flag_setFlag_self _ _ _ _ (by decide)]
  · rw [Dev.reg_setReg_self, Nat.zero_mod]

theorem Dev.rearm_stale (h : v ≠ d.reg Reg.FC_MH_COUNT ∨ d.flag Reg.FC_MH_SRC 31 = false) :
    d.rearm v = d.setEvent (Reg.BLK_STATUS 4) 1 := by
  refine if_neg fun ⟨hc, hv⟩ => ?_
  rcases h with h | h
  · exact h hc
  · exact Bool.false_ne_true (h.symm.trans hv)

end

theorem completes_rearm {s : State} {w : Writer} {v : W32} {p : Dev → Prop} (h : s.live) (hw : s.dev.mayWrite w)
    (hp : p (s.dev.under (s.dev.rearm v.toNat))) : Completes (.fcMhRearm w v) s p := by
  refine completes_keep (fun d => d.access w Reg.FC_MH_REARM v.toNat) rfl h.1 ?_
  rw [Dev.access_rearm hw h.2]
  exact hp

/-- Settles O55: the current count with VALID clears the Masthead, which then takes the next fault as its first; any
other write is one event in BLK_STATUS. -/
theorem mastheadRearm : Obligations.MastheadRearm := by
  intro s w v hlive hmay
  refine ⟨fun hcount hvalid => completes_rearm hlive hmay ?_, fun hstale => completes_rearm hlive hmay ?_⟩
  · obtain ⟨h31, h30, hzero⟩ := Dev.rearm_clears hcount hvalid
    exact ⟨h31, h30, hzero, fun src sev info hsrc hsev => Dev.raise_mastSrc h31 hsrc hsev⟩
  · rw [Dev.rearm_stale hstale]
    exact ⟨rfl, s.dev.flag_setEvent_self _ _ (by decide)⟩

end Sys2Proof.Machine

/-! Completion of the one operation under way, its record in host memory, and the reset that RESET brings about
(spec/03_host_interface.md R66, R72, R74; spec/21_management_security.md R507; spec/04_register_behaviour.md R103). -/

namespace Sys2Proof.Machine

/-! ### The record of a completion (R66, R72) -/

theorem leBytes_length : ∀ n v : Nat, (leBytes n v).length = n
  | 0, _ => rfl
  | n + 1, v => congrArg (· + 1) (leBytes_length n (v / 256))

theorem recordBytes_length (op : Op) (r : Result) (dt phase : Nat) : (recordBytes op r dt phase).length = 32 := by
  simp only [recordBytes, List.length_append, leBytes_length]

theorem Dev.hostRead_congr {d e : Dev} (h : e.hostMem = d.hostMem) (a n : Nat) : e.hostRead a n = d.hostRead a n := by
  unfold Dev.hostRead
  rw [h]

theorem Dev.pmAdd_hostMem : ∀ (n : Nat) (d : Dev) (u k x : Nat), (d.pmAdd u n k x).hostMem = d.hostMem
  | 0, _, _, _, _ => rfl
  | n + 1, d, u, k, x => by
    unfold Dev.pmAdd
    dsimp only
    split
    · rfl
    · split
      · rw [Dev.pmAdd_hostMem n, Dev.setEvent_hostMem]
      · rw [Dev.setEvent_hostMem]

theorem Dev.pmEvent_hostMem (d : Dev) (u c n : Nat) (x : PmAttr) : (d.pmEvent u c n x).hostMem = d.hostMem := by
  unfold Dev.pmEvent
  split
  · refine foldl_keep Dev.hostMem _ (fun e k => ?_) _ _
    split
    · rw [Dev.pmAdd_hostMem]
    · rfl
  · rfl

theorem Dev.pmCompleted_hostMem (d : Dev) (type : Nat) (op : Op) : (d.pmCompleted type op).hostMem = d.hostMem := by
  simp only [Dev.pmCompleted, apply_ite Dev.hostMem, Dev.pmEvent_hostMem, ite_self]

/-- A queue without an interrupt source takes the record and nothing else reaches host memory. -/
theorem Dev.writeRecord_hostMem (d : Dev) (x : Ring) {q : Cq} (hq : q.src = 0xFFFF) (op : Op) (r : Result) :
    (d.writeRecord x q op r).hostMem =
      (d.hostWrite (q.base + q.written % 2 ^ q.sizeLog2 * 32) (recordBytes op r d.tb.dt q.phase)).hostMem := by
  unfold Dev.writeRecord
  dsimp only
  rw [if_pos hq, Dev.pmCompleted_hostMem, Dev.setCq, Dev.withHost_hostMem, Dev.hostPut_hostMem]

theorem Dev.writeRecord_read (d : Dev) (x : Ring) {q : Cq} (hq : q.src = 0xFFFF) (op : Op) (r : Result) :
    (d.writeRecord x q op r).hostRead (q.base + q.written % 2 ^ q.sizeLog2 * 32) 32 =
      recordBytes op r d.tb.dt q.phase := by
  rw [Dev.hostRead_congr (d.writeRecord_hostMem x hq op r), ← recordBytes_length op r d.tb.dt q.phase,
    Dev.hostRead_hostWrite]

/-! ### The one operation under way completes (R74) -/

/-- The operations under way replaced. -/
def Dev.withOps (d : Dev) (l : List Op) : Dev := { d with host := { d.host with ops := l } }

theorem Dev.finish_eq (d : Dev) (id : Nat) (r : Result) :
    d.finish id r = (d.withOps (setResult id r d.host.ops)).settle := rfl

section
variable {d : Dev} {op : Op} {x : Ring} {q : Cq}

/-- With nothing before it, an operation that has its result leaves its record in a queue with room. -/
theorem Dev.drain_sole {r : Result} (hr : op.result = some r) (hf : d.pins.fatalStop = false)
    (hx : d.ring op.ring = some x) (hq : d.cq x.cq = some q) (hroom : q.full = false) :
    d.drain [] [op] = (d.writeRecord x q op r, []) := by
  simp [Dev.drain, hr, hf, hx, hq, hroom]

theorem setResult_sole (h : op.result = none) (r : Result) :
    setResult op.id r [op] = [{ op with result := some r }] := by
  simp [setResult, h]

/-- The only operation under way, once it has its result: its record is written, and none is left. -/
theorem Dev.settle_sole {r : Result} (hops : d.host.ops = [op]) (hr : op.result = some r)
    (hf : d.pins.fatalStop = false) (hx : d.ring op.ring = some x) (hq : d.cq x.cq = some q)
    (hroom : q.full = false) :
    d.settle = (d.writeRecord x q op r).withOps [] := by
  unfold Dev.settle
  rw [hops, Dev.drain_sole hr hf hx hq hroom, Dev.withOps]

/-- The only operation under way completes with `r`: none is left, and its record stands in the queue's next slot. -/
theorem Dev.finish_sole (hops : d.host.ops = [op]) (hres : op.result = none) (hf : d.pins.fatalStop = false)
    (hx : d.ring op.ring = some x) (hq : d.cq x.cq = some q) (hroom : q.full = false) (hsrc : q.src = 0xFFFF)
    (r : Result) : (d.finish op.id r).host.ops = [] ∧
      (d.finish op.id r).hostRead (q.base + q.written % 2 ^ q.sizeLog2 * 32) 32 =
        recordBytes op r d.tb.dt q.phase := by
  rw [Dev.finish_eq, hops, setResult_sole hres,
    Dev.settle_sole (d := d.withOps _) (op := { op with result := some r }) rfl rfl hf hx hq hroom]
  exact ⟨rfl, Dev.writeRecord_read _ x hsrc _ r⟩

end

/-! ### What starting a command adds to the operations under way -/

theorem Dev.hostStores_host : ∀ (l : Stores) (d : Dev), (d.hostStores l).host = d.host
  | [], _ => rfl
  | (a, l) :: r, d => Dev.hostStores_host r (d.hostWrite a l)

theorem Dev.setRing_ops (d : Dev) (r : Nat) (x : Ring) : (d.setRing r x).host.ops = d.host.ops := rfl

theorem Dev.takeSlots_ops (d : Dev) (o : RingOp) (x : Ring) : (d.takeSlots o x).host.ops = d.host.ops := by
  unfold Dev.takeSlots Dev.putRing Dev.writeStatus
  dsimp only
  rw [Dev.hostPut_host, Dev.setRing_ops, Dev.pcieIn_host]

/-- Whatever ring or orphan the command is taken from, its operation stands last and has no result yet. -/
theorem Dev.start_ops {d : Dev} {o : RingOp} {key : Op → Nat} {op : Op} {b : Nat}
    (h : (d.start o key).2 = some (op, b)) :
    (d.start o key).1.host.ops = d.host.ops ++ [op] ∧ op.result = none := by
  have hs : (d.hostStores o.st).host.ops = d.host.ops := congrArg HostIf.ops (Dev.hostStores_host o.st d)
  revert h
  unfold Dev.start
  dsimp only
  split
  · rintro ⟨⟩
    exact ⟨congrArg (· ++ [_]) hs, rfl⟩
  · split
    · rintro ⟨⟩
    · split
      · rintro ⟨⟩
      · split
        · split
          · rintro ⟨⟩
            exact ⟨congrArg (· ++ [_]) hs, rfl⟩
          · rintro ⟨⟩
        · split
          · rintro ⟨⟩
          · rintro ⟨⟩
            exact ⟨congrArg (· ++ [_]) ((Dev.takeSlots_ops ..).trans hs), rfl⟩

/-! ### A reset begins (R103, R535, R536) -/

section
variable (d : Dev) (power : Bool) (cause : Nat)

/-- A reset leaves the device held, without rings, operations, contexts and flows, and keeps the flash log. -/
theorem Dev.resetTo_held : Claims.held d (d.resetTo power cause) := by
  simp only [Claims.held, Dev.resetTo, Dev.setReg_pins, Dev.setReg_host, Dev.setReg_media, Dev.setReg_dlv,
    Dev.setReg_dataMem, Dev.setReg_tb, Dev.setReg_fc]
  exact ⟨rfl, rfl, rfl, rfl, rfl, rfl, rfl, trivial, rfl, rfl⟩

theorem Dev.resetTo_pins : (d.resetTo power cause).pins = d.pins.held := by
  simp only [Dev.resetTo, Dev.setReg_pins]

variable {d}

/-- The first cause of a reset stands in GLB_RESET.CAUSE. -/
theorem Dev.resetTo_cause {cause : Nat} (h : d.pins.inReset = false) (hc : cause < 16) :
    (d.resetTo power cause).fld Reg.GLB_RESET 3 0 = cause := by
  unfold Dev.resetTo
  dsimp only
  rw [Dev.fld_setReg_ne _ (by decide), Dev.fld_setReg_self _ _ _ _ _ (by decide)]
  simp only [h, Bool.false_eq_true, if_false, bits]
  omega

end

/-- A reset inside the device. -/
theorem Dev.internalReset_held (d : Dev) (cause : Nat) : Claims.held d (d.internalReset cause) :=
  Dev.resetTo_held { d with pins := { d.pins with internal := true } } false cause

theorem Dev.internalReset_internal (d : Dev) (cause : Nat) : (d.internalReset cause).pins.internal = true := by
  unfold Dev.internalReset
  rw [Dev.resetTo_pins]
  rfl

theorem Dev.internalReset_cause {d : Dev} {cause : Nat} (h : d.pins.inReset = false) (hc : cause < 16) :
    (d.internalReset cause).fld Reg.GLB_RESET 3 0 = cause :=
  Dev.resetTo_cause (d := { d with pins := { d.pins with internal := true } }) false h hc

/-- What is held of a device is held of the device some time earlier. -/
theorem held_of_advanceTo {d t : Dev} {n : Nat} (h : Claims.held (d.advanceTo n) t) : Claims.held d t := by
  unfold Claims.held at h ⊢
  rwa [Dev.advanceTo_fc] at h

/-! ### RESET and RESET_DELAY_EXPIRE (R507) -/

/-- The device on which RESET has acted, before its completion. -/
def Dev.resetAhead (d : Dev) : Dev :=
  { d with mgmt := { d.mgmt with resetDue := some (d.tb.dt + 10000 * unitsPerUs) } }

theorem completes_reset {s : State} {o : RingOp} {op : Op} {p : Dev → Prop} (h : s.live)
    (ht : s.dev.takesAdmin o noFields levelOne op)
    (hp : p (s.dev.under ((s.dev.start o adminKey).1.resetAhead.finish op.id (resOf stOk)))) :
    Completes (.reset o) s p := by
  refine completes_act (fun d => d.runAdmin o levelOne noFields fun e _ => (e.resetAhead, resOf stOk)) rfl h ?_
  rw [ht.run]
  exact hp

/-- When the reset that RESET has set is due, time passes to it and the device resets itself. -/
theorem execResetDelayExpire_due {s : State} {n : Nat} (h : s.up) (hn : s.dev.mgmt.resetDue = some n) :
    execResetDelayExpire s = .next { s with dev := (s.dev.advanceTo n).internalReset 6 } := by
  unfold execResetDelayExpire State.raw
  simp only [hn, h, Bool.false_eq_true, if_false]

/-- Settles O56: RESET is the only operation under way, so its completion writes its record at once and keeps the time
that RESET has set; the reset of that time is one inside the device. -/
theorem resetCommand : Obligations.ResetCommand := by
  intro s o op x q n hlive
  refine ⟨fun htake hops hx hq hroom hsrc => completes_reset hlive htake ?_, fun hdue =>
    ⟨_, execResetDelayExpire_due hlive.1 hdue, rfl, ?_, ?_, ?_⟩⟩
  · obtain ⟨-, ⟨hstart, -⟩, -⟩ := htake
    obtain ⟨hadd, hres⟩ := Dev.start_ops hstart
    have hrun : (s.dev.start o adminKey).1.pins.fatalStop = false := by
      rw [(s.dev.start_only o adminKey).pins]
      exact hlive.2
    obtain ⟨hnone, hrec⟩ := Dev.finish_sole (d := (s.dev.start o adminKey).1.resetAhead)
      (hadd.trans (congrArg (· ++ [op]) hops)) hres hrun hx hq hroom hsrc (resOf stOk)
    refine ⟨hnone, ?_, ?_⟩
    · rw [← s.dev.start_tb o adminKey]
      exact hrec
    · rw [Dev.under_mgmt, Dev.finish_mgmt, ← s.dev.start_tb o adminKey]
      rfl
  · exact held_of_advanceTo (Dev.internalReset_held _ 6)
  · exact Dev.internalReset_cause ((s.dev.advanceTo_inReset n).trans hlive.1) (by decide)
  · exact Dev.internalReset_internal _ 6

end Sys2Proof.Machine
